-- ==== Sys2Proof/Word.lean ====
section
/-! DEFINITION. The word types of the PZM-4 (spec 00 R5: words of 32 bits, little-endian bytes). -/

namespace Sys2Proof

/-- A byte of memory or of a record. -/
abbrev Byte := BitVec 8

/-- A memory, packet or instruction word (R5). -/
abbrev Word := BitVec 32

/-- A 48-bit accumulator of the filter engine (R134). -/
abbrev Acc := BitVec 48

end Sys2Proof
end

