-- ==== Sys2Proof/Syntax.lean ====
section
/-! DEFINITION. The commands of the PZM-4: one constructor of `Instr` per row of spec/opcode_table.json, with the
operands the happening carries. Line commands carry the line, the tag and the fields as typed (R29, R33). -/

namespace Sys2Proof

/-- The two lines that carry the command language (R27). -/
inductive Line where
  | host | service
  deriving DecidableEq, Repr

/-- Who sends a line command: the line, and the tag where the line is tagged and so strict (R33). -/
structure Req where
  line : Line
  tag : Option Nat
  deriving DecidableEq, Repr

/-- Run n of the module is `n - 1` here (R14). -/
abbrev Run := Fin 4

/-- Gather channel G0 ... G7 (R202). -/
abbrev Channel := Fin 8

/-- What a receiver sees: a byte, a character with a framing error (R354), or a read-back collision while the module
drives an RS-485 line (R352). -/
inductive RxChar where
  | byte (b : Byte) | framing | collision
  deriving DecidableEq, Repr

/-- A line ends with CR or LF; CR followed directly by LF counts once (R28). -/
inductive LineEnd where
  | cr | lf
  deriving DecidableEq, Repr

/-- Form of the host line, selected by HMODE (R350). -/
inductive HostForm where
  | rs485 | rs232
  deriving DecidableEq, Repr

/-- The sampled 24 V inputs of Table 17.11: DI1 ... DI4 (R299) and SAFE_KEY (R358). -/
inductive DigitalPin where
  | di (x : Fin 4) | safeKey
  deriving DecidableEq, Repr

/-- Trip relays A and B (R305). -/
inductive Relay where
  | a | b
  deriving DecidableEq, Repr

/-- One conversion of a slow cell (R82, R89): the signed result in 0.001 Ω or 0.0001 mV/V as the converter measures
it, its excitation polarity, and what the lead tests of Table 4.3 see in it. -/
structure RawConv where
  value : Int
  positive : Bool
  /-- Compliance limit, sense bias or excitation sense shows an open lead. -/
  openLead : Bool
  deriving DecidableEq, Repr

/-- The conversions of one run in one millisecond; in a lead phase the thermometer's cell converts the lead (R91). -/
structure Conv where
  temp : RawConv
  press : RawConv
  deriving DecidableEq, Repr

/-- One 48 kS/s frame: the samples of C1 ... C10, as the converter delivers them ahead of the headroom limit (R81, R83),
and the output of the body motion sensor, AX ... GZ (R103). -/
structure Frame where
  cells : Vector Int 10
  axes : Vector Int 6
  deriving DecidableEq, Repr

/-- What a burst brings in: the slow conversions of each run and the fast frames. -/
structure Burst where
  conv : Vector (List Conv) 4
  frames : List Frame
  deriving DecidableEq, Repr

/-- A pilot result of one element: magnitude in 0.01 % of the factory nominal coupling, phase in 0.1° (R139). -/
structure PilotValue where
  gain : Nat
  phase : Int
  deriving DecidableEq, Repr

/-- What a CADENCE instance finds (R170): an interval in µs between pulse starts (valid or discarded), or no pulse
within 2 × pmax. -/
inductive CadenceInput where
  | interval (micros : Nat) (valid : Bool) | noPulse
  deriving DecidableEq, Repr

/-- A figure that the engine has found and State holds: the row names it and brings no value of its own (log 83). -/
inductive Found where
  | found
  deriving DecidableEq, Repr

/-- A level of a digital input and the time in ms for which it has stood (R299). -/
structure DiLevel where
  high : Bool
  stood : Nat
  deriving DecidableEq, Repr

/-- A rise of the lift signal: the lowest level since the row before and the level it rises to, mV (R59). -/
structure Rise where
  low : Nat
  millivolts : Nat
  deriving DecidableEq, Repr

/-- The current of a loop read back, and the awake time in ms for which it has stood on its side of the limit (R290). -/
structure Readback where
  microAmp : Nat
  stood : Nat
  deriving DecidableEq, Repr

/-- A failure found by a self-test item (R330): item code, fault code and subject. -/
structure Failure where
  item : Nat
  fault : Nat
  subject : Nat
  deriving DecidableEq, Repr

/-- A self-test run: what it found, how long it took, and whether the evaluator self-check passed (R326, R331). -/
structure TestRun where
  failures : List Failure
  millis : Nat
  evaluatorOk : Bool
  deriving DecidableEq, Repr

/-- Why the queue resets (R199). -/
inductive QueueFault where
  | pointer | header
  deriving DecidableEq, Repr

/-- What a memory's check finds by itself in a word read: a bus error (R204 kinds 1 and 4), or a single-bit error that
it corrects (R191). -/
inductive TransferError where
  | uncorrectable | timeout | corrected
  /-- The memory written gives no response within 10 µs (R204). -/
  | writeTimeout
  /-- A parity error on the word as written into a landing (R195). -/
  | landing
  deriving DecidableEq, Repr

/-- Tag, ack field and receive stamp (ms since 2020) of a frame (R245 ... R247). -/
structure FrameHead where
  tag : Nat
  ack : Nat
  stamp : Nat
  deriving DecidableEq, Repr

/-- Fields of hello (Table 12.2); the want time in ms since 2020. -/
structure HelloFields where
  version : Nat
  serial : Nat
  up : Bool
  minutes : Nat
  want : Nat
  key : List Byte
  nonce : List Byte
  deriving DecidableEq, Repr

/-- Reasons of refuse, in the order of R252. -/
inductive RefuseReason where
  | version | key | length
  deriving DecidableEq, Repr

/-- Check field of a nak (Table 12.2). -/
inductive NakCheck where
  | hex (c : BitVec 16) | gap | none
  deriving DecidableEq, Repr

/-- Reasons of decline (Table 12.2). -/
inductive DeclineReason where
  | sig | count | total
  deriving DecidableEq, Repr

/-- End of a vibration fit: the sums over the awake time, or a failure with its cause (R113). -/
inductive VibfitOutcome where
  | done (lv vv ll : Int) | fail
  deriving DecidableEq, Repr

/-- The commands, in the table's order. -/
inductive Instr where
  /-- GET (R41). -/
  | get (rq : Req) (args : List String)
  /-- SET (R42). -/
  | set (rq : Req) (args : List String)
  /-- STAGE (R46). -/
  | stage (rq : Req) (args : List String)
  /-- COMMIT (R47). -/
  | commit (rq : Req) (args : List String)
  /-- DISCARD (R49). -/
  | discard (rq : Req) (args : List String)
  /-- DISCARD_PENDING (R49). -/
  | discardPending (rq : Req) (args : List String)
  /-- SHOW (R41). -/
  | show (rq : Req) (args : List String)
  /-- WATCH (R54). -/
  | watch (rq : Req) (args : List String)
  /-- QUIET (R41). -/
  | quiet (rq : Req) (args : List String)
  /-- HELP (R41). -/
  | help (rq : Req) (args : List String)
  /-- ROLE (R43). -/
  | role (rq : Req) (args : List String)
  /-- ROLE_CODE_CHANGE (R43). -/
  | roleCodeChange (rq : Req) (args : List String)
  /-- TIME (R41). -/
  | time (rq : Req) (args : List String)
  /-- TIME_SET (R75). -/
  | timeSet (rq : Req) (args : List String)
  /-- START (R23). -/
  | start (rq : Req) (args : List String)
  /-- STOP (R80). -/
  | stop (rq : Req) (args : List String)
  /-- DROP (R197). -/
  | drop (rq : Req) (args : List String)
  /-- PAIR (R284). -/
  | pair (rq : Req) (args : List String)
  /-- TEST (R329). -/
  | test (rq : Req) (args : List String)
  /-- TEST_COMPLETE (R329). -/
  | testComplete (r : TestRun)
  /-- LEDGER_INTERVAL (R243). -/
  | ledgerInterval (rq : Req) (args : List String)
  /-- LEDGER_CLOSE (R243). -/
  | ledgerClose (rq : Req) (args : List String)
  /-- LEDGER_EVENTS (R243). -/
  | ledgerEvents (rq : Req) (args : List String)
  /-- LEDGER_AUDIT (R243). -/
  | ledgerAudit (rq : Req) (args : List String)
  /-- LEDGER_HEAD (R243). -/
  | ledgerHead (rq : Req) (args : List String)
  /-- LEDGER_RAW (R243). -/
  | ledgerRaw (rq : Req) (args : List String)
  /-- LEDGER_VERIFY (R243). -/
  | ledgerVerify (rq : Req) (args : List String)
  /-- GATHER_SHOW (R222). -/
  | gatherShow (rq : Req) (args : List String)
  /-- GATHER_RING (R222). -/
  | gatherRing (rq : Req) (args : List String)
  /-- GATHER_READ (R222). -/
  | gatherRead (rq : Req) (args : List String)
  /-- GATHER_WORD (R222). -/
  | gatherWord (rq : Req) (args : List String)
  /-- GATHER_START (R222). -/
  | gatherStart (rq : Req) (args : List String)
  /-- GATHER_STOP (R222). -/
  | gatherStop (rq : Req) (args : List String)
  /-- GATHER_RESUME (R218). -/
  | gatherResume (rq : Req) (args : List String)
  /-- GATHER_SKIP (R218). -/
  | gatherSkip (rq : Req) (args : List String)
  /-- GATHER_RESET (R218). -/
  | gatherReset (rq : Req) (args : List String)
  /-- DO_FE_POINT (R97). -/
  | doFePoint (rq : Req) (args : List String)
  /-- DO_FE_LEADCAL (R92). -/
  | doFeLeadcal (rq : Req) (args : List String)
  /-- DO_K_POINT (R150). -/
  | doKPoint (rq : Req) (args : List String)
  /-- DO_Q_POINT (R154). -/
  | doQPoint (rq : Req) (args : List String)
  /-- DO_MATRIX_VIBFIT (R113). -/
  | doMatrixVibfit (rq : Req) (args : List String)
  /-- VIBFIT_DONE (R113). -/
  | vibfitDone (run : Run) (o : VibfitOutcome)
  /-- DO_PILOT_REF (R140). -/
  | doPilotRef (rq : Req) (args : List String)
  /-- PILOT_REF_DONE (R140). -/
  | pilotRefDone (run : Run)
  /-- DO_BEEP (R116). -/
  | doBeep (rq : Req) (args : List String)
  /-- DO_BEEP_STOP (R116). -/
  | doBeepStop (rq : Req) (args : List String)
  /-- BEEP_PATTERN_END (R115). -/
  | beepPatternEnd
  /-- DO_TURN_REF (R174). -/
  | doTurnRef (rq : Req) (args : List String)
  /-- DO_SM_WORD (R182). -/
  | doSmWord (rq : Req) (args : List String)
  /-- DO_SM_ACT (R182). -/
  | doSmAct (rq : Req) (args : List String)
  /-- DO_SM_FACTORY (R182). -/
  | doSmFactory (rq : Req) (args : List String)
  /-- DO_SM_RESET (R182). -/
  | doSmReset (rq : Req) (args : List String)
  /-- DO_CO_FORCE (R302). -/
  | doCoForce (rq : Req) (args : List String)
  /-- DO_CO_FORCE_END (R302). -/
  | doCoForceEnd (rq : Req) (args : List String)
  /-- FORCE_EXPIRY (R302). -/
  | forceExpiry (x : Fin 4)
  /-- DO_SAFETY_RESET (R316). -/
  | doSafetyReset (rq : Req) (args : List String)
  /-- DO_SAFETY_CONFIRM (R318). -/
  | doSafetyConfirm (rq : Req) (args : List String)
  /-- SAFETY_CONFIRM_TIMEOUT (R318). -/
  | safetyConfirmTimeout
  /-- DO_REPAIR_CELL (R334). -/
  | doRepairCell (rq : Req) (args : List String)
  /-- DO_REPAIR_ROW (R334). -/
  | doRepairRow (rq : Req) (args : List String)
  /-- DO_REPAIR_CLEAR (R334). -/
  | doRepairClear (rq : Req) (args : List String)
  /-- DO_REPAIR_BURN (R335). -/
  | doRepairBurn (rq : Req) (args : List String)
  /-- DO_AGE_BACKUP_FITTED (R339). -/
  | doAgeBackupFitted (rq : Req) (args : List String)
  /-- LINE_END_RECEIVED (R52). -/
  | lineEndReceived (l : Line) (e : LineEnd)
  /-- CHARACTER_RECEIVED (R31). -/
  | characterReceived (l : Line) (c : RxChar)
  /-- LINE_PASS_END (R57). -/
  | linePassEnd
  /-- ROLE_IDLE_TIMEOUT (R43). -/
  | roleIdleTimeout (l : Line)
  /-- ROLE_WARN_DUE (R55). -/
  | roleWarnDue (l : Line)
  /-- ROLE_LOCKOUT_END (R44). -/
  | roleLockoutEnd (l : Line)
  /-- WATCH_PERIOD_DUE (R54). -/
  | watchPeriodDue (l : Line) (param : Nat)
  /-- COMMIT_APPLY (R47). -/
  | commitApply
  /-- SUPPLY_APPLIED (R23). -/
  | supplyApplied (millivolts : Nat)
  /-- BACKUP_CELL_FITTED (R23). -/
  | backupCellFitted (millivolts : Nat)
  /-- SUPPLY_LOSS (R68). -/
  | supplyLoss
  /-- SUPPLY_RETURN (R24). -/
  | supplyReturn (millivolts : Nat)
  /-- BACKUP_CELL_TEST (R70). -/
  | backupCellTest (millivolts : Nat)
  /-- NRST_ASSERTED (R25). -/
  | nrstAsserted
  /-- NRST_RELEASED (R25). -/
  | nrstReleased (form : HostForm)
  /-- START_SEQUENCE_COMPLETE (R78). -/
  | startSequenceComplete (r : TestRun) (form : HostForm)
  /-- STOP_SEQUENCE_COMPLETE (R80). -/
  | stopSequenceComplete (r : TestRun)
  /-- SEAL_LOOP_CHANGE (R360). -/
  | sealLoopChange (isOpen : Bool)
  /-- DI_CHANGE (R299). -/
  | diChange (pin : DigitalPin) (level : DiLevel)
  /-- VALVE_DISCREPANCY (R300). -/
  | valveDiscrepancy (x : Fin 4)
  /-- TALLY_CROSSING (R59). -/
  | tallyCrossing (run : Run) (rise : Rise) (atMicros : Nat)
  /-- BLOCK_BOUNDARY (R61). -/
  | blockBoundary
  /-- INTERVAL_BOUNDARY (R20). -/
  | intervalBoundary
  /-- DAILY_CLOSE (R231). -/
  | dailyClose
  /-- KEEP_BACKLOG_WRITE (R71). -/
  | keepBacklogWrite
  /-- CLOCK_TRIM (R72). -/
  | clockTrim (dieTenths : Int)
  /-- THERMAL_ACCUMULATE (R337). -/
  | thermalAccumulate (dieTenths : Int)
  /-- CLOCK_STEP (R76). -/
  | clockStep
  /-- SLEW_COMPLETE (R74). -/
  | slewComplete
  /-- BURST_WAKE (R62). -/
  | burstWake (b : Burst)
  /-- BURST_END (R138). -/
  | burstEnd (tracked : Found)
  /-- FE_RESTART_DONE (R86). -/
  | feRestartDone (run : Run)
  /-- PILOT_RESULT (R141). -/
  | pilotResult (run : Run) (lift vib : Found)
  /-- EVENT_TICK (R164). -/
  | eventTick
  /-- SM_TIMER_EXPIRY (R181). -/
  | smTimerExpiry (m : Fin 8) (timer : Fin 2)
  /-- KNOCK (R168). -/
  | knock (peakCentiG : Nat)
  /-- HAMMER (R169). -/
  | hammer (run : Run) (peak duration : Found)
  /-- CADENCE (R170). -/
  | cadence (run : Run) (beat : Found)
  /-- RELEASE_FALL (R171). -/
  | releaseFall (below lowest : Found)
  /-- RELEASE (R172). -/
  | release (run : Run) (rms judged : Found)
  /-- TURN_ROT (R173). -/
  | turnRot (angle : Found)
  /-- TURN_TILT (R174). -/
  | turnTilt (angle : Found)
  /-- SAFETY_JUDGEMENT (R307). -/
  | safetyJudgement (standing : List Nat)
  /-- WELDED_CONTACT (R314). -/
  | weldedContact (relay : Relay)
  /-- EVALUATOR_RESTART (R311). -/
  | evaluatorRestart (passed : Bool)
  /-- LIMITER_UPDATE (R293). -/
  | limiterUpdate (x : Fin 4) (frequency : Found)
  /-- CO_READBACK (R290). -/
  | coReadback (x : Fin 4) (back : Readback)
  /-- PULSE_ISSUE (R297). -/
  | pulseIssue (x : Fin 4)
  /-- RESERVATION_GRANT (R194). -/
  | reservationGrant
  /-- SHED_WAIT_TIMEOUT (R194). -/
  | shedWaitTimeout (g : Channel)
  /-- SHED_SPELL_END (R194). -/
  | shedSpellEnd
  /-- RESERVATION_TIMEOUT (R195). -/
  | reservationTimeout
  /-- QUEUE_RESET (R199). -/
  | queueReset (cause : QueueFault)
  /-- LINGER_EXPIRY (R198). -/
  | lingerExpiry
  /-- DRAIN_PASS_END (R198). -/
  | drainPassEnd
  /-- MOVE (R206). -/
  | move (g : Channel) (err : Option (Nat × TransferError))
  /-- LOOP (R207). -/
  | loop (g : Channel)
  /-- WAIT (R208). -/
  | wait (g : Channel)
  /-- WAIT_SATISFIED (R208). -/
  | waitSatisfied (g : Channel)
  /-- WAIT_TIMEOUT (R208). -/
  | waitTimeout (g : Channel)
  /-- SIGNAL (R209). -/
  | signal (g : Channel)
  /-- MARK (R210). -/
  | mark (g : Channel)
  /-- END (R211). -/
  | endProg (g : Channel)
  /-- OPCODE_FAULT (R205). -/
  | opcodeFault (g : Channel)
  /-- PORT_STALL_END (R204). -/
  | portStallEnd (g : Channel)
  /-- PACE_RESUME (R213). -/
  | paceResume (g : Channel)
  /-- CHANNEL_STOPPED (R214). -/
  | channelStopped (g : Channel)
  /-- RING_POST_TIMEOUT (R217). -/
  | ringPostTimeout (g : Channel)
  /-- LEDGER_SCRUB (R240). -/
  | ledgerScrub (chain : Fin 4) (index : Nat)
  /-- HELLO (R251). -/
  | hello (h : FrameHead) (f : HelloFields)
  /-- PROVE (R249). -/
  | prove (h : FrameHead) (sig : List Byte)
  /-- REFUSE (R252). -/
  | refuse (h : FrameHead) (reason : RefuseReason)
  /-- ACK (R254). -/
  | ack (h : FrameHead)
  /-- NAK (R257). -/
  | nak (h : FrameHead) (seq : Nat) (check : NakCheck)
  /-- BYE (R269). -/
  | bye (h : FrameHead)
  /-- IVL (R262). -/
  | ivl (h : FrameHead) (record : List Byte)
  /-- CLOSE (R263). -/
  | close (h : FrameHead) (record : List Byte)
  /-- CSIG (R263). -/
  | csig (h : FrameHead) (number : Nat) (chain sig : List Byte)
  /-- COSIG (R264). -/
  | cosig (h : FrameHead) (number : Nat) (sig : List Byte)
  /-- DECLINE (R264). -/
  | decline (h : FrameHead) (number : Nat) (reason : DeclineReason)
  /-- DAMAGE (R265). -/
  | damage (h : FrameHead) (chain : Fin 4) (index : Nat) (kase : Nat)
  /-- TQ (R266). -/
  | tq (h : FrameHead) (t1 : Nat)
  /-- TR (R267). -/
  | tr (h : FrameHead) (t1 t2 t3 : Nat)
  /-- FRAME_CHECK_FAIL (R256). -/
  | frameCheckFail (tag : Option Nat) (computed : Option (BitVec 16))
  /-- PROTOCOL_ERROR (R248). -/
  | protocolError (tag : Option Nat)
  /-- HELLO_RETRY (R251). -/
  | helloRetry
  /-- OPENING_TIMEOUT (R251). -/
  | openingTimeout
  /-- RTO_EXPIRY (R258). -/
  | rtoExpiry
  /-- ACK_DELAY (R254). -/
  | ackDelay
  /-- KEEPALIVE_DUE (R259). -/
  | keepaliveDue
  /-- SESSION_SILENCE (R259). -/
  | sessionSilence
  /-- TURN_RETAKE (R260). -/
  | turnRetake
  /-- SILENT_TIMEOUT (R253). -/
  | silentTimeout
  /-- TQ_DUE (R266). -/
  | tqDue
  /-- FE_LEADCAL_DONE (R92). -/
  | feLeadcalDone (run : Run) (loop : Found)
  /-- KNOCK_DOUBLE_MAX_RUN_OUT (R168). -/
  | knockDoubleMaxRunOut  deriving DecidableEq, Repr

end Sys2Proof
end

