-- ==== Sys2Proof/Machine/Flags.lean ====
section
/-! DEFINITION. Flag bytes of the records: the block flags (Table 7.3) and the flags of a close (Table 11.3). -/

namespace Sys2Proof.Machine

/-- The flag byte of Table 7.3. -/
def flagByte (tooMuch unver held clamp wet low carried : Bool) : BitVec 8 :=
  let b := fun (x : Bool) (n : Nat) => if x then n else 0
  BitVec.ofNat 8 (b tooMuch 1 + b unver 2 + b held 4 + b clamp 8 + b wet 16 + b low 32 + b carried 64)

/-- Flags of the day that a record sets (R231): short or empty [0], K blocks [1], X blocks [2]. -/
def dayFlagByte (short : Bool) (k x : Nat) : BitVec 8 :=
  BitVec.ofNat 8 ((if short then 1 else 0) + (if 0 < k then 2 else 0) + (if 0 < x then 4 else 0))

end Sys2Proof.Machine
end

