-- ==== Sys2Proof/Config.lean ====
section
/-! DEFINITION. What the spec leaves open: free values without a body, so that no proof can see them. -/

namespace Sys2Proof.Config

/-- Ed25519 signature (RFC 8032, R233) of a message under the private key that belongs to a public key. The private
key never leaves the chip (R234). Log 6. -/
opaque edSign (publicKey message : List Byte) : List Byte

/-- Ed25519 verification of a signature (R233). Log 6. -/
opaque edVerify (publicKey message signature : List Byte) : Bool

/-- The n-th nonce drawn from the internal random source, 8 bytes (R249). Log 7. -/
opaque nonce (n : Nat) : List Byte

/-- The n-th confirmation code, four decimal digits, drawn by the evaluator (R317). Log 7. -/
opaque confirmCode (n : Nat) : Fin 10000


/-- Density of the dry-air grid at temperature step i and pressure step j, 0.0001 kg/m³ (R153). Log 9. -/
opaque airRho (i j : Nat) : Int
/-- Enthalpy of the dry-air grid at temperature step i and pressure step j, 0.000001 MJ/kg (R153). Log 9. -/
opaque airH (i j : Nat) : Int

/-- The Hamming bits of a cellar word (R191): the spec gives their number with the overall parity, not their arrangement.
Log 96. -/
opaque hammingBits (w : Word) : BitVec 7

/-- A byte of the configuration area of a ferroelectric copy that holds this content (R224): the spec gives what the area
holds and no place in it. Log 21. -/
opaque confByte (content : List (List Int)) (offset : Nat) : BitVec 8

/-- A word of the shipped gather programs that the spec does not print (R221: only G4's words are printed). Log 10. -/
opaque shippedWord (address : Nat) : Word

/-- Tap of a preset's filter, Q1.17: the spec gives its length and its passband but no coefficients (R127, R133). Log 11. -/
opaque presetTap (code tap : Nat) : BitVec 18

/-- Tap of one of the 64 branches of the interpolator, Q1.17 (R128, R133). Log 11. -/
opaque branchTap (branch tap : Nat) : BitVec 18

/-- A sine sample that is no whole number is rounded up (R108): the spec gives no rounding. Log 11. -/
opaque sineUp (phase : Word) : Bool

/-- Engine clocks from a wake to the PLL lock and the first frame, at most 1 ms (R62). Log 11. -/
opaque lockClocks : Fin 49153

/-- The tracker's low-pass at a bandwidth in 0.001 Hz and an output rate of `rate` ÷ 2³² × 48 kHz: its next value from the
held one and a product (R135). Log 11. -/
opaque lowPass (band rate : Nat) (held x : Int) : Int

/-- Phase error of the low-passed products, 2⁻²⁴ cycle (R135, R136). Log 11. -/
opaque phaseError (i q : Int) : Int

/-- Proportional and integral gain of the tracker's loop at a bandwidth and an output rate, 0.001 Hz per cycle (R135).
Log 11. -/
opaque loopGain (band rate : Nat) : Int × Int

/-- Factory nominal coupling of an element by run 0 … 3 and path, in 0.001 pC per volt (R139, R141). Log 11. -/
opaque coupling (run : Nat) (vib : Bool) : Nat

/-- Value of a line through two points with the same x at mvv (R96). Log 13. -/
opaque steepLine (mvv y0 y1 : Int) : Int

/-- The factory offset of the crystal, ppb (R72). Log 12. -/
opaque crystalOffset : Int

/-- A value of the machine that the spec leaves open at the n-th such occasion. Log 13. -/
opaque freeValue (n : Nat) : Int

end Sys2Proof.Config
end

