-- ==== Sys2Proof/Machine/Digest.lean ====
section
/-! DEFINITION. Sorted stores, byte orders, the digests CRC-32C and SHA-256 (R5, R211, R230), and the directory of a
ferroelectric copy (R225). -/

namespace Sys2Proof.Machine

/-! ## Sorted stores -/

/-- Content at a key; an unlisted key reads as `blank`. -/
def fetch {α : Type} (blank : α) (m : List (Nat × α)) (k : Nat) : α :=
  match m with
  | [] => blank
  | (a, x) :: r => if a = k then x else fetch blank r k

/-- Stores at a key and keeps the list sorted and free of blank entries. -/
def store {α : Type} [DecidableEq α] (blank : α) (m : List (Nat × α)) (k : Nat) (v : α) : List (Nat × α) :=
  match m with
  | [] => if v = blank then [] else [(k, v)]
  | (a, x) :: r =>
    if k < a then (if v = blank then (a, x) :: r else (k, v) :: (a, x) :: r)
    else if k = a then (if v = blank then r else (k, v) :: r)
    else (a, x) :: store blank r k v

/-- The canonical form: keys strictly rising, no blank content. -/
def sorted {α : Type} [DecidableEq α] (blank : α) : List (Nat × α) → Bool
  | [] => true
  | [(_, x)] => x ≠ blank
  | (a, x) :: (b, y) :: r => x ≠ blank && decide (a < b) && sorted blank ((b, y) :: r)

/-- Stores consecutive items from a key on. -/
def storeAll {α : Type} [DecidableEq α] (blank : α) (m : List (Nat × α)) (k : Nat) : List α → List (Nat × α)
  | [] => m
  | v :: vs => storeAll blank (store blank m k v) (k + 1) vs

/-- `n` consecutive items from a key on. -/
def fetchAll {α : Type} (blank : α) (m : List (Nat × α)) (k n : Nat) : List α :=
  (List.range n).map fun i => fetch blank m (k + i)

/-- Blank byte of a ferroelectric copy (R226). -/
def blankByte : Byte := 0xFF

/-! ## Bytes and digests -/

/-- One bit step of CRC-32C. -/
def crc32Bit (c : Word) : Word := if c.getLsbD 0 then (c >>> 1) ^^^ 0x82F63B78 else c >>> 1

/-- One byte of CRC-32C, ahead of the final XOR (R211). -/
def crc32Byte (c : Word) (b : Byte) : Word :=
  (List.range 8).foldl (fun a _ => crc32Bit a) (c ^^^ b.setWidth 32)

/-- The bytes of a little-endian number (R5). -/
def leBytes : Nat → Nat → List Byte
  | 0, _ => []
  | k + 1, n => BitVec.ofNat 8 n :: leBytes k (n / 256)

/-- The bytes of a signed little-endian number. -/
def leInt (k : Nat) (x : Int) : List Byte := leBytes k (x % (256 ^ k : Nat)).toNat

/-- The number that little-endian bytes hold. -/
def fromLe : List Byte → Nat
  | [] => 0
  | b :: bs => b.toNat + 256 * fromLe bs

/-- The signed number that little-endian bytes hold. -/
def fromLeInt (bs : List Byte) : Int :=
  let n := fromLe bs
  if 2 * n < 256 ^ bs.length then n else (n : Int) - (256 ^ bs.length : Nat)

/-- One moved word of the running CRC, least significant byte first (R211). -/
def crc32Word (c w : Word) : Word := (leBytes 4 w.toNat).foldl crc32Byte c

/-- CRC-32C of bytes (R211). -/
def crc32c (bs : List Byte) : Word := bs.foldl crc32Byte 0xFFFFFFFF ^^^ 0xFFFFFFFF

/-- Round constants of SHA-256 (FIPS 180-4). PRESUMED, log 6. -/
def shaK : List Word :=
  [0x428A2F98, 0x71374491, 0xB5C0FBCF, 0xE9B5DBA5, 0x3956C25B, 0x59F111F1, 0x923F82A4, 0xAB1C5ED5,
   0xD807AA98, 0x12835B01, 0x243185BE, 0x550C7DC3, 0x72BE5D74, 0x80DEB1FE, 0x9BDC06A7, 0xC19BF174]
  ++ [0xE49B69C1, 0xEFBE4786, 0x0FC19DC6, 0x240CA1CC, 0x2DE92C6F, 0x4A7484AA, 0x5CB0A9DC, 0x76F988DA,
   0x983E5152, 0xA831C66D, 0xB00327C8, 0xBF597FC7, 0xC6E00BF3, 0xD5A79147, 0x06CA6351, 0x14292967]
  ++ [0x27B70A85, 0x2E1B2138, 0x4D2C6DFC, 0x53380D13, 0x650A7354, 0x766A0ABB, 0x81C2C92E, 0x92722C85,
   0xA2BFE8A1, 0xA81A664B, 0xC24B8B70, 0xC76C51A3, 0xD192E819, 0xD6990624, 0xF40E3585, 0x106AA070]
  ++ [0x19A4C116, 0x1E376C08, 0x2748774C, 0x34B0BCB5, 0x391C0CB3, 0x4ED8AA4A, 0x5B9CCA4F, 0x682E6FF3,
   0x748F82EE, 0x78A5636F, 0x84C87814, 0x8CC70208, 0x90BEFFFA, 0xA4506CEB, 0xBEF9A3F7, 0xC67178F2]

/-- Initial hash value of SHA-256 (FIPS 180-4). PRESUMED, log 6. -/
def shaH : List Word :=
  [0x6A09E667, 0xBB67AE85, 0x3C6EF372, 0xA54FF53A,
   0x510E527F, 0x9B05688C, 0x1F83D9AB, 0x5BE0CD19]

/-- Big-endian words of bytes. -/
def beWords : List Byte → List Word
  | a :: b :: c :: d :: r =>
    BitVec.ofNat 32 (((a.toNat * 256 + b.toNat) * 256 + c.toNat) * 256 + d.toNat) :: beWords r
  | _ => []

/-- Extends a message schedule, held newest first, by one word. -/
def shaExtend (w : List Word) : List Word :=
  let g := fun (i : Nat) => w.getD i 0
  let x := g 14
  let y := g 1
  let s0 := x.rotateRight 7 ^^^ x.rotateRight 18 ^^^ (x >>> 3)
  let s1 := y.rotateRight 17 ^^^ y.rotateRight 19 ^^^ (y >>> 10)
  (g 15 + s0 + g 6 + s1) :: w

/-- One round on the eight working variables. -/
def shaRound (v : List Word) (kw : Word × Word) : List Word :=
  match v with
  | [a, b, c, d, e, f, g, h] =>
    let s1 := e.rotateRight 6 ^^^ e.rotateRight 11 ^^^ e.rotateRight 25
    let ch := (e &&& f) ^^^ (~~~e &&& g)
    let t1 := h + s1 + ch + kw.1 + kw.2
    let s0 := a.rotateRight 2 ^^^ a.rotateRight 13 ^^^ a.rotateRight 22
    let mj := (a &&& b) ^^^ (a &&& c) ^^^ (b &&& c)
    [t1 + s0 + mj, a, b, c, d + t1, e, f, g]
  | _ => v

/-- Compression of one block of 16 words. -/
def shaBlock (h : List Word) (block : List Word) : List Word :=
  let sched := ((List.range 48).foldl (fun w _ => shaExtend w) block.reverse).reverse
  List.zipWith (· + ·) h ((shaK.zip sched).foldl shaRound h)

/-- Blocks of 16 words, by fuel. -/
def shaBlocks : Nat → List Word → List Word → List Word
  | 0, h, _ => h
  | n + 1, h, w => shaBlocks n (shaBlock h (w.take 16)) (w.drop 16)

/-- SHA-256 (R230). -/
def sha256 (m : List Byte) : List Byte :=
  let pad := (119 - m.length % 64) % 64
  let bits := (leBytes 8 (8 * m.length)).reverse
  let w := beWords (m ++ (0x80 : Byte) :: List.replicate pad 0 ++ bits)
  (shaBlocks (w.length / 16) shaH w).flatMap fun x => (leBytes 4 x.toNat).reverse

/-! ## The directory -/

/-- Exactly `n` bytes, filled with `pad`. -/
def fit (n : Nat) (pad : Byte) (bs : List Byte) : List Byte := (bs ++ List.replicate n pad).take n

/-- The genesis value of a chain (R230). -/
def genesisOf (key : List Byte) (serial : Nat) (k : Fin 4) : List Byte :=
  sha256 (key ++ leBytes 8 serial ++ leBytes 1 (k.val + 1))

/-- A chain's entry in a directory generation (Table 11.14). -/
structure DirChain where
  head : List Byte
  base : List Byte
  next : Nat
  written : Nat
  deriving DecidableEq, Repr

/-- The bytes of a chain's entry. -/
def DirChain.bytes (c : DirChain) : List Byte :=
  fit 32 0 c.head ++ fit 32 0 c.base ++ leBytes 4 c.next ++ leBytes 4 c.written

/-- The bytes of an entry of the key table: a key with its first close number; FFh where unused. -/
def keyBytes (q : Option (List Byte × Nat)) : List Byte :=
  match q with
  | some q => fit 32 0 q.1 ++ leBytes 4 q.2
  | none => List.replicate 36 blankByte

/-- The 1024 bytes of a directory generation (Table 11.14). -/
def dirOf (gen : Word) (serial : Nat) (key : List Byte) (keys : List (List Byte × Nat)) (chains : List DirChain) :
    List Byte :=
  let body := leBytes 4 gen.toNat ++ leBytes 8 serial ++ fit 32 0 key
    ++ ((List.range 16).flatMap fun i => keyBytes keys[i]?) ++ chains.flatMap DirChain.bytes ++ List.replicate 112 0
  body ++ leBytes 4 (crc32c body).toNat

/-- Generation 0 of the directory as delivered: the identity, and four chains at their genesis values (R225, R226, R230). -/
def deliveredDir (serial : Nat) (key : List Byte) : List Byte :=
  dirOf 0 serial key [] ((List.finRange 4).map fun k => ⟨genesisOf key serial k, genesisOf key serial k, 0, 0⟩)

/-! ### Reading it -/

/-- The generation at a place of a copy, where its CRC is right (R225). -/
def dirAt (copy : List (Nat × Byte)) (place : Nat) : Option (List Byte) :=
  let b := fetchAll blankByte copy (1024 * place) 1024
  if (crc32c (b.take 1020)).toNat = fromLe (b.drop 1020) then some b else none

/-- The generation count. -/
def dirGen (b : List Byte) : Word := BitVec.ofNat 32 (fromLe (b.take 4))

/-- Count `a` is higher than count `b` (R225). -/
def genAfter (a b : Word) : Bool := decide (1 ≤ (a - b).toNat ∧ (a - b).toNat < 2 ^ 31)

/-- The valid generation with the higher count; none where neither is valid (R225). -/
def readDir (copy : List (Nat × Byte)) : Option (List Byte) :=
  match dirAt copy 0, dirAt copy 1 with
  | some x, some y => some (if genAfter (dirGen y) (dirGen x) then y else x)
  | some x, none => some x
  | none, y => y

/-- A chain's entry in a generation. -/
def dirChain (b : List Byte) (k : Fin 4) : DirChain :=
  let x := b.drop (620 + 72 * k.val)
  ⟨x.take 32, (x.drop 32).take 32, fromLe ((x.drop 64).take 4), fromLe ((x.drop 68).take 4)⟩

/-- The key table of a generation. -/
def dirKeys (b : List Byte) : List (List Byte × Nat) :=
  (List.range 16).filterMap fun i =>
    let x := (b.drop (44 + 36 * i)).take 36
    if x.all (· = blankByte) then none else some (x.take 32, fromLe (x.drop 32))

end Sys2Proof.Machine
end

