-- ==== Sys2Proof/Machine/State.lean ====
section
/-! DEFINITION. The state of the PZM-4, all of it plain data, and the machine as delivered, in COLD (log 1).
Each field's docstring ends in [width; chapter and rule; value in `State.reset`]. -/

namespace Sys2Proof.Machine

/-- The module states of Table 1.4. -/
inductive ModState where
  | cold | keep | start | run | stop | held | safe
  deriving DecidableEq, Repr

/-- The roles of R43, in rising order. -/
inductive Role where
  | view | operate | metrology | safety
  deriving DecidableEq, Repr

/-- The variants of R1. -/
inductive Variant where
  | s4 | n4
  deriving DecidableEq, Repr

/-- The start sequences of R78. -/
inductive StartKind where
  | cold | warm | quick
  deriving DecidableEq, Repr

/-- What the fast domain is awake for (R57, R62, R143, R181, R198). -/
inductive Pass where
  | asleep | burst | line | event | drain
  deriving DecidableEq, Repr

/-- Input statuses of R99. -/
inductive InStatus where
  | ok | opened | short | range | clip | lead | idle
  deriving DecidableEq, Repr

/-- Statuses of the burst estimate (R138). -/
inductive FreqStatus where
  | ok | nolock | short | range | anneal | idle
  deriving DecidableEq, Repr

/-- Pilot statuses of R141. -/
inductive PilotStatus where
  | ok | loss | unref | anneal | idle
  deriving DecidableEq, Repr

/-- Quantity sources of Table 7.1. -/
inductive Source where
  | t | s | u | k | x
  deriving DecidableEq, Repr

/-- Commit classes of Table 0.4, from least to most strict (R47). -/
inductive CommitClass where
  | i | f | b | s | z
  deriving DecidableEq, Repr

/-- Pair states of Table 18.11. -/
inductive PairState where
  | idle | opening | opened | refused | lost | silent
  deriving DecidableEq, Repr

/-- States of a gather channel (Table 10.7). -/
inductive ChanState where
  | idle | run | wait | stall | paused | halt
  deriving DecidableEq, Repr

/-- `ledger.state` (R242). -/
inductive LedgerState where
  | ok | singleA | singleB
  deriving DecidableEq, Repr

/-- States of a limiter (Table 14.3). -/
inductive LimState where
  | run | hold | fail | forced | safe | idle
  deriving DecidableEq, Repr

/-- Statuses of a current output (Table 14.3). -/
inductive CoStatus where
  | ok | opened | forced | safe | idle
  deriving DecidableEq, Repr

/-- Identity and variant of the module. -/
structure Ident where
  /-- Variant 4S or 4N. [enum; 00 R1, R3; 4s: DESIGN CHOICE log 3] -/
  variant : Variant
  /-- Serial number. [64 bits; 11 R234; 0: DESIGN CHOICE log 3] -/
  serial : Nat
  /-- Ed25519 public key. [32 bytes; 11 R234; empty: DESIGN CHOICE log 3] -/
  key : List Byte
  /-- Code of the OPERATE role. [six digits; 02 R43; 0: DESIGN CHOICE log 3] -/
  codeOperate : Nat
  /-- Code of the METROLOGY role. [six digits; 02 R43; 0: DESIGN CHOICE log 3] -/
  codeMetrology : Nat
  /-- Code of the SAFETY role. [six digits; 02 R43; 0: DESIGN CHOICE log 3] -/
  codeSafety : Nat
  /-- Seconds since 2020 at delivery, the origin of the service life. [32 bits; 16 R338; 0: DESIGN CHOICE log 3] -/
  delivered : Nat
  deriving DecidableEq, Repr

/-- Module state, supply, backup cell, reset, seal loop and keys. -/
structure Power where
  /-- Module state. [enum; 01 R21; cold: log 1] -/
  ms : ModState
  /-- SC holds the supply as present. [1 bit; 03 R67; false] -/
  supply : Bool
  /-- VSUP. [mV; 17 R348; 0: DESIGN CHOICE log 1] -/
  vsup : Nat
  /-- NRST is held asserted. [1 bit; 01 R25; false] -/
  nrst : Bool
  /-- Monotonic ms of the last NRST assertion. [ms; 01 R25; 0] -/
  nrstAt : Nat
  /-- The start running was begun by NRST from HELD. [1 bit; 01 R25; false] -/
  endHeld : Bool
  /-- KEEP was entered through a commanded STOP. [1 bit; 01 R24; false] -/
  byCommand : Bool
  /-- The last STOP completed its shutdown self-test without failure. [1 bit; 03 R78; false] -/
  stopClean : Bool
  /-- Clock ms at which the last STOP completed. [ms; 03 R78; 0] -/
  stopTime : Nat
  /-- LC recorded an opening since the last STOP completed. [1 bit; 03 R78; false] -/
  openedSince : Bool
  /-- COLD since the last START. [1 bit; 03 R78; true] -/
  coldSince : Bool
  /-- Start sequence running or run last. [enum; 03 R78; cold] -/
  startKind : StartKind
  /-- A backup cell is fitted. [1 bit; 03 R70; false] -/
  cellFitted : Bool
  /-- Backup cell voltage at its last test. [mV; 03 R69; 0: DESIGN CHOICE log 1] -/
  cellMv : Nat
  /-- Consecutive tests on the backup cell below 3.00 V. [0 ... 2; 03 R70; 0] -/
  cellUnder : Nat
  /-- Low-cell flag for the next keep record. [1 bit; 03 R70; false] -/
  cellLow : Bool
  /-- Seconds since 2020 of the KEEP entry. [32 bits; 03 R69; 0] -/
  keepAt : Nat
  /-- KC knock count, in every state but COLD. [16 bits; 03 Table 3.1; 0: DESIGN CHOICE log 4] -/
  kcTotal : BitVec 16
  /-- KC knock flag, set by a knock and cleared where START takes the counts of KEEP (log 77). [1 bit; 03 Table 3.1; false] -/
  kcFlag : Bool

  /-- KC knock count of this KEEP. [16 bits; 03 R58; 0: DESIGN CHOICE log 4] -/
  kcCount : BitVec 16
  /-- Seconds since 2020 of the first knock in KEEP. [32 bits or none; 03 R69; none] -/
  kcFirst : Option Nat
  /-- LC openings of this KEEP. [16 bits; 03 R69; 0: DESIGN CHOICE log 4] -/
  lcKeep : BitVec 16
  /-- Seconds since 2020 of the first opening in KEEP. [32 bits or none; 03 R69; none] -/
  lcFirst : Option Nat
  /-- LC opening count. [32 bits; 08 R166; 0: DESIGN CHOICE log 4] -/
  lcCount : Word
  /-- LC finds the seal loop open. [1 bit; 02 R45; false: DESIGN CHOICE log 4] -/
  sealOpen : Bool
  /-- SAFE_KEY asserted, qualified. [1 bit; 17 R358; false: DESIGN CHOICE log 4] -/
  safeKey : Bool
  /-- `host.form`. [1 bit; 17 R350; rs485: DESIGN CHOICE log 4] -/
  form : HostForm
  /-- What the fast domain is awake for. [enum; 03 R62, R57; asleep] -/
  pass : Pass
  /-- Effective cadence latched at the last block boundary: continuous, its cause, the period in ms. [record; 03 R64, R65; bursts, config, 1000] -/
  cad : Bool × String × Nat
  /-- Monotonic ms at which the burst that runs, or its second in continuous cadence, ends. [ms; 03 R62; 0] -/
  burstTo : Nat
  /-- The present block has lain wholly in RUN or SAFE so far. [1 bit; 03 R71; false] -/
  blockWhole : Bool
  /-- Rank (1 supply loss ... 5 START) and monotonic ms of the last transition. [record; 01 R26; (9, 0)] -/
  lastCause : Nat × Nat
  /-- The last STOP was left incomplete. [1 bit; 03 R80; false] -/
  stopBroken : Bool
  deriving DecidableEq, Repr

/-- The real-time clock and the module's own count of time. -/
structure Clock where
  /-- Milliseconds the always-on domain has run (model's own count, log 2). [ms; 03 R72; 0] -/
  mono : Nat
  /-- Clock time since 2020-01-01, in 0.1 ns. [Nat; 03 R72; 0: log 1] -/
  t : Nat
  /-- The time is valid. [1 bit; 03 R73; false: unset after COLD] -/
  valid : Bool
  /-- Slew still to be worked off, in 0.1 ns. [signed; 03 R74; 0] -/
  slew : Int
  /-- A forward step still due: its second, whole seconds of the step and remainder in 0.1 ns. [record or none; 03 R75; none] -/
  due : Option (Nat × Nat × Int)
  /-- Line and role codes of the command that asked for that step. [2 + 2 bits; 11 R237; 0] -/
  dueBy : Nat × Nat
  /-- Milliseconds the fast domain has been awake (model's own count, log 2). [ms; 09 R195; 0] -/
  awake : Nat
  /-- Time stored in ferroelectric memory, in ms since 2020. [ms; 03 R73; 0: log 1] -/
  stored : Nat
  /-- Monotonic ms at which the unset time began. [ms; 03 R77; 0] -/
  unsetAt : Nat
  /-- The clock was unset during a part of the present block. [1 bit; 03 R77; true] -/
  partUnset : Bool
  /-- Correction for the crystal last computed, ppb. [signed; 03 R72; 0: DESIGN CHOICE log 12] -/
  correction : Int
  /-- Correction gathered and not yet applied as whole crystal cycles, 1/320 ns. [signed; 03 R72; 0: DESIGN CHOICE log 12] -/
  residue : Int
  /-- `clock.temp`, 0.1 °C. [signed or unformed; 03 Table 3.6; none] -/
  temp : Option Int
  /-- Transitions out of COLD whose audit entry waits for a valid clock: new state code, cause code. [list; 01 R23; empty] -/
  fromCold : List (Nat × Nat)
  deriving DecidableEq, Repr

/-- A watch of a line (R54). -/
structure Watch where
  param : Nat
  /-- Period in ms, or none for `change`. -/
  period : Option Nat
  /-- Value last sent. -/
  last : String
  /-- Monotonic ms of the last note. -/
  sentAt : Nat
  /-- Monotonic ms of its notes within the last second, at most 10 of a `change` watch. -/
  recent : List Nat
  deriving DecidableEq, Repr

/-- What a line transmits: an echoed character, or a line with its CR LF. -/
inductive Shown where
  | ch (c : Char) | line (text : String)
  deriving DecidableEq, Repr

/-- A received line waiting or in execution (R52), with its answer where it has already failed a check of R37. -/
structure RxLine where
  tag : Option Nat
  text : String
  answer : Option String
  deriving DecidableEq, Repr

/-- One command line (R27). -/
structure LineSt where
  /-- Role held. [enum; 02 R43; view] -/
  role : Role
  /-- Characters held of the line being received. [at most 240; 02 R28; empty] -/
  buf : List Char
  /-- The held line passed 240 characters. [1 bit; 02 R28; false] -/
  tooMuch : Bool
  /-- BS or DEL occurred in the held line. [1 bit; 02 R33; false] -/
  edited : Bool
  /-- The last character was CR. [1 bit; 02 R28; false] -/
  lastCr : Bool
  /-- Everything up to the next line end is discarded after a collision. [1 bit; 17 R352; false] -/
  discard : Bool
  /-- Monotonic ms of the last received character. [ms; 17 R352; 0] -/
  charAt : Nat
  /-- Monotonic ms of the last received line. [ms; 02 R43; 0] -/
  lineAt : Nat
  /-- Lines in execution and waiting, oldest first. [1 + 4; 02 R52; empty] -/
  queue : List RxLine
  /-- Watches. [at most 16; 02 R54; empty] -/
  watches : List Watch
  /-- Monotonic ms of wrong codes within the last 15 min. [list; 02 R44; empty] -/
  wrong : List Nat
  /-- ROLE is locked until this monotonic ms. [ms or none; 02 R44; none] -/
  lockUntil : Option Nat
  /-- The role warning was sent. [1 bit; 02 R55; false] -/
  warned : Bool
  /-- Check-failure counter. [32 bits; 02 R35; 0] -/
  cntCheck : Word
  /-- Busy counter. [32 bits; 02 R52; 0] -/
  cntBusy : Word
  /-- Lost-note counter. [32 bits; 02 R55; 0] -/
  cntLost : Word
  /-- Watch notes awaiting sending. [at most 32; 02 R55; empty] -/
  watchNotes : List String
  /-- Other notes awaiting sending. [at most 8; 02 R55; empty] -/
  otherNotes : List String
  /-- Notes of one command that follow as the room of 8 frees (log 37). [list; 02 R55; empty] -/
  series : List String
  /-- Notes dropped and not yet reported. [Nat; 02 R55; 0] -/
  dropped : Nat
  /-- Lines sent, oldest first, without CR LF. [list; 02 R36; empty] -/
  sent : List String
  /-- Characters echoed. [list; 02 R31; empty] -/
  echoed : List Char
  /-- Everything transmitted in order: the lines sent and the characters echoed. [list; 02 R31; empty] -/
  shown : List Shown
  deriving DecidableEq, Repr

/-- A member of a set of changes (R46, R47), with the audit line code and the role that gave it (R51). -/
structure Member where
  param : Nat
  value : Int
  line : Nat
  role : Role
  deriving DecidableEq, Repr

/-- A committed set waiting for its boundary (R47). -/
structure DueSet where
  cls : CommitClass
  /-- Monotonic ms of its boundary. -/
  at_ : Nat
  members : List Member
  /-- `note commit` goes to this line when the set is applied; none for a SET. -/
  note : Option Line
  deriving DecidableEq, Repr

/-- A set waiting for DO SAFETY.CONFIRM (R50, R317). -/
structure WaitSet where
  set : DueSet
  line : Line
  role : Role
  code : Nat
  wrong : Nat
  deadline : Nat
  deriving DecidableEq, Repr

/-- Parameters, attic and sets. -/
structure Commits where
  /-- Stored values that differ from their defaults, by number. [codes; 18 R368; empty: the defaults] -/
  params : List (Nat × Int)
  /-- Attic members, in staging order. [at most 64; 02 R46; empty] -/
  attic : List Member
  /-- Owner of the attic. [line or none; 02 R46; none] -/
  owner : Option Line
  /-- Pending class Z set. [list; 02 R49; empty] -/
  pendingZ : List Member
  /-- Committed sets due at a boundary, oldest first. [list; 02 R47; empty] -/
  due : List DueSet
  /-- Sets applied at class S whose restart is not complete: members left to note. [list; 02 R47; empty] -/
  restarting : List (Option Line × Nat)
  /-- Safety set awaiting confirmation. [record or none; 15 R317; none] -/
  wait : Option WaitSet
  /-- Confirmation codes drawn (model's own counter of free values). [Nat; 15 R317; 0: DESIGN CHOICE log 7] -/
  drawn : Nat
  deriving DecidableEq, Repr

/-- A piecewise-linear table with its draft (R97). -/
structure Table where
  live : List (Int × Int)
  draft : List (Int × Int)
  deriving DecidableEq, Repr

/-- A slow input of a run: its chain, status and values (R82 ... R98, R123). -/
structure SlowIn where
  /-- Status. [enum; 04 R99; idle] -/
  status : InStatus
  /-- Consecutive conversions without a fault. [0 ... 8; 04 R98; 0] -/
  good : Nat
  /-- Consecutive conversions that show the open lead. [Nat; 04 Table 4.3; 0] -/
  openRun : Nat
  /-- Consecutive results that show the short. [Nat; 04 Table 4.3; 0] -/
  shortRun : Nat
  /-- Last conversions of this span with their polarity, newest first. [at most 8; 04 Table 4.3; empty] -/
  convs : List (Int × Bool)
  /-- The latest conversions at positive and at negative polarity were clipped. [2 bits; 06 R132; false] -/
  clipAt : Bool × Bool
  /-- Whether the last results hold a clipped conversion, newest first. [at most 24; 06 R132; empty] -/
  clips : List Bool
  /-- Latest conversion at positive polarity in this span. [signed or none; 04 R89; none] -/
  lastPos : Option Int
  /-- Latest conversion at negative polarity in this span. [signed or none; 04 R89; none] -/
  lastNeg : Option Int
  /-- Last results ahead of the median, newest first. [at most 9; 06 R125; empty] -/
  hist : List Int
  /-- Last medians, newest first. [at most 16; 06 R129; empty] -/
  means : List Int
  /-- Results still to be marked anneal. [Nat; 06 R130; 0] -/
  anneal : Nat
  /-- Mean of the chain ahead of the lead term, and the last one with status ok, in units of `meas`. [signed or none; 06 R123, R132; none] -/
  chain : Option Int × Option Int
  /-- Compensated measurement, 0.001 Ω or 0.0001 mV/V. [signed or unformed; 04 Table 4.4; none] -/
  meas : Option Int
  /-- Linearised value, 0.001 °C or 0.01 kPa. [signed or unformed; 04 Table 4.4; none] -/
  value : Option Int
  /-- Last value with status ok. [signed or none; 04 R98; none] -/
  okValue : Option Int
  /-- Safety-tap result. [signed or unformed; 15 R308; none] -/
  tap : Option Int
  deriving DecidableEq, Repr

/-- Front end of a run. -/
structure FrontEnd where
  /-- Lift input status. [enum; 04 R99; idle] -/
  lift : InStatus
  /-- Vibration input status. [enum; 04 R99; idle] -/
  vib : InStatus
  /-- Consecutive samples of lift and of vibration that were not clipped. [0 ... 8; 04 R98; 0] -/
  fastGood : Nat × Nat
  /-- Last samples of lift and of vibration with status ok. [signed or none; 04 R98; none] -/
  fastOk : Option Int × Option Int
  /-- Thermometer. [record; 04 R82] -/
  temp : SlowIn
  /-- Pressure bridge. [record; 04 R82] -/
  press : SlowIn
  /-- Lead-phase results since START or restart, newest first, 0.001 Ω. [at most 8; 04 R91; empty] -/
  leads : List Nat
  /-- Lead value in use, the last at or below 50.000 Ω. [0.001 Ω or none; 04 R91; none] -/
  lead : Option Nat
  /-- A lead phase is due. [1 bit; 04 R91; false] -/
  leadDue : Bool
  /-- First conversion of the lead phase that runs. [conversion or none; 04 R91; none] -/
  leadFirst : Option (Int × Bool)
  /-- The front end of the run is restarting. [1 bit; 04 R86; false] -/
  restarting : Bool
  /-- Awake ms at which that restart began. [ms; 04 R86; 0] -/
  restartAt : Nat
  /-- A lead calibration runs, with the line that asked. [line or none; 04 R92; none] -/
  leadcal : Option Member
  /-- Sum in 0.001 Ω and count of its conversions. [at most 64; 04 R92; 0] -/
  leadcalSum : Int × Nat
  deriving DecidableEq, Repr

/-- Running averages of `do pilot.ref` (R140). -/
structure PilotAvg where
  n : Nat
  liftGain : Nat
  liftPhase : Int
  vibGain : Nat
  vibPhase : Int
  line : Nat
  role : Role
  /-- Cause word of an interruption. -/
  fail : Option String
  deriving DecidableEq, Repr

/-- Pilot detector of a run (R139 ... R141). -/
structure Pilot where
  /-- `eng.pilot.status`. [enum; 06 R141; idle] -/
  status : PilotStatus
  /-- Lift response as reported: gain 0.01 %, phase 0.1°. [record or unformed; 06 R140; none] -/
  lift : Option PilotValue
  /-- Vibration response as reported. [record or unformed; 06 R140; none] -/
  vib : Option PilotValue
  /-- Stored lift reference. [record or none; 06 R140; none] -/
  refLift : Option PilotValue
  /-- Stored vibration reference. [record or none; 06 R140; none] -/
  refVib : Option PilotValue
  /-- Consecutive judged lift results out of band. [Nat; 06 R141; 0] -/
  badLift : Nat
  /-- Consecutive judged vibration results out of band. [Nat; 06 R141; 0] -/
  badVib : Nat
  /-- Consecutive judged windows with both elements in band. [Nat; 06 R141; 0] -/
  good : Nat
  /-- The window that runs holds a disturbance. [1 bit; 06 R141; true] -/
  disturbed : Bool
  /-- Sums of the window that runs, lift and vibration, with the cosine and the sine. [4 × signed; 06 R139; 0] -/
  sums : (Int × Int) × (Int × Int)
  /-- Samples in that window. [0 ... 191; 06 R139; 0] -/
  n : Nat
  /-- Windows that have ended and wait for PILOT_RESULT: lift, vibration, and a disturbance in the window (model's own queue, log 83). [list; 06 R139; empty] -/
  results : List (PilotValue × PilotValue × Bool)
  /-- Averaging of a reference. [record or none; 06 R140; none] -/
  avg : Option PilotAvg
  /-- Sums and counts of the day's non-annealed gains, lift then vibration. [Nat; 16 Table 16.4; 0] -/
  day : (Nat × Nat) × (Nat × Nat)
  deriving DecidableEq, Repr

/-- The memories of a filter path's stages (R125 ... R128, R132). -/
structure PathSt where
  /-- Last inputs of the median, newest first. [at most 9; 06 R125; empty] -/
  hist : List Int
  /-- Whether the last inputs were clipped, newest first. [at most 288; 06 R132; empty] -/
  clips : List Bool
  /-- Last inputs of the decimation filter or of the pre-averager, newest first. [at most 257; 06 R127, R128; empty] -/
  taps : List Int
  /-- Last outputs of the pre-averager, newest first. [at most 24; 06 R128; empty] -/
  means : List Int
  /-- Inputs before the next output of a preset. [0 ... 7; 06 R127; 0] -/
  next : Nat
  /-- Phase word of the resampler. [32 bits; 06 R128; 0: DESIGN CHOICE log 11] -/
  ratio : Word
  deriving DecidableEq, Repr

/-- A window of the frequency tracker: the phase and count accumulators at its ends (R137). -/
structure Span where
  phase0 : Acc
  phase1 : Acc
  count0 : Acc
  count1 : Acc
  deriving DecidableEq, Repr

/-- The frequency tracker of a run (R135 ... R138). -/
structure Tracker where
  /-- Low-passed products with the cosine and the sine. [2 × signed; 06 R135; 0] -/
  arms : Int × Int
  /-- Integral part of the frequency word, 0.001 Hz. [signed; 06 R135; 0: DESIGN CHOICE log 4] -/
  integ : Int
  /-- Sum of the magnitudes of the phase error, 2⁻²⁴ cycle, and outputs of the cycle that runs. [record; 06 R136; 0] -/
  cyc : Nat × Nat
  /-- The same of the cycles before it, newest first. [at most 7; 06 R136; empty] -/
  cycs : List (Nat × Nat)
  /-- The tracker is locked. [1 bit; 06 R136; false] -/
  locked : Bool
  /-- An output of this burst, or of this second in continuous cadence, was free of anneal. [1 bit; 06 R138; false] -/
  clean : Bool
  /-- Latest span of this burst or second. [record or none; 06 R137; none] -/
  span : Option Span
  /-- That span goes on. [1 bit; 06 R137; false] -/
  going : Bool
  /-- Largest magnitude of the lift path output in that span. [24 bits; 06 R137; 0] -/
  peak : Nat
  deriving DecidableEq, Repr

/-- Filter engine of a run (R129 ... R138). -/
structure EngineRun where
  /-- Phase accumulator of the tracker. [48 bits; 06 R134; 0: DESIGN CHOICE log 4] -/
  phase : Acc
  /-- Count accumulator at the last window end. [48 bits; 06 R134; 0: DESIGN CHOICE log 4] -/
  count : Acc
  /-- `eng.freq`, 0.001 Hz. [Nat or unformed; 06 R137; none] -/
  freq : Option Nat
  /-- `eng.freq.status`. [enum; 06 R138; idle] -/
  status : FreqStatus
  /-- `eng.freq.cycles`, 0.001. [Nat or unformed; 06 R137; none] -/
  cycles : Option Nat
  /-- `eng.lift.amp`, 0.001 pC. [Nat or unformed; 06 R137; none] -/
  amp : Option Nat
  /-- Frequency word of the tracker, 0.001 Hz. [Nat; 06 R135, R136; 0: DESIGN CHOICE log 4] -/
  tracked : Nat
  /-- Last estimate with status ok and its monotonic ms. [record or none; 06 R136; none] -/
  okFreq : Option (Nat × Nat)
  /-- Lift outputs still to be marked anneal. [Nat; 06 R131; 0] -/
  liftAnneal : Nat
  /-- Vibration outputs still to be marked anneal. [Nat; 06 R131; 0] -/
  vibAnneal : Nat
  /-- DC-blocker estimates of lift and vibration, 24 fraction bits, none if never run since START. [48 bits; 06 R126; none] -/
  blocker : Option Int × Option Int
  /-- Lift path. [record; 06 R125] -/
  lift : PathSt
  /-- Vibration path. [record; 06 R125] -/
  vib : PathSt
  /-- Tracker. [record; 06 R135] -/
  track : Tracker
  /-- Pilot detector. [record; 06 R139] -/
  pilot : Pilot
  deriving DecidableEq, Repr

/-- Density 0.0001 kg/m³, enthalpy 10⁻⁶ MJ/kg, corrected K-factor 0.001 m⁻³ (R155). -/
structure Pricing where
  rho : Int
  h : Int
  kc : Int
  deriving DecidableEq, Repr

/-- A priced block (R145). -/
structure BlockRec where
  start : Nat
  src : Source
  v : Int
  m : Int
  e : Int
  n : Nat
  flags : BitVec 8
  deriving DecidableEq, Repr

/-- What one run gathers during a block (R146 ... R151). -/
structure RunBlock where
  /-- Tally counts of the block. -/
  n : Nat
  /-- `eng.freq` values with status ok of the windows that ended in the block, 0.001 Hz. -/
  freqs : List Nat
  pSum : Int
  pN : Nat
  tSum : Int
  tN : Nat
  /-- A `range` result entered a mean. -/
  held : Bool
  /-- Order 3 of Table 7.1 holds. -/
  disturbed : Bool
  /-- The pilot status was `loss` at some time. -/
  loss : Bool
  /-- An estimate that ended in the block was clamped at 8000 Hz (R149). -/
  topped : Bool
  deriving DecidableEq, Repr

/-- A latched block waiting for pricing (R143). -/
structure ClosedBlock where
  start : Nat
  /-- RUN or SAFE for the whole block (R71). -/
  whole : Bool
  /-- The clock was unset during a part of the block. -/
  unset : Bool
  runs : Vector RunBlock 4
  deriving DecidableEq, Repr

/-- Sums of an interval or of a span (R160). -/
structure Sums where
  v : Int
  m : Int
  e : Int
  tally : Nat
  cT : Nat
  cS : Nat
  cU : Nat
  cK : Nat
  cX : Nat
  flags : BitVec 8
  deriving DecidableEq, Repr

/-- Quantity stage of a run. -/
structure QtyRun where
  /-- Block being gathered. [record; 07 R146] -/
  cur : RunBlock
  /-- Most recent priced block. [record or unformed; 07 R163; none] -/
  last : Option BlockRec
  /-- Density and enthalpy of the last T or S block since START. [record or unformed; 07 R163; none] -/
  rhoH : Option (Int × Int)
  /-- v, m, e of the last T or S block since START. [record or none; 07 R156; none] -/
  good : Option (Int × Int × Int)
  /-- Estimate of the last block that had its own, 0.001 Hz, and that block's start. [record or none; 07 R147; none] -/
  carry : Option (Nat × Nat)
  /-- Running U blocks: start, length, tally. [record or none; 07 R156; none] -/
  uRun : Option (Nat × Nat × Nat)
  /-- Pricing set. [record or none; 07 R155; none] -/
  pricing : Option Pricing
  /-- Pricing set in ferroelectric memory. [record or none; 07 R155; none] -/
  kept : Option Pricing
  /-- Running totals of volume, mass and energy in ferroelectric memory. [3 × 64 bits signed; 07 R162; 0] -/
  keptTotals : Int × Int × Int
  /-- Open interval. [record; 07 R160; zero] -/
  sums : Sums
  /-- The interval that the backlog fills. [record; 03 R71; zero] -/
  back : Sums
  /-- Mass and energy of the unset time. [signed; 03 R77; 0] -/
  unset : Int × Int
  /-- Running total of volume, 10⁻⁶ m³. [64 bits signed; 07 R162; 0] -/
  totalV : Int
  /-- Running total of mass, 10⁻⁶ kg. [64 bits signed; 07 R162; 0] -/
  totalM : Int
  /-- Running total of energy, 10⁻⁶ MJ. [64 bits signed; 07 R162; 0] -/
  totalE : Int
  deriving DecidableEq, Repr

/-- Recognisers of a run (R169 ... R172). -/
structure RecogRun where
  /-- Monotonic µs at which the last raised hammer began. [µs or none; 08 R169; none] -/
  hammer : Option Nat
  /-- Last intervals of CADENCE in µs, newest first. [at most 8; 08 R170; empty] -/
  ivls : List Nat
  /-- `cadence.state`. [1 bit; 08 R170; off] -/
  cadOn : Bool
  /-- `cadence.period` in µs and `cadence.regularity` in 0.1 %. [record or unformed; 08 R170; none] -/
  cadence : Option (Nat × Nat)
  /-- RELEASE reference, 10⁻⁶ pC. [Nat; 08 R172; 0] -/
  relRef : Nat
  /-- The window before was at or above 50 % of the reference. [1 bit; 08 R172; false] -/
  relHigh : Bool
  /-- Hammer that runs: engine clocks of its beginning and of its last output, and its largest magnitude. [record or none; 08 R169; none] -/
  hamFrom : Option (Nat × Nat × Nat)
  /-- Hammers that have ended and wait for HAMMER: beginning in µs, peak in 0.1 % of range, duration in µs (model's own queue, log 83). [list; 08 R169; empty] -/
  hammers : List (Nat × Nat × Nat)
  /-- Magnitudes of the vibration outputs of the last 2 ms, newest first. [at most 48; 08 R170; empty] -/
  env : List Nat
  /-- Pressure samples of the last second, newest first. [at most 1000; 08 R170; empty] -/
  presses : List Int
  /-- A pulse goes on. [1 bit; 08 R170; false] -/
  pulse : Bool
  /-- Engine clock of the beginning of the last pulse. [clocks or none; 08 R170; none] -/
  pulseAt : Option Nat
  /-- A sleep gap, an anneal or a status other than ok fell behind the beginning of that pulse. [1 bit; 08 R170; false] -/
  pulseCut : Bool
  /-- Engine clocks of awake time since that beginning. [Nat; 08 R170; 0] -/
  pulseAge : Nat
  /-- What the instance has found and CADENCE has yet to take (model's own queue, log 83). [list; 08 R170; empty] -/
  beats : List CadenceInput
  /-- Sum of squares and count of the vibration outputs of this second of awake time, and its frames. [record; 08 R172; 0] -/
  rms : Nat × Nat × Nat
  /-- That second holds an anneal or a status other than ok. [1 bit; 08 R172; false] -/
  rmsCut : Bool
  /-- Seconds that have ended and wait for RELEASE: RMS in 10⁻⁶ pC, and whether it is judged (model's own queue, log 83). [list; 08 R172; empty] -/
  windows : List (Nat × Bool)
  deriving DecidableEq, Repr

/-- Everything of one run. -/
structure RunSt where
  /-- Tally counter. [32 bits; 03 R59; 0 (Table 3.2)] -/
  tally : Word
  /-- Latched tally counter, `tally.count`. [32 bits; 03 R61; 0 (Table 3.2)] -/
  latched : Word
  /-- Counts of the last latched block since START. [Nat or none; 06 R136; none] -/
  rate : Option Nat
  /-- Threshold in force, mV. [8 bits; 03 R60; 20 (Table 3.2)] -/
  threshold : Nat
  /-- Monotonic µs of the last counted crossing. [µs or none; 03 R59; none] -/
  crossed : Option Nat
  /-- The level has fallen below the threshold by the hysteresis since the last rising crossing. [1 bit; 03 R59; true] -/
  tallyArmed : Bool
  /-- Front end. [record; chapter 04] -/
  fe : FrontEnd
  /-- Temperature table. [record; 04 R97; empty] -/
  tabTemp : Table
  /-- Pressure table. [record; 04 R97; empty] -/
  tabPress : Table
  /-- K correction table. [record; 07 R150; empty] -/
  tabK : Table
  /-- Density table. [record; 07 R154; empty] -/
  tabDens : Table
  /-- Enthalpy table. [record; 07 R154; empty] -/
  tabEnth : Table
  /-- Z table. [record; 07 R154; empty] -/
  tabZ : Table
  /-- Filter engine. [record; chapter 06] -/
  eng : EngineRun
  /-- Quantity stage. [record; chapter 07] -/
  qty : QtyRun
  /-- Recognisers. [record; chapter 08] -/
  recog : RecogRun
  deriving DecidableEq, Repr

/-- The signal matrix, tones and annunciator (chapter 05). -/
structure Matrix where
  /-- Active bank: nonzero Q2.14 codes by source × 32 + sink. [360 × 16 bits; 05 R106; empty until START loads it] -/
  active : List (Nat × Int)
  /-- Shadow bank. [360 × 16 bits; 05 R106; empty] -/
  shadow : List (Nat × Int)
  /-- Saturation counters by sink. [18 × 32 bits; 05 R105; 0] -/
  sat : Vector Word 18
  /-- Phase accumulators of T1 ... T4. [4 × 32 bits; 05 R108; 0: DESIGN CHOICE log 4] -/
  phase : Vector Word 4
  /-- Sinks of the last frame (INJ1 ... INJ8 at 8 ... 15, MON 16, BZR 17). [18 × 24 bits; 05 R102; 0] -/
  sinks : Vector Int 18
  /-- The shadow bank holds a change for the next frame boundary. [1 bit; 05 R106; false] -/
  swap : Bool
  /-- The new active bank is being copied into the shadow bank. [1 bit; 05 R106; false] -/
  copying : Bool
  /-- Gains that became due during that copy. [bank or none; 05 R106; none] -/
  late : Option (List (Nat × Int))
  /-- Axis samples held. [6 × 24 bits; 05 R103; 0] -/
  axes : Vector Int 6
  /-- Frames for which they have been held. [0 ... 14; 05 R103; 0] -/
  axisAge : Nat
  /-- Converter codes of TST1 ... TST4, full scale 2.500 V. [4 × 16 bits; 05 R110; 0] -/
  tst : Vector Int 4
  /-- Converter code of MON, full scale 1.000 V. [16 bits; 05 R114; 0] -/
  mon : Int
  /-- Vibration fits running: awake seconds asked and awake ms at the beginning. [4 × record or none; 05 R113; none] -/
  fits : Vector (Option (Nat × Nat)) 4
  /-- Pattern playing: code, requested from a line, monotonic ms of its start. [record or none; 05 R116; none] -/
  beep : Option (Nat × Bool × Nat)
  deriving DecidableEq, Repr

/-- A stream packet that the filter engine assembles: output words, and the sampling instant of the first in engine clocks
since 2020 (R189). -/
structure StreamBuf where
  words : List Word
  clock : Nat
  deriving DecidableEq, Repr

/-- The parts of the filter engine that no run owns (R121, R124, R134, R189). -/
structure Engine where
  /-- Count accumulator. [48 bits; 06 R134; 0: DESIGN CHOICE log 4] -/
  count : Acc
  /-- Axis paths. [6 × record; 06 R124] -/
  axes : Vector PathSt 6
  /-- DC-blocker estimates of the axes, none if never run since START. [6 × 48 bits; 06 R124, R126; none] -/
  axisBlocker : Vector (Option Int) 6
  /-- Axis samples ahead of the decimation, with the saturation of their blocker. [6 × 24 bits; 06 R124; 0] -/
  axisIn : Vector (Int × Bool) 6
  /-- Sets of axis outputs still to be marked anneal. [Nat; 06 R131; 0] -/
  axisAnneal : Nat
  /-- Packets under assembly by bit of `queue.stream.sel`. [17 × record; 09 R189; empty] -/
  bufs : Vector StreamBuf 17
  /-- Second of the last lead phases of continuous cadence. [32 bits; 04 R91; 0] -/
  leadSec : Nat
  deriving DecidableEq, Repr

/-- An event of Table 8.1. -/
structure Event where
  code : Nat
  run : Nat
  v1 : Int
  v2 : Int
  origin : Nat
  inst : Nat
  deriving DecidableEq, Repr

/-- A state machine (R176). Words 0 ... 127 of a program are the transitions by state × 4 + slot, 128 ... 191 the
action words. -/
structure StMachine where
  /-- Live program, nonzero words. [192 × 32 bits; 08 R182; the shipped program] -/
  live : List (Nat × Word)
  /-- Draft program, nonzero words. [192 × 32 bits; 08 R182; the shipped program: DESIGN CHOICE log 4] -/
  draft : List (Nat × Word)
  /-- State. [0 ... 31; 08 R176; 0] -/
  st : Nat
  /-- Counter. [8 bits, saturating; 08 R176; 0] -/
  cnt : Nat
  /-- Timers: monotonic ms of expiry. [2 × ms or none; 08 R176; none] -/
  timers : Vector (Option Nat) 2
  /-- Timer expiries not yet consumed. [2 bits; 08 Table 8.3; false] -/
  expired : Vector Bool 2
  /-- Demand line, with the state it was set in. [record or none; 08 R179; none] -/
  demand : Option Nat
  /-- Monotonic ms of the last transition with a demand action. [ms or none; 15 R316; none] -/
  demandAt : Option Nat
  /-- Reset at the next tick. [1 bit; 08 R182; false] -/
  resetNext : Bool
  /-- Adoption of the draft at the next tick. [1 bit; 08 R182; false] -/
  adoptNext : Bool
  deriving DecidableEq, Repr

/-- A LEVEL instance (R175). -/
structure LevelSt where
  on : Bool
  /-- Ticks for which the opposite comparison has held. -/
  dwell : Nat
  deriving DecidableEq, Repr

/-- The event engine (chapter 08). -/
structure Events where
  /-- Events raised since the last tick, oldest first. [list; 08 R164; empty] -/
  raised : List Event
  /-- Events 42h and 43h that wait for the first tick of RUN or SAFE. [list; 08 R167; empty] -/
  fromKeep : List Event
  /-- Machine posts of the last tick. [list; 08 R164; empty] -/
  posts : List Event
  /-- Machines M0 ... M7. [8 × record; 08 R176] -/
  machines : Vector StMachine 8
  /-- LEVEL instances. [8 × record; 08 R175; off] -/
  levels : Vector LevelSt 8
  /-- Second of the rate counts. [32 bits; 08 R183; 0] -/
  rateSec : Nat
  /-- Events of that second by code. [list; 08 R183; empty] -/
  rates : List (Nat × Nat)
  /-- `event.lost`. [32 bits; 08 R183; 0] -/
  lost : Word
  /-- Knock that may begin a double: monotonic ms and peak. [record or none; 08 R168; none] -/
  knock : Option (Nat × Nat)
  /-- Monotonic ms of the last knock. [ms or none; 08 R168; none] -/
  knockAt : Option Nat
  /-- Free fall may be raised again. [1 bit; 08 R171; true] -/
  fallArmed : Bool
  /-- Monotonic ms of the last free fall. [ms; 08 R171; 0] -/
  fallAt : Nat
  /-- Fall that runs: engine clocks below the level, and the lowest squared magnitude. [record or none; 08 R171; none] -/
  fallRun : Option (Nat × Nat)
  /-- Engine clocks for which the magnitude has stayed above 0.8 g. [Nat; 08 R171; 0] -/
  riseRun : Nat
  /-- Falls found that wait for RELEASE_FALL: ms below the level and lowest magnitude in 0.001 g (model's own queue, log 83). [list; 08 R171; empty] -/
  falls : List (Nat × Nat)
  /-- Rotation vector, rate code × engine clocks. [3 × signed; 08 R173; 0] -/
  rotVec : Vector Int 3
  /-- Gyro bias, rate codes. [3 × signed; 08 R173; 0: DESIGN CHOICE log 4] -/
  gyroBias : Vector Int 3
  /-- Bias window: its second, sums of the rates, outputs, and whether the module rests. [record; 08 R173; 0, true] -/
  gyro : Nat × Vector Int 3 × Nat × Bool
  /-- Rotations found that wait for TURN_ROT, 0.1° (model's own queue, log 83). [list; 08 R173; empty] -/
  turns : List Nat
  /-- Sum of the acceleration vector since the anneal of this wake, and its outputs. [3 × signed and Nat; 08 R174; 0] -/
  tiltSum : Vector Int 3 × Nat
  /-- Acceleration vector of the last wake, 2⁻²⁰ g. [3 × signed or none; 08 R174; none] -/
  tiltVec : Option (Vector Int 3)
  /-- That vector waits for TURN_TILT. [1 bit; 08 R174; false] -/
  tiltDue : Bool
  /-- Tilt may be raised again. [1 bit; 08 R174; true] -/
  tiltArmed : Bool
  /-- Stored tilt reference vector. [3 × signed or none; 08 R174; none] -/
  tiltRef : Option (Vector Int 3)
  /-- `do turn.ref` came before any wake had a vector: the next one becomes the reference (log 95). [1 bit; 08 R174; false] -/
  tiltWait : Bool
  /-- Monotonic ms of the last tick. [ms or none; 08 R164; none] -/
  tickAt : Option Nat
  /-- Event pass: monotonic ms of its wake and ticks it has run. [record; 08 R181; 0] -/
  passRun : Nat × Nat
  /-- `turn.rot`, 0.1°. [Nat or unformed; 08 R173; none] -/
  rot : Option Nat
  /-- `turn.tilt`, 0.1°. [Nat or unformed; 08 R174; none] -/
  tilt : Option Nat
  deriving DecidableEq, Repr

/-- A reservation of the journal queue (R193, R195). -/
structure Region where
  origin : Nat
  cls : Nat
  len : Nat
  /-- Words written so far, header first. -/
  words : List Word
  committed : Bool
  void : Bool
  at_ : Nat
  deriving DecidableEq, Repr

/-- A producer that waits for room (R194). -/
structure Waiter where
  origin : Nat
  cls : Nat
  /-- The whole packet for the event engine, the ledger writer and the filter engine; the header alone for a channel. -/
  words : List Word
  len : Nat
  since : Nat
  deriving DecidableEq, Repr

/-- The open packet of the read port (R196). -/
structure ReadPort where
  holder : Channel
  left : List Word
  cls : Nat
  deriving DecidableEq, Repr

/-- The journal queue (chapter 09). -/
structure Queue where
  /-- Chute mode: none for spill, else cause selftest. [enum or none; 09 R192; none] -/
  chuteSelftest : Bool
  /-- Regions in reservation order. [list; 09 R193; empty] -/
  regions : List Region
  /-- Words of the queue that lie in the head landing. [0 ... 64; 09 R190; 0] -/
  inHead : Nat
  /-- Words of the queue that lie in the cellar region, or in the stages of the chute; what follows them lies in the tail landing. [Nat; 09 R190, R192; 0] -/
  inMiddle : Nat
  /-- Write position, true and complement copy. [2 × 32 bits: width DESIGN CHOICE log 96; 09 R199; 0] -/
  wrAt : Word × Word
  /-- Commit position, true and complement copy. [2 × 32 bits; 09 R199; 0] -/
  cmAt : Word × Word
  /-- Read position, true and complement copy. [2 × 32 bits; 09 R199; 0] -/
  rdAt : Word × Word
  /-- Producers that wait, in asking order. [list; 09 R194; empty] -/
  waiters : List Waiter
  /-- Read port. [record or none; 09 R196; none] -/
  port : Option ReadPort
  /-- Next sequence by origin. [16 × 8 bits; 09 R187; 0] -/
  seqs : Vector (BitVec 8) 16
  /-- Capacity of the cellar region in force, words. [Nat; 09 R201; 1048576] -/
  cellar : Nat
  /-- `queue.fill.peak`. [Nat; 09 R201; 0] -/
  peak : Nat
  /-- `queue.shed.c2`. [32 bits; 09 R194; 0] -/
  shed2 : Word
  /-- `queue.shed.c3`. [32 bits; 09 R194; 0] -/
  shed3 : Word
  /-- `queue.rewound`. [32 bits; 09 R195; 0] -/
  rewound : Word
  /-- `queue.resets`. [32 bits; 09 R199; 0] -/
  resets : Word
  /-- `queue.ecc.corrected`. [32 bits; 09 R191; 0] -/
  corrected : Word
  /-- `queue.ecc.uncorrected`. [32 bits; 09 R191; 0] -/
  uncorrected : Word
  /-- `queue.linger.count`. [32 bits; 09 R198; 0] -/
  lingers : Word
  /-- `queue.drop.words`. [32 bits; 09 R197; 0] -/
  dropWords : Word
  /-- Monotonic ms at which the linger timer last restarted. [ms; 09 R198; 0] -/
  lingerFrom : Nat
  /-- Monotonic ms at which the last drain pass began. [ms; 09 R198; 0] -/
  drainAt : Nat
  /-- Linger flag. [1 bit; 09 R198; false] -/
  lingerFlag : Bool
  /-- Shedding spell: start in ms since 2020 and in monotonic ms, last shed ms, class 2 and class 3 counts. [record or none; 09 R194; none] -/
  spell : Option (Nat × Nat × Nat × Nat × Nat)
  /-- Monotonic ms of the last `note queue shed`. [ms or none; 09 R194; none] -/
  shedNote : Option Nat
  /-- Free values taken for stream outputs (model's own counter). [Nat; 06 R133; 0: DESIGN CHOICE log 11] -/
  outputs : Nat
  deriving DecidableEq, Repr

/-- A latched bus error (R218): address, write, kind code. -/
structure BusFault where
  address : Word
  write : Bool
  kind : Nat
  deriving DecidableEq, Repr

/-- A gather channel (R202). -/
structure Chan where
  /-- State. [enum; 10 Table 10.7; idle] -/
  st : ChanState
  /-- Program counter. [Nat; 10 R202; 0] -/
  pc : Nat
  /-- Working source. [32 bits; 10 R202; 0] -/
  src : Word
  /-- Working destination. [32 bits; 10 R202; 0] -/
  dst : Word
  /-- Loop counters, none while idle. [4 × 12 bits; 10 R207; none] -/
  loops : Vector (Option Nat) 4
  /-- Flag bank. [32 bits; 10 R202; 0] -/
  flags : Word
  /-- Running CRC-32C before the final XOR. [32 bits; 10 R211; FFFFFFFFh] -/
  crc : Word
  /-- `gather.gN.crc`, the CRC of the last END. [32 bits or unformed; 10 R211; none] -/
  crcOut : Option Word
  /-- Fault latch. [record or none; 10 R218; none] -/
  fault : Option BusFault
  /-- Words already moved by the MOVE in progress. [Nat; 10 R206; 0] -/
  moved : Nat
  /-- Words moved in the burst that runs; 0 at a burst boundary. [0 ... 15; 10 R212; 0] -/
  burst : Nat
  /-- Expiry of the WAIT in µs of the monotonic clock. [µs or none; 10 R208; none] -/
  waitUntil : Option Nat
  /-- A reservation of this channel is open. [1 bit; 10 R210; false] -/
  reserved : Bool
  /-- Writes to the write port still to discard after a shed MARK. [Nat; 10 R210; 0] -/
  discard : Nat
  /-- The MOVE in progress wrote words that were discarded. [1 bit; 10 R210; false] -/
  shedMove : Bool
  /-- A WAIT of condition 4 has found its MARK granted or shed. [1 bit; 10 Table 10.2; false] -/
  markReady : Bool
  /-- A stop is requested. [1 bit; 10 R214; false] -/
  stopReq : Bool
  /-- Completion record waiting for a ring slot, and since when. [record or none; 10 R217; none] -/
  ringWait : Option (List Word × Nat)
  deriving DecidableEq, Repr

/-- The gather engine (chapter 10). -/
structure Gather where
  /-- Channels G0 ... G7. [8 × record; 10 R202] -/
  chans : Vector Chan 8
  /-- Channel last served at each priority. [4 × 0 ... 7; 10 R212; 7: DESIGN CHOICE log 97] -/
  served : Vector Channel 4
  /-- Program memory: the words written since START by address; the others read as START loads them (R220). [4096 × 32 bits; 10 R202; empty] -/
  prog : List (Nat × Word)
  /-- Ferroelectric copy of the host region. [1024 × 32 bits; 10 R220; empty] -/
  hostCopy : List (Nat × Word)
  /-- Completion records kept for `gather ring`, oldest first. [at most 256 × 4 words; 10 R217; empty] -/
  ring : List (List Word)
  /-- Slot of the next record in the ring (0007_C000h). [0 ... 255; 10 R217; 0] -/
  ringNext : Nat
  /-- Records in the ring not yet freed. [0 ... 256; 10 R217; 0] -/
  ringUsed : Nat
  /-- `gather.ring.lost`. [32 bits; 10 R217; 0] -/
  ringLost : Word
  /-- `gather.ringbreaks`. [32 bits; 10 R219; 0] -/
  ringBreaks : Word
  /-- Raw-port FIFO. [64 frames of 8 words; 10 R203; empty] -/
  raw : List Word
  /-- Host packet port FIFO. [1024 words; 10 R203; empty] -/
  hostFifo : List Word
  /-- Partner transmit port FIFO. [512 words; 10 R203; empty] -/
  partnerFifo : List Word
  deriving DecidableEq, Repr

/-- The memories: sorted (address, content) lists without blank entries. -/
structure Memories where
  /-- Ferroelectric copy A, but for the configuration area, whose content State holds field by field (log 21). [16 MiB; 11 R224; the delivered directory, else blank FFh (R226)] -/
  a : List Host.Cell
  /-- Ferroelectric copy B, as copy A. [16 MiB; 11 R224; the delivered directory, else blank FFh (R226)] -/
  b : List Host.Cell
  /-- Internal SRAM by word index. [131072 × 32 bits; 10 R203; 0: DESIGN CHOICE log 14] -/
  sram : List (Nat × Word)
  /-- Cellar by word index from 1000_0000h. [2097152 × 32 bits and more; 10 R203; 0: DESIGN CHOICE log 14] -/
  cellar : List (Nat × Word)
  deriving DecidableEq, Repr

/-- Directory entry of a chain (R225, R230). -/
structure Chain where
  /-- Head value. [32 bytes; 11 R225; none: the genesis value] -/
  head : Option (List Byte)
  /-- Base value. [32 bytes; 11 R225; none: the genesis value] -/
  base : Option (List Byte)
  /-- Index of the next record. [32 bits; 11 R225; 0] -/
  next : Nat
  /-- Number of records written. [32 bits; 11 R225; 0] -/
  written : Nat
  deriving DecidableEq, Repr

/-- Power-fail or stop record (R238). -/
structure PowerRec where
  kind : Nat
  time : Nat
  tallies : Vector Word 4
  pricing : Vector (Option Pricing) 4
  deriving DecidableEq, Repr

/-- A tally latch held in a keep record: seconds and counts (R69); `stepped` where the clock was stepped to its time. -/
structure KeepLatch where
  time : Nat
  tallies : Vector Word 4
  stepped : Bool
  deriving DecidableEq, Repr

/-- A span between two tally latches that waits to be written as blocks: its seconds, counts and pricing sets;
`unknown` spans take source X and no count (R71, R77, R157, R239); a `fresh` one begins at a stepped time (R76). `gone`
blocks of it are written. One with `sums` is an interval priced before the spans behind it: it goes from its start to its
end, or is empty where the interval goes on. -/
structure KeepSpan where
  fromSec : Nat
  toSec : Nat
  counts : Vector Nat 4
  pricing : Vector (Option Pricing) 4
  unknown : Bool
  fresh : Bool
  gone : Nat
  sums : Option (Vector Sums 4)
  deriving DecidableEq, Repr

/-- A self-test result record (R330). -/
structure TestResult where
  occasion : Nat
  verdict : Nat
  count : Nat
  time : Nat
  itemsRun : Nat
  itemsFailed : Nat
  millis : Nat
  failures : List (Failure × Nat × Nat)
  deriving DecidableEq, Repr

/-- The custody ledger (chapter 11). -/
structure Ledger where
  /-- Chains: interval, close, event, audit. [4 × record; 11 R230; genesis] -/
  chains : Vector Chain 4
  /-- Generation count of the directory. [32 bits; 11 R225; 0: DESIGN CHOICE log 4] -/
  gen : Word
  /-- Key table: partner keys with their first close number. [at most 16; 11 R225; empty] -/
  keys : List (List Byte × Nat)
  /-- `ledger.state`. [enum; 11 R242; ok] -/
  state : LedgerState
  /-- `ledger.repairs`. [32 bits; 11 R244; 0] -/
  repairs : Word
  /-- `ledger.checkdamaged`. [32 bits; 11 R244; 0] -/
  checkDamaged : Word
  /-- `ledger.datadamaged`. [32 bits; 11 R244; 0] -/
  dataDamaged : Word
  /-- `ledger.scrub.last`, seconds. [32 bits or unformed; 11 R244; none] -/
  scrubLast : Option Nat
  /-- Next index of the keep area. [0 ... 32767; 11 R238; 0] -/
  keepNext : Nat
  /-- Tally latches of the keep records of this KEEP, oldest first. [list; 03 R69; empty] -/
  keeps : List KeepLatch
  /-- Power-fail record. [72 bytes or blank; 11 R238; none] -/
  powerFail : Option PowerRec
  /-- Stop record. [72 bytes or blank; 11 R238; none] -/
  stopRec : Option PowerRec
  /-- Keep spans still to be written as blocks, oldest first. [list; 03 R71; empty] -/
  backlog : List KeepSpan
  /-- Start of the interval that the backlog fills, seconds. [32 bits or none; 03 R71; none] -/
  back : Option Nat
  /-- Latch of the entry of a KEEP that began with the clock unset. [record or none; 03 R77; none] -/
  unsetKeep : Option KeepLatch
  /-- Start of the open interval, seconds. [32 bits; 07 R160; 0] -/
  intStart : Nat
  /-- Interval length in force, min. [Nat; 07 R161; 15] -/
  intLen : Nat
  /-- Latched blocks waiting for pricing: the ring of 64 seconds; while NRST holds the fast domain it keeps every block (log 78). [at most 64; 07 R143; empty] -/
  closed : List ClosedBlock
  /-- Second of the last tally latch. [32 bits or none; 03 R61; none] -/
  latchAt : Option Nat
  /-- Day start of the next close, seconds, once the clock has been valid. [32 bits or none; 11 R231; none] -/
  day : Option Nat
  /-- Interval records of that day and OR of close flags. [record; 11 R231; 0] -/
  dayCount : Nat
  /-- Close flags gathered during the day. [8 bits; 11 R231; 0] -/
  dayFlags : BitVec 8
  /-- Notes of ended runs of U blocks that go behind the interval records and closes of their tick. [list; 11 R227; empty] -/
  uNotes : List (List Byte)
  /-- The first close after a replacement is due. [1 bit; 13 R285; false] -/
  replaced : Bool
  /-- Result records, newest first. [at most 16; 16 R330; empty] -/
  results : List TestResult
  deriving DecidableEq, Repr

/-- A sequenced frame kept until it is acknowledged (R254). -/
structure OutFrame where
  seq : Nat
  text : String
  check : BitVec 16
  sentAt : Nat
  resends : Nat
  /-- Sequenced payload kind: 0 tq, 1 tr, 2 cosig, 3 decline, 4 damage, 5 ivl, 6 close, 7 csig. -/
  kind : Nat
  deriving DecidableEq, Repr

/-- A frame body waiting to be sent, with its kind as in `OutFrame` (R261). -/
structure Offer where
  kind : Nat
  body : String
  deriving DecidableEq, Repr

/-- A partner close waiting for its records (R263). -/
structure PartnerClose where
  number : Nat
  day : Nat
  count : Nat
  totals : List (Int × Int)
  chain : List Byte
  sig : List Byte
  key : Nat
  deriving DecidableEq, Repr

/-- The tally conversation (chapter 12). -/
structure Pair where
  /-- `pair.state`. [enum; 12 R270; idle] -/
  st : PairState
  /-- Fingerprint named by PAIR. [text or none; 13 R284; none] -/
  fingerprint : Option String
  /-- PAIR has named a key not yet in the table. [1 bit; 13 R285; false] -/
  fresh : Bool
  /-- `pair.partner.serial`. [64 bits; 12 R270; 0] -/
  serial : Nat
  /-- `pair.role.session`: upstream, downstream or none. [enum; 12 R253; none] -/
  up : Option Bool
  /-- Nonces drawn (model's own counter of free values). [Nat; 12 R249; 0: DESIGN CHOICE log 7] -/
  drawn : Nat
  /-- Own nonce of the opening. [8 bytes; 12 R249; empty] -/
  nonce : List Byte
  /-- Partner's nonce of the opening. [8 bytes; 12 R249; empty] -/
  peerNonce : List Byte
  /-- Key the partner presented. [32 bytes; 12 R251; empty] -/
  peerKey : List Byte
  /-- Opening step reached. [0 ... 4; 12 R251; 0] -/
  step : Nat
  /-- Partner's want time, seconds. [32 bits; 12 R250; 0] -/
  want : Nat
  /-- Next sequence to send. [1 ... 65535; 12 R246; 1] -/
  nextSeq : Nat
  /-- Next sequence expected. [1 ... 65535; 12 R255; 1] -/
  expect : Nat
  /-- A frame has been accepted in the session. [1 bit; 12 R246; false] -/
  accepted : Bool
  /-- Frames accepted since the last ack field sent. [Nat; 12 R254; 0] -/
  unacked : Nat
  /-- Outstanding frames, oldest first. [at most 8; 12 R254; empty] -/
  out : List OutFrame
  /-- Frames waiting for the window. [list; 12 R261; empty] -/
  offers : List Offer
  /-- srtt, rttvar in µs. [record or unset; 12 R258; none] -/
  rtt : Option (Nat × Nat)
  /-- `pair.rto` in µs, none before the first opening. [Nat or unformed; 12 R258; none] -/
  rto : Option Nat
  /-- Monotonic ms of the last valid frame received. [ms; 12 R259; 0] -/
  rxAt : Nat
  /-- Monotonic ms of the last frame sent. [ms; 12 R259; 0] -/
  txAt : Nat
  /-- No hello before this monotonic ms. [ms; 12 R252; 0] -/
  pause : Nat
  /-- The line is half-duplex and this end holds the turn. [1 bit; 12 R260; false] -/
  turn : Bool
  /-- Monotonic ms from which the holder of the turn may transmit. [ms; 12 R260; 0] -/
  turnFrom : Nat
  /-- Monotonic ms at which the oldest frame not yet acknowledged to the partner was accepted. [ms; 12 R254; 0] -/
  acceptAt : Nat
  /-- Naks sent within `pair.rto`, newest first: sequence and monotonic ms. [list; 12 R256; empty] -/
  naks : List (Nat × Nat)
  /-- Transmit stamp of the latest tq. [ms or none; 12 R266; none] -/
  tq : Option Nat
  /-- Last 8 pairs: 2 × θ and δ in ms, newest first. [at most 8; 12 R266; empty] -/
  thetas : List (Int × Int)
  /-- `pair.clock.offset`, ms. [signed; 12 R266; 0] -/
  offset : Int
  /-- `pair.clock.delay`, ms. [signed; 12 R266; 0] -/
  delay : Int
  /-- The clock note was given in this session. [1 bit; 12 R267; false] -/
  clockNoted : Bool
  /-- `pair.count.checkdmg`. [32 bits; 12 R257; 0] -/
  checkDmg : Word
  /-- `pair.count.datadmg`. [32 bits; 12 R257; 0] -/
  dataDmg : Word
  /-- `pair.count.gap`. [32 bits; 12 R257; 0] -/
  gaps : Word
  /-- `pair.count.retrans`. [32 bits; 12 R270; 0] -/
  retrans : Word
  /-- `pair.count.resync`. [32 bits; 12 R259; 0] -/
  resync : Word
  /-- `pair.count.proto`. [32 bits; 12 R248; 0] -/
  proto : Word
  /-- Accepted partner records per day start: count and sums per run. [list; 12 R263; empty] -/
  days : List (Nat × Nat × List (Int × Int))
  /-- Run and start of the partner records counted in `days`, newest first. [at most 153600; 12 R263; empty] -/
  taken : List (Nat × Nat)
  /-- Days with an equivocation not yet co-signed. [list; 13 R281; empty] -/
  foul : List Nat
  /-- Close frame waiting for its csig. [80 bytes or none; 12 R263; none] -/
  closeRec : Option (List Byte)
  /-- Closes that wait for missing records. [list; 12 R263; empty] -/
  waiting : List PartnerClose
  /-- Partner's last co-signed close. [record or none; 12 R263, 13 R285; none] -/
  lastClose : Option PartnerClose
  /-- Damage reports whose acknowledgement is open: sequence, chain, index. [list; 12 R265; empty] -/
  damage : List (Nat × Nat × Nat)
  /-- Frames sent, oldest first. [list; 12 R245; empty] -/
  sent : List String
  deriving DecidableEq, Repr

/-- An entry of the partner table (R280). -/
structure Entry where
  run : Nat
  start : Nat
  tag : List Byte
  m : Int
  e : Int
  blocks : Nat
  flags : BitVec 8
  /-- U, K and X blocks. -/
  subs : Nat
  decided : Bool
  /-- Two differing records of this run and start have been accepted (R273). -/
  twice : Bool
  deriving DecidableEq, Repr

/-- Settlement of a run (R277). -/
structure SettleRun where
  /-- `settle.total.mass`. [64 bits signed; 13 R277; 0] -/
  totalM : Int
  /-- `settle.total.energy`. [64 bits signed; 13 R277; 0] -/
  totalE : Int
  /-- `settle.loss.mass`. [64 bits signed; 13 R277; 0] -/
  lossM : Int
  /-- `settle.loss.energy`. [64 bits signed; 13 R277; 0] -/
  lossE : Int
  /-- The four totals as stored in ferroelectric memory. [4 × 64 bits signed; 13 R277; 0] -/
  kept : Int × Int × Int × Int
  /-- `settle.last`: start, outcome byte, settled mass and energy. [record or unformed; 13 R287; none] -/
  last : Option (Nat × Nat × Option Int × Option Int)
  /-- Contributions of decided intervals, newest first: start, mass, energy, loss mass, loss energy. [list; 13 R278; empty] -/
  parts : List (Nat × Int × Int × Int × Int)
  deriving DecidableEq, Repr

/-- Reconciliation and settlement (chapter 13). -/
structure Settle where
  /-- Partner table. [at most 8192; 13 R280; empty] -/
  table : List Entry
  /-- Runs 1 ... 4. [4 × record; 13 R277] -/
  runs : Vector SettleRun 4
  /-- `settle.count.mismatch`. [32 bits; 13 R271; 0] -/
  mismatch : Word
  /-- `settle.count.late`. [32 bits; 13 R280; 0] -/
  late : Word
  /-- `settle.count.equivocal`. [32 bits; 13 R281; 0] -/
  equivocal : Word
  /-- `settle.count.disputed`. [32 bits; 13 R277; 0] -/
  disputed : Word
  deriving DecidableEq, Repr

/-- A current output with its limiter (R288 ... R295). -/
structure Co where
  /-- Converter code. [16 bits; 14 R288; 0] -/
  code : Nat
  /-- `co.status`. [enum; 14 R290; idle] -/
  status : CoStatus
  /-- The read-back finds the loop open. [1 bit; 14 R290; false] -/
  loopOpen : Bool
  /-- Force: code and monotonic ms of its end. [record or none; 14 R302; none] -/
  force : Option (Nat × Nat)
  /-- Valve position u, 10⁻⁶ %. [signed; 14 R293; 0: DESIGN CHOICE log 4] -/
  u : Int
  /-- Integral term i, 10⁻⁶ %. [signed; 14 R293; 0: DESIGN CHOICE log 4] -/
  i : Int
  /-- `lim.rate`, 0.001 kg/h or MJ/h. [signed or unformed; 14 R292; none] -/
  rate : Option Int
  /-- `lim.state`. [enum; 14 R295; idle] -/
  lim : LimState
  /-- Last limiter update: monotonic ms, tracker phase and engine count. [record or none; 14 R292; none] -/
  mark : Option (Nat × Acc × Acc)
  /-- Consecutive invalid updates. [Nat; 14 R295; 0] -/
  invalid : Nat
  /-- The next valid update takes over bumplessly. [1 bit; 14 R294; true] -/
  takeOver : Bool
  /-- Valve discrepancy: cause (0 none, 1 closed, 2 open, 3 both) noted. [2 bits; 14 R300; 0] -/
  valve : Nat
  /-- The contradiction of switch and position that stands, and the monotonic ms since which. [cause and ms, or none; 14 R300; none] -/
  valveFrom : Option (Nat × Nat)
  deriving DecidableEq, Repr

/-- A pulse output (R296 ... R298). -/
structure Po where
  /-- Base of the pending count. [64 bits; 14 R296; 0] -/
  base : Int
  /-- `po.issued`. [64 bits; 14 R297; 0] -/
  issued : Nat
  /-- On until this monotonic ms. [ms or none; 14 R297; none] -/
  onUntil : Option Nat
  /-- No pulse before this monotonic ms. [ms; 14 R297; 0] -/
  free : Nat
  /-- Monotonic ms of the last backlog note. [ms or none; 14 R297; none] -/
  noted : Option Nat
  deriving DecidableEq, Repr

/-- A digital input (R299). -/
structure Di where
  /-- Debounced state. [1 bit; 14 R299; low: DESIGN CHOICE log 4] -/
  high : Bool
  /-- Monotonic ms of the last change. [ms; 15 R315; 0] -/
  since : Nat
  deriving DecidableEq, Repr

/-- Outputs and inputs (chapter 14). -/
structure Io where
  /-- CO1 ... CO4. [4 × record; 14 R288] -/
  co : Vector Co 4
  /-- PO1 ... PO4. [4 × record; 14 R296] -/
  po : Vector Po 4
  /-- DI1 ... DI4. [4 × record; 14 R299] -/
  di : Vector Di 4
  deriving DecidableEq, Repr

/-- A safety-tap result waiting for judgement (R308): temperature or pressure, value and status. -/
structure Tap where
  run : Run
  temp : Bool
  value : Int
  status : InStatus
  deriving DecidableEq, Repr

/-- Judgement state of one input of a run (R304, R316). -/
structure Judged where
  /-- Consecutive results at or above the limit. -/
  count : Nat
  /-- Results of the last second: monotonic ms, and whether each was ok and at or below limit minus band. -/
  recent : List (Nat × Bool)
  deriving DecidableEq, Repr

/-- The safety function (chapter 15). -/
structure Safe where
  /-- Trip latch. [1 bit; 15 R312; clear] -/
  latch : Bool
  /-- Causes recorded in this SAFE, in code order. [list of codes; 15 R313; empty] -/
  causes : List Nat
  /-- Coil drive of both relays. [1 bit; 15 R306; off] -/
  coil : Bool
  /-- Welded contacts: relay A, relay B. [2 bits; 15 R314; false] -/
  welded : Bool × Bool
  /-- `safety.trip.time.last`, ms. [Nat or unformed; 15 R325; none] -/
  tripMs : Option Nat
  /-- Diagnostics that stand until the next START. [list of codes; 15 R311; empty] -/
  sticky : List Nat
  /-- Diagnostics standing at the last judgement. [list of codes; 15 R311; empty] -/
  standing : List Nat
  /-- Tap results waiting for judgement. [list; 15 R308; empty] -/
  taps : List Tap
  /-- Monotonic ms of the last burst wake. [ms; 15 R310; 0] -/
  wakeAt : Nat
  /-- Inputs armed at the last burst wake that have given no tap result since: run, and whether the temperature. [list; 15
  R310; empty] -/
  tapDue : List (Run × Bool)
  /-- Pressure judgement by run. [4 × record; 15 R304; empty] -/
  press : Vector Judged 4
  /-- Temperature judgement by run. [4 × record; 15 R304; empty] -/
  temp : Vector Judged 4
  /-- Seconds since 2020 of the SAFE entry. [32 bits; 15 R316; 0] -/
  since : Nat
  /-- Causes found in the millisecond of a supply loss that is about to be taken. [list of codes; 01 R26; empty] -/
  atLoss : List Nat
  deriving DecidableEq, Repr

/-- A soft repair entry (R334). -/
structure Repair where
  kind : Nat
  st : Nat
  failed : Nat
  spare : Nat
  time : Nat
  fuse : Option Nat
  deriving DecidableEq, Repr

/-- A self-test running on command (R329). -/
structure TestBusy where
  item : String
  items : Nat
  run : Option Run
  line : Line
  deriving DecidableEq, Repr

/-- An ageing indicator as stored at a daily close (R336). -/
structure AgeRec where
  value : Int
  limit : Int
  /-- Predicted date, seconds since 2020. -/
  date : Option Nat
  /-- Confidence class: 0 none, 1 weak, 2 fair, 3 firm. -/
  cls : Nat
  beyond : Bool
  deriving DecidableEq, Repr

/-- Self-test, spares and ageing (chapter 16). -/
structure Spares where
  /-- Commanded test running. [record or none; 16 R329; none] -/
  test : Option TestBusy
  /-- Repair table. [at most 96; 16 R334; empty] -/
  table : List Repair
  /-- Fuse array, burnt entries in order: kind (1 cell, 2 row, 3 void), failed, spare. [at most 32 × 24 bits; 16 R335; empty] -/
  fuses : List (Nat × Nat × Nat)
  /-- Units that failed the last self-test (cells 1 ... 19). [list; 16 R332; empty] -/
  failedCells : List Nat
  /-- Spare rows that failed the last self-test. [list; 16 R333; empty] -/
  failedRows : List Nat
  /-- Corrected-error counts by row. [1024 × 8 bits; 16 R333; empty] -/
  rowErrors : List (Nat × Nat)
  /-- Charge drawn from the backup cell since fitting, in test loads of 1 mA for 10 ms, 1/360000 mAh. [Nat; 16 Table 16.4; 0] -/
  charge : Nat
  /-- `age.backup.fitted`, seconds. [32 bits; 16 Table 16.6; delivery] -/
  backupFitted : Nat
  /-- De-energisations of the coils A and B. [Nat; 16 Table 16.4; 0] -/
  trips : Nat × Nat
  /-- Sum and count of the day's reference deviations, ppm. [record; 16 Table 16.4; 0] -/
  refDay : Int × Nat
  /-- Writes to the ledger copies A and B by 4 KiB sector, the most written. [Nat; 16 Table 16.4; 0] -/
  framWrites : List (Nat × Nat)
  /-- Thermal indicator, 10⁻⁹ h. [Nat; 16 R337; 0] -/
  thermal : Nat
  /-- Daily values of the trend indicators 0 ... 7 and 11, newest first: day since 2020-01-01 and value. [9 × at most 365;
  16 R336; empty] -/
  trends : Vector (List (Nat × Int)) 9
  /-- Daily values of the counting indicators 8, 9, 10, 12 ... 15, newest first. [7 × at most 365; 16 R338; empty] -/
  counts : Vector (List Int) 7
  /-- Indicators as stored at the last close: value, limit, predicted second, class, beyond. [16 × record or unformed; 16 R336; none] -/
  ages : Vector (Option AgeRec) 16
  /-- Indicators whose warning stands. [16 bits; 16 R339; false] -/
  warned : Vector Bool 16
  deriving DecidableEq, Repr

/-- The whole machine. -/
structure State where
  /-- Commands waiting, first in first out (the block's queue). [list; 95; empty] -/
  pending : List Instr
  ident : Ident
  pw : Power
  ck : Clock
  host : LineSt
  service : LineSt
  cm : Commits
  runs : Vector RunSt 4
  mx : Matrix
  en : Engine
  ev : Events
  qu : Queue
  ga : Gather
  mem : Memories
  lg : Ledger
  pair : Pair
  se : Settle
  io : Io
  sf : Safe
  sp : Spares
  deriving DecidableEq, Repr

/-- The machine stops with a fault. -/
inductive Fault where
  /-- A supply above 32.0 V is applied: outside the limits within which any behaviour is promised (R4, R348, R361).
  Raised by SUPPLY_APPLIED and SUPPLY_RETURN. Safe: nothing is claimed of the hardware there. -/
  | beyondLimits
  deriving DecidableEq, Repr

/-- No meaning for the command. -/
inductive Refusal where
  /-- An arm of `exec` whose command has no meaning yet. Safe. -/
  | notModelled (mnemonic : String)
  deriving DecidableEq, Repr

def LineSt.reset : LineSt :=
  { role := .view, buf := [], tooMuch := false, edited := false, lastCr := false, discard := false, charAt := 0,
    lineAt := 0, queue := [], watches := [], wrong := [], lockUntil := none, warned := false, cntCheck := 0,
    cntBusy := 0, cntLost := 0, watchNotes := [], otherNotes := [], series := [], dropped := 0, sent := [], echoed := []
    shown := [] }

def SlowIn.reset : SlowIn :=
  { status := .idle, good := 0, openRun := 0, shortRun := 0, convs := [], clipAt := (false, false), clips := []
    lastPos := none, lastNeg := none, hist := [], means := [], anneal := 0, chain := (none, none), meas := none
    value := none, okValue := none, tap := none }

def FrontEnd.reset : FrontEnd :=
  { lift := .idle, vib := .idle, fastGood := (0, 0), fastOk := (none, none), temp := .reset, press := .reset, leads := []
    lead := none, leadDue := false, leadFirst := none, restarting := false, restartAt := 0, leadcal := none
    leadcalSum := (0, 0) }

def Pilot.reset : Pilot :=
  { status := .idle, lift := none, vib := none, refLift := none, refVib := none, badLift := 0, badVib := 0,
    good := 0, disturbed := true, sums := ((0, 0), (0, 0)), n := 0, results := [], avg := none, day := ((0, 0), (0, 0)) }

def PathSt.reset : PathSt := { hist := [], clips := [], taps := [], means := [], next := 0, ratio := 0 }

def Tracker.reset : Tracker :=
  { arms := (0, 0), integ := 0, cyc := (0, 0), cycs := [], locked := false, clean := false, span := none, going := false
    peak := 0 }

def EngineRun.reset : EngineRun :=
  { phase := 0, count := 0, freq := none, status := .idle, cycles := none, amp := none, tracked := 0, okFreq := none,
    liftAnneal := 0, vibAnneal := 0, blocker := (none, none), lift := .reset, vib := .reset, track := .reset
    pilot := .reset }

def RunBlock.zero : RunBlock :=
  { n := 0, freqs := [], pSum := 0, pN := 0, tSum := 0, tN := 0, held := false, disturbed := false, loss := false
    topped := false }

def Sums.zero : Sums :=
  { v := 0, m := 0, e := 0, tally := 0, cT := 0, cS := 0, cU := 0, cK := 0, cX := 0, flags := 0 }

def QtyRun.reset : QtyRun :=
  { cur := .zero, last := none, rhoH := none, good := none, carry := none, uRun := none, pricing := none, kept := none,
    keptTotals := (0, 0, 0), sums := .zero, back := .zero, unset := (0, 0), totalV := 0, totalM := 0, totalE := 0 }

def RecogRun.reset : RecogRun :=
  { hammer := none, ivls := [], cadOn := false, cadence := none, relRef := 0, relHigh := false, hamFrom := none
    hammers := [], env := [], presses := [], pulse := false, pulseAt := none, pulseCut := false, pulseAge := 0
    beats := [], rms := (0, 0, 0), rmsCut := false, windows := [] }

def RunSt.reset : RunSt :=
  { tally := 0, latched := 0, rate := none, threshold := 20, crossed := none, tallyArmed := true, fe := .reset, tabTemp := ⟨[], []⟩,
    tabPress := ⟨[], []⟩, tabK := ⟨[], []⟩, tabDens := ⟨[], []⟩, tabEnth := ⟨[], []⟩, tabZ := ⟨[], []⟩,
    eng := .reset, qty := .reset, recog := .reset }

def Engine.reset : Engine :=
  { count := 0, axes := Vector.replicate 6 .reset, axisBlocker := Vector.replicate 6 none
    axisIn := Vector.replicate 6 (0, false), axisAnneal := 0, bufs := Vector.replicate 17 ⟨[], 0⟩, leadSec := 0 }

/-- The shipped M0 program (Tables 8.5 and 8.6): transitions by state × 4 + slot, action words from 128. -/
def shippedM0 : List (Nat × Word) :=
  [(0, 0x84C400A0), (4, 0x8980C5A0), (5, 0x84C40140), (6, 0x81001220), (8, 0x8D818DA0), (9, 0x88C40A60),
   (10, 0x81401260), (12, 0x80921560),
   (128, 0x90000000), (129, 0x90000001), (130, 0x7080003C), (131, 0x20000101), (132, 0x50000300),
   (133, 0x60000002), (134, 0x10000000), (135, 0x20000102), (136, 0x7180012C), (137, 0x80000000),
   (138, 0x90000001), (139, 0x7180012C), (140, 0x50000300), (141, 0x40000000), (142, 0x60000004),
   (143, 0x20000103), (144, 0x10000001), (145, 0x81000000), (146, 0x90000000), (147, 0x20000104),
   (148, 0x60000102), (149, 0x90000000), (150, 0x60000104), (151, 0x20000105)]

/-- A transition word of Table 8.2 in use: next state, condition, operand, first action and count. -/
def transWord (next cond operand index count : Nat) : Word :=
  BitVec.ofNat 32 (2 ^ 31 + next * 2 ^ 26 + cond * 2 ^ 22 + operand * 2 ^ 14 + index * 2 ^ 8 + count * 2 ^ 5)

/-- The shipped M1 program (Table 8.7): condition 2h for single events, 3h for groups (R177). -/
def shippedM1 : List (Nat × Word) :=
  [(0, transWord 3 2 0x20 6 4), (1, transWord 3 3 0x24 6 4), (2, transWord 2 3 0x28 3 3), (3, transWord 1 2 0x15 0 3),
   (4, transWord 3 2 0x20 6 4), (5, transWord 3 3 0x24 6 4), (6, transWord 2 3 0x28 3 3), (7, transWord 0 4 0 0 0),
   (8, transWord 3 2 0x20 6 4), (9, transWord 3 3 0x24 6 4),
   (128, 0x20000201), (129, 0x7080001E), (130, 0x60000000), (131, 0x20000202), (132, 0x60000002),
   (133, 0x10000000), (134, 0x20000203), (135, 0x60000003), (136, 0x10000001), (137, 0x50000301)]

/-- The shipped program of machine N; M2 ... M7 are all zeros (R182). -/
def shippedProgram (n : Nat) : List (Nat × Word) :=
  match n with
  | 0 => shippedM0
  | 1 => shippedM1
  | _ => []

def StMachine.fresh (prog : List (Nat × Word)) : StMachine :=
  { live := prog, draft := prog, st := 0, cnt := 0, timers := Vector.replicate 2 none,
    expired := Vector.replicate 2 false, demand := none, demandAt := none, resetNext := false, adoptNext := false }

def Chan.reset : Chan :=
  { st := .idle, pc := 0, src := 0, dst := 0, loops := Vector.replicate 4 none, flags := 0, crc := 0xFFFFFFFF,
    crcOut := none, fault := none, moved := 0, burst := 0, waitUntil := none, reserved := false, discard := 0,
    shedMove := false, markReady := false, stopReq := false, ringWait := none }

def Queue.reset : Queue :=
  { chuteSelftest := false, regions := [], inHead := 0, inMiddle := 0, wrAt := (0, 0xFFFFFFFF)
    cmAt := (0, 0xFFFFFFFF), rdAt := (0, 0xFFFFFFFF), waiters := [], port := none, seqs := Vector.replicate 16 0,
    cellar := 1048576, peak := 0, shed2 := 0, shed3 := 0, rewound := 0, resets := 0, corrected := 0, uncorrected := 0,
    lingers := 0, dropWords := 0, lingerFrom := 0, drainAt := 0, lingerFlag := false, spell := none, shedNote := none, outputs := 0 }

def Chain.reset : Chain := { head := none, base := none, next := 0, written := 0 }

def Ledger.reset : Ledger :=
  { chains := Vector.replicate 4 .reset, gen := 0, keys := [], state := .ok, repairs := 0, checkDamaged := 0,
    dataDamaged := 0, scrubLast := none, keepNext := 0, keeps := [], powerFail := none, stopRec := none, backlog := []
    back := none, unsetKeep := none
    intStart := 0, intLen := 15, closed := [], latchAt := none, day := none, dayCount := 0, dayFlags := 0, uNotes := [],
    replaced := false, results := [] }

def Pair.reset : Pair :=
  { st := .idle, fingerprint := none, fresh := false, serial := 0, up := none, drawn := 0, nonce := [],
    peerNonce := [], peerKey := [], step := 0, want := 0, nextSeq := 1, expect := 1, accepted := false, unacked := 0, out := [],
    offers := [], rtt := none, rto := none, rxAt := 0, txAt := 0, pause := 0, turn := false, turnFrom := 0, acceptAt := 0, naks := [], tq := none,
    thetas := [], offset := 0, delay := 0, clockNoted := false, checkDmg := 0, dataDmg := 0, gaps := 0, retrans := 0,
    resync := 0, proto := 0, days := [], taken := [], foul := [], closeRec := none, waiting := [], lastClose := none, damage := [],
    sent := [] }

def SettleRun.reset : SettleRun :=
  { totalM := 0, totalE := 0, lossM := 0, lossE := 0, kept := (0, 0, 0, 0), last := none, parts := [] }

def Co.reset : Co :=
  { code := 0, status := .idle, loopOpen := false, force := none, u := 0, i := 0, rate := none, lim := .idle,
    mark := none, invalid := 0, takeOver := true, valve := 0, valveFrom := none }

def Power.reset : Power :=
  { ms := .cold, supply := false, vsup := 0, nrst := false, nrstAt := 0, endHeld := false, byCommand := false,
    stopClean := false, stopTime := 0, openedSince := false, coldSince := true, startKind := .cold,
    cellFitted := false, cellMv := 0, cellUnder := 0, cellLow := false, keepAt := 0, kcTotal := 0, kcFlag := false
    kcCount := 0, kcFirst := none, lcKeep := 0, lcFirst := none, lcCount := 0, sealOpen := false
    safeKey := false, form := .rs485, pass := .asleep, cad := (false, "config", 1000), burstTo := 0, blockWhole := false
    lastCause := (9, 0), stopBroken := false }

def Safe.reset : Safe :=
  { latch := false, causes := [], coil := false, welded := (false, false), tripMs := none, sticky := [],
    standing := [], taps := [], wakeAt := 0, tapDue := [], press := Vector.replicate 4 ⟨0, []⟩
    temp := Vector.replicate 4 ⟨0, []⟩, since := 0, atLoss := [] }

def Spares.reset : Spares :=
  { test := none, table := [], fuses := [], failedCells := [], failedRows := [], rowErrors := [], charge := 0,
    backupFitted := 0, trips := (0, 0), refDay := (0, 0), framWrites := [], thermal := 0,
    trends := Vector.replicate 9 [], counts := Vector.replicate 7 [], ages := Vector.replicate 16 none,
    warned := Vector.replicate 16 false }

/-- A ferroelectric copy as delivered: the directory of serial number 0 and no key, every other byte blank (R226). -/
@[irreducible] def deliveredCopy : List Host.Cell := storeAll blankByte [] 0 (deliveredDir 0 [])

/-- The machine right after reset: the module as delivered, in COLD, with every parameter at its default (R368),
blank memories but for the directory (R226) and nothing waiting. Log 1. -/
def State.reset : State :=
  { pending := []
    ident := { variant := .s4, serial := 0, key := [], codeOperate := 0, codeMetrology := 0, codeSafety := 0,
               delivered := 0 }
    pw := .reset
    ck := { mono := 0, t := 0, valid := false, slew := 0, due := none, dueBy := (0, 0), awake := 0, stored := 0, unsetAt := 0, partUnset := true, correction := 0,
            residue := 0, temp := none, fromCold := [] }
    host := .reset
    service := .reset
    cm := { params := [], attic := [], owner := none, pendingZ := [], due := [], restarting := [], wait := none,
            drawn := 0 }
    runs := Vector.replicate 4 .reset
    mx := { active := [], shadow := [], sat := Vector.replicate 18 0, phase := Vector.replicate 4 0,
            sinks := Vector.replicate 18 0, swap := false, copying := false, late := none
            axes := Vector.replicate 6 0, axisAge := 0, tst := Vector.replicate 4 0, mon := 0
            fits := Vector.replicate 4 none, beep := none }
    en := .reset
    ev := { raised := [], fromKeep := [], posts := [], machines := Vector.ofFn fun n => StMachine.fresh (shippedProgram n),
            levels := Vector.replicate 8 ⟨false, 0⟩, rateSec := 0, rates := [], lost := 0, knock := none,
            knockAt := none, fallArmed := true, fallAt := 0, fallRun := none, riseRun := 0, falls := []
            rotVec := Vector.replicate 3 0, gyroBias := Vector.replicate 3 0
            gyro := (0, Vector.replicate 3 0, 0, true), turns := [], tiltSum := (Vector.replicate 3 0, 0), tiltVec := none
            tiltDue := false, tiltArmed := true, tiltRef := none, tiltWait := false, tickAt := none, passRun := (0, 0)
            rot := none, tilt := none }
    qu := .reset
    ga := { chans := Vector.replicate 8 .reset, served := Vector.replicate 4 7, prog := [], hostCopy := [], ring := [], ringNext := 0, ringUsed := 0, ringLost := 0,
            ringBreaks := 0, raw := [], hostFifo := [], partnerFifo := [] }
    mem := { a := deliveredCopy, b := deliveredCopy, sram := [], cellar := [] }
    lg := .reset
    pair := .reset
    se := { table := [], runs := Vector.replicate 4 .reset, mismatch := 0, late := 0, equivocal := 0, disputed := 0 }
    io := { co := Vector.replicate 4 .reset, po := Vector.replicate 4 ⟨0, 0, none, 0, none⟩,
            di := Vector.replicate 4 ⟨false, 0⟩ }
    sf := .reset
    sp := .reset }

end Sys2Proof.Machine
end

