-- ==== Sys2Proof/Machine/Text.lean ====
section
/-! DEFINITION. Text, numbers, times and the check of a line: the forms of R6, R29, R30, R34, R370. -/

namespace Sys2Proof.Machine

/-- Quotient rounded to nearest with ties away from zero (R39, R144). -/
def roundDiv (a : Int) (b : Nat) : Int :=
  if 0 ≤ a then ((2 * a.natAbs + b) / (2 * b) : Nat) else - ((2 * a.natAbs + b) / (2 * b) : Nat)

/-- Quotient rounded to nearest with ties toward +∞ (R105, R133). -/
def roundUpDiv (a : Int) (b : Nat) : Int := (2 * a + b).fdiv (2 * b)

/-- Nearest point of `lo … hi`. -/
def clampInt (lo hi x : Int) : Int := if x < lo then lo else if hi < x then hi else x

/-- Nat in decimal. -/
def natText (n : Nat) : String := toString n

/-- `n` in decimal with at least `w` digits. -/
def padText (w n : Nat) : String :=
  let t := natText n
  String.ofList (List.replicate (w - t.length) '0') ++ t

/-- Signed whole number. -/
def intText (x : Int) : String := if x < 0 then "-" ++ natText x.natAbs else natText x.natAbs

/-- A value in units of 10^-dec, written with exactly `dec` decimals (R370). -/
def decText (dec : Nat) (x : Int) : String :=
  let a := x.natAbs
  let body := if dec = 0 then natText a else natText (a / 10 ^ dec) ++ "." ++ padText dec (a % 10 ^ dec)
  if x < 0 then "-" ++ body else body

def hexDigit (upper : Bool) (n : Nat) : Char :=
  if n < 10 then Char.ofNat (48 + n) else if upper then Char.ofNat (55 + n) else Char.ofNat (87 + n)

/-- The low `w` hexadecimal digits of `n`. -/
def hexChars (upper : Bool) : Nat → Nat → List Char
  | 0, _ => []
  | w + 1, n => hexChars upper w (n / 16) ++ [hexDigit upper (n % 16)]

/-- Lowercase hexadecimal with the suffix h (R370). -/
def hexText (w n : Nat) : String := String.ofList (hexChars false w n) ++ "h"

/-- Bytes as lowercase hexadecimal, in order (R245). -/
def bytesText (bs : List Byte) : String := String.ofList (bs.flatMap fun b => hexChars false 2 b.toNat)

/-- Bytes in colon-separated groups of four digits (R234, R243). -/
def groupText : List Byte → String
  | a :: b :: c :: rest => String.ofList (hexChars false 2 a.toNat ++ hexChars false 2 b.toNat) ++ ":" ++ groupText (c :: rest)
  | bs => bytesText bs

/-- Fields joined by single spaces. -/
def spaced : List String → String
  | [] => ""
  | [x] => x
  | x :: xs => x ++ " " ++ spaced xs

/-- Fields of a line: runs of characters other than spaces (R29). -/
def splitFields (cs : List Char) : List String :=
  let step := fun (acc : List (List Char) × List Char) (c : Char) =>
    if c = ' ' then (if acc.2 = [] then acc else (acc.1 ++ [acc.2], [])) else (acc.1, acc.2 ++ [c])
  let r := cs.foldl step ([], [])
  (if r.2 = [] then r.1 else r.1 ++ [r.2]).map String.ofList

/-- One letter in lowercase. -/
def lowerChar (c : Char) : Char := if 65 ≤ c.toNat ∧ c.toNat ≤ 90 then Char.ofNat (c.toNat + 32) else c

/-- Text in lowercase (R29). -/
def lowerText (t : String) : String := String.ofList (t.toList.map lowerChar)

/-- The value of a run of decimal digits. -/
def digitsValue (cs : List Char) : Nat := cs.foldl (fun n c => 10 * n + (c.toNat - 48)) 0

def isDigit (c : Char) : Bool := 48 ≤ c.toNat ∧ c.toNat ≤ 57

/-- A whole decimal number of 1 … 15 digits without sign. -/
def parseNat (t : String) : Option Nat :=
  let cs := t.toList
  if cs.length = 0 ∨ 15 < cs.length ∨ ¬ cs.all isDigit then none else some (digitsValue cs)

/-- A decimal number of R30: mantissa and number of decimals. -/
structure Dec where
  mant : Int
  scale : Nat
  deriving DecidableEq, Repr

/-- Reads a number (R30): an optional sign, 1 … 15 digits, at most one full stop with a digit on each side. -/
def parseDec (t : String) : Option Dec :=
  let cs := t.toList
  let (neg, ds) := match cs with
    | '-' :: r => (true, r)
    | '+' :: r => (false, r)
    | r => (false, r)
  let whole := ds.takeWhile isDigit
  let rest := ds.dropWhile isDigit
  let sign : Nat → Int := fun n => if neg then - (n : Int) else n
  match rest with
  | [] => if whole = [] ∨ 15 < whole.length then none else some ⟨sign (digitsValue whole), 0⟩
  | '.' :: frac =>
    if whole = [] ∨ frac = [] ∨ ¬ frac.all isDigit ∨ 15 < whole.length + frac.length then none
    else some ⟨sign (digitsValue (whole ++ frac)), frac.length⟩
  | _ => none

/-- Value of one hexadecimal digit. -/
def hexValue (c : Char) : Option Nat :=
  let n := (lowerChar c).toNat
  if 48 ≤ n ∧ n ≤ 57 then some (n - 48) else if 97 ≤ n ∧ n ≤ 102 then some (n - 87) else none

/-- The value of hexadecimal digits. -/
def hexDigits : List Char → Option Nat
  | [] => none
  | cs => cs.foldl (fun acc c => do let n ← acc; let d ← hexValue c; pure (16 * n + d)) (some 0)

/-- Reads a hexadecimal value: digits followed by h (R30). -/
def parseHex (t : String) : Option Nat :=
  match t.toList.reverse with
  | c :: r => if lowerChar c = 'h' then hexDigits r.reverse else none
  | [] => none

/-- Hexadecimal text of whole bytes. -/
def parseBytes : List Char → Option (List Byte)
  | [] => some []
  | a :: b :: r => do
    let x ← hexValue a
    let y ← hexValue b
    let t ← parseBytes r
    pure (BitVec.ofNat 8 (16 * x + y) :: t)
  | _ => none

/-- Days of a month (1 … 12) of a year. -/
def monthDays (y m : Nat) : Nat :=
  let leap := (y % 4 = 0 ∧ y % 100 ≠ 0) ∨ y % 400 = 0
  if m = 2 then (if leap then 29 else 28) else if m = 4 ∨ m = 6 ∨ m = 9 ∨ m = 11 then 30 else 31

/-- Days from 2020-01-01 to a date. -/
def daysFromCivil (y m d : Nat) : Int :=
  let y' : Nat := if m ≤ 2 then y - 1 else y
  let mp : Nat := if m ≤ 2 then m + 9 else m - 3
  let era := y' / 400
  let yoe := y' % 400
  let doy := (153 * mp + 2) / 5 + d - 1
  let doe := yoe * 365 + yoe / 4 - yoe / 100 + doy
  ((era * 146097 + doe : Nat) : Int) - 737730

/-- Date of a day count from 2020-01-01. -/
def civilFromDays (days : Nat) : Nat × Nat × Nat :=
  let z := days + 737730
  let era := z / 146097
  let doe := z % 146097
  let yoe := (doe - doe / 1460 + doe / 36524 - doe / 146096) / 365
  let doy := doe - (365 * yoe + yoe / 4 - yoe / 100)
  let mp := (5 * doy + 2) / 153
  let d := doy - (153 * mp + 2) / 5 + 1
  let m := if mp < 10 then mp + 3 else mp - 9
  (yoe + era * 400 + (if m ≤ 2 then 1 else 0), m, d)

/-- Seconds since 2020 as a time held to the whole second (R6). -/
def secText (s : Nat) : String :=
  let (y, m, d) := civilFromDays (s / 86400)
  let r := s % 86400
  padText 4 y ++ "-" ++ padText 2 m ++ "-" ++ padText 2 d ++ "T" ++ padText 2 (r / 3600) ++ ":"
    ++ padText 2 (r / 60 % 60) ++ ":" ++ padText 2 (r % 60) ++ "Z"

/-- Milliseconds since 2020 as a time held to the millisecond (R6). -/
def msText (ms : Nat) : String :=
  String.ofList ((secText (ms / 1000)).toList.dropLast) ++ "." ++ padText 3 (ms % 1000) ++ "Z"

/-- Reads a time of R6 as milliseconds since 2020-01-01. -/
def parseTime (t : String) : Option Int :=
  let cs := t.toList.map lowerChar
  let field := fun (i n : Nat) =>
    let f := (cs.drop i).take n
    if f.length = n ∧ f.all isDigit then some (digitsValue f) else none
  let at_ := fun (i : Nat) (c : Char) => cs[i]? = some c
  do
    let y ← field 0 4
    let mo ← field 5 2
    let d ← field 8 2
    let h ← field 11 2
    let mi ← field 14 2
    let s ← field 17 2
    let frac ← if cs.length = 20 ∧ at_ 19 'z' then some 0
      else if cs.length = 24 ∧ at_ 19 '.' ∧ at_ 23 'z' then field 20 3 else none
    if at_ 4 '-' ∧ at_ 7 '-' ∧ at_ 10 't' ∧ at_ 13 ':' ∧ at_ 16 ':' ∧ 1 ≤ mo ∧ mo ≤ 12 ∧ 1 ≤ d ∧ d ≤ monthDays y mo
        ∧ h < 24 ∧ mi < 60 ∧ s < 60 then
      some ((daysFromCivil y mo d * 86400 + (h * 3600 + mi * 60 + s : Nat)) * 1000 + (frac : Nat))
    else none

/-- One bit step of CRC-16/CCITT-FALSE. -/
def crc16Bit (c : BitVec 16) : BitVec 16 := if c.msb then (c <<< 1) ^^^ 0x1021 else c <<< 1

/-- One byte of CRC-16/CCITT-FALSE (R34). -/
def crc16Byte (c : BitVec 16) (b : Nat) : BitVec 16 :=
  let x := c ^^^ (BitVec.ofNat 16 (b % 256) <<< 8)
  (List.range 8).foldl (fun a _ => crc16Bit a) x

/-- CRC-16/CCITT-FALSE of a line (R34). -/
def crc16 (t : String) : BitVec 16 := t.toList.foldl (fun c ch => crc16Byte c ch.toNat) 0xFFFF

/-- The check field of a line: `*` and four uppercase hexadecimal digits (R33, R34). -/
def checkField (t : String) : String := "*" ++ String.ofList (hexChars true 4 (crc16 t).toNat)

/-- The fingerprint of a public key: the first 16 bytes of its SHA-256, in groups (R234). -/
def fingerprintText (key : List Byte) : String := groupText ((sha256 key).take 16)

end Sys2Proof.Machine
end

