-- ==== Sys2Proof/Machine/Params.lean ====
section
/-! DEFINITION. The parameter dictionary of chapter 18 (R8 ... R13, R367 ... R372): number, name, kind of value,
range, default, commit class and seal class of every parameter. Values are codes in units of the resolution (R237). -/

namespace Sys2Proof.Machine

/-- Seal classes of Table 0.5. -/
inductive Seal where
  | opn | m | s
  deriving DecidableEq, Repr

/-- What a parameter's value is, which fixes how it is read and written (R30, R39, R40, R370). -/
inductive Kind where
  /-- Number in units of 10^-dec, a whole multiple of `step` units. -/
  | num (dec : Nat) (step : Nat)
  /-- Number from a list of allowed values (R39). -/
  | list (dec : Nat) (allowed : List Int)
  /-- Enumeration with codes from `base` on (R40). -/
  | enum (base : Nat) (names : List String)
  /-- Hexadecimal of `digits` digits in multiples of `step` (R30). -/
  | hex (digits : Nat) (step : Nat)
  /-- Number of a numeric parameter (R371). -/
  | source
  /-- Q2.14 gain (R104). -/
  | gain
  /-- Resampler ratio code (R128). -/
  | rate
  /-- Read-only number in units of 10^-dec. -/
  | ro (dec : Nat)
  /-- Read-only counter. -/
  | counter
  /-- Read-only enumeration with codes. -/
  | roEnum (names : List String)
  /-- Read-only enumeration that its table gives by names only (R372). -/
  | roNames (names : List String)
  /-- Read-only time. -/
  | roTime
  /-- Read-only hexadecimal. -/
  | roHex
  /-- Read-only text or composite value. -/
  | roText
  deriving DecidableEq, Repr

/-- A row of the parameter reference. -/
structure PInfo where
  num : Nat
  name : String
  kind : Kind
  lo : Int
  hi : Int
  dflt : Int
  /-- None for a read-only parameter. -/
  cls : Option CommitClass
  sc : Seal
  numeric : Bool
  deriving DecidableEq, Repr

/-- A settable number. -/
def pNum (num : Nat) (name : String) (dec : Nat) (lo hi dflt : Int) (cls : CommitClass) (sc : Seal)
    (step : Nat := 1) (numeric : Bool := true) : PInfo :=
  ⟨num, name, .num dec step, lo, hi, dflt, some cls, sc, numeric⟩

/-- A settable number with a list of allowed values. -/
def pList (num : Nat) (name : String) (allowed : List Int) (dflt : Int) (cls : CommitClass) (sc : Seal) : PInfo :=
  ⟨num, name, .list 0 allowed, allowed.headD 0, allowed.getLastD 0, dflt, some cls, sc, true⟩

/-- A settable enumeration. -/
def pEnum (num : Nat) (name : String) (names : List String) (dflt : Int) (cls : CommitClass) (sc : Seal)
    (base : Nat := 0) : PInfo :=
  ⟨num, name, .enum base names, base, base + names.length - 1, dflt, some cls, sc, false⟩

/-- A settable hexadecimal value. -/
def pHex (num : Nat) (name : String) (digits step : Nat) (lo hi dflt : Int) (cls : CommitClass) (sc : Seal) : PInfo :=
  ⟨num, name, .hex digits step, lo, hi, dflt, some cls, sc, false⟩

/-- A parameter that names a numeric parameter. -/
def pSource (num : Nat) (name : String) (dflt : Int) (sc : Seal) : PInfo :=
  ⟨num, name, .source, 0, 0xFFFF, dflt, some .i, sc, false⟩

/-- A read-only parameter. -/
def pRo (num : Nat) (name : String) (kind : Kind) (numeric : Bool := false) : PInfo :=
  ⟨num, name, kind, 0, 0, 0, none, .opn, numeric⟩

/-- A read-only number. -/
def pRoNum (num : Nat) (name : String) (dec : Nat) : PInfo := pRo num name (.ro dec) true

/-- A read-only counter. -/
def pCount (num : Nat) (name : String) : PInfo := pRo num name .counter true

def offOn : List String := ["off", "on"]
def baudHost : List Int := [1200, 2400, 4800, 9600, 19200, 38400, 57600, 115200, 230400, 460800]
def baudPair : List Int := [1200, 2400, 4800, 9600, 19200, 38400, 57600, 115200]
/-- Allowed burst periods in ms (R63). -/
def periods : List Int :=
  [50, 100, 125, 200, 250, 500, 1000, 2000, 3000, 4000, 5000, 6000, 10000, 12000, 15000, 20000, 30000, 60000]
def stateNames : List String := ["cold", "keep", "start", "run", "stop", "held", "safe"]
def statusNames : List String := ["ok", "open", "short", "range", "clip", "lead", "idle"]
def medianNames : List String := ["off", "w3", "w5", "w7", "w9"]
def meanNames : List String := ["m1", "m2", "m4", "m8", "m16"]
def pilotNames : List String := ["ok", "loss", "unref", "anneal", "idle"]
def freqNames : List String := ["ok", "nolock", "short", "range", "anneal", "idle"]
def mediumNames : List String := ["steam", "water", "air", "gas", "liquid"]
def fastNames : List String := ["c1", "c2", "c3", "c4", "c5", "c6", "c7", "c8", "c9", "c10"]
def slowNames : List String := ["s1", "s2", "s3", "s4", "s5", "s6", "s7", "s8", "s9"]
def rangeNames : List String := ["pc2", "pc20", "pc200", "pc2000"]
def curveNames : List String :=
  ["linear", "pt100_385", "pt200_385", "pt500_385", "pt1000_385", "ni100_618", "ni1000_618", "pwl"]
def pairNames : List String := ["idle", "opening", "open", "refused", "lost", "silent"]
def beepNames : List String := ["tick", "ack", "warn", "alarm", "trip", "find"]
def chanNames : List String := ["idle", "run", "wait", "stall", "paused", "halt"]
def limNames : List String := ["run", "hold", "fail", "forced", "safe", "idle"]
def coNames : List String := ["ok", "open", "forced", "safe", "idle"]
def sourceNames : List String :=
  fastNames ++ ["t1", "t2", "t3", "t4", "ax", "ay", "az", "gx", "gy", "gz"]
def sinkNames : List String :=
  ["f0", "f1", "f2", "f3", "f4", "f5", "f6", "f7", "inj1", "inj2", "inj3", "inj4", "inj5", "inj6", "inj7", "inj8",
   "mon", "bzr"]

/-- The rows of one command line (Table 2.4, Table 18.2), from its base number. -/
def lineRows (base : Nat) (pre : String) (baud echo : Int) : List PInfo :=
  [pList base (pre ++ ".baud") baudHost baud .i .opn,
   pEnum (base + 1) (pre ++ ".echo") offOn echo .i .opn,
   pEnum (base + 2) (pre ++ ".notecheck") offOn 0 .i .opn,
   pNum (base + 3) (pre ++ ".role.idle") 0 1 240 15 .i .opn,
   pNum (base + 4) (pre ++ ".role.warn") 0 0 239 2 .i .opn,
   pCount (base + 8) (pre ++ ".count.check"),
   pCount (base + 9) (pre ++ ".count.busy"),
   pCount (base + 10) (pre ++ ".count.lost")]

/-- Table 18.2. -/
def moduleRows : List PInfo :=
  [pRo 0x0000 "module.variant" (.roNames ["4s", "4n"]),
   pRo 0x0001 "module.state" (.roEnum stateNames),
   pRo 0x0010 "module.serial" (.ro 0),
   pRo 0x0011 "module.key" .roText,
   pRo 0x0012 "module.fingerprint" .roText]
  ++ lineRows 0x0100 "host" 19200 0
  ++ [pEnum 0x0105 "host.term" offOn 1 .i .opn,
      pRo 0x0106 "host.form" (.roNames ["rs485", "rs232"])]
  ++ lineRows 0x0110 "service" 115200 1
  ++ [pEnum 0x0200 "wake.mode" ["bursts", "continuous"] 0 .b .opn,
      pNum 0x0201 "wake.burst.length" 0 16 1000 128 .b .opn,
      pList 0x0202 "wake.burst.period" periods 1000 .b .opn,
      pRo 0x0208 "wake.mode.effective" .roText,
      pRoNum 0x0209 "wake.period.effective" 0,
      pNum 0x0300 "clock.trim.user" 1 (-200) 200 0 .i .m,
      pRo 0x0301 "clock.state" (.roNames ["set", "slewing", "unset"]),
      pRoNum 0x0302 "clock.slew.remaining" 0,
      pRoNum 0x0303 "clock.temp" 1]

/-- Rows of one fast path (Table 6.5), from its base number. -/
def pathRows (base : Nat) (pre : String) : List PInfo :=
  [pEnum base (pre ++ ".median") medianNames 0 .f .m,
   pNum (base + 1) (pre ++ ".dc.corner") 2 5 2000 5 .f .m,
   pEnum (base + 2) (pre ++ ".dc.freeze") offOn 0 .i .m,
   pEnum (base + 3) (pre ++ ".decim") ["still", "steady", "quick", "resample"] 1 .f .m,
   ⟨base + 4, pre ++ ".rate", .rate, 4473925, 2147483648, 89478485, some .f, .m, true⟩,
   pRoNum (base + 5) (pre ++ ".delay") 3,
   pRoNum (base + 6) (pre ++ ".settle") 0]

/-- Front-end rows of a run (Table 4.4). -/
def feRows (b : Nat) (p : String) (n : Nat) : List PInfo :=
  [pEnum (b + 0x200) (p ++ "fe.lift.cell") fastNames (2 * n - 2 : Nat) .s .m,
   pEnum (b + 0x201) (p ++ "fe.lift.range") rangeNames 2 .s .m,
   pEnum (b + 0x202) (p ++ "fe.vib.cell") fastNames (2 * n - 1 : Nat) .s .m,
   pEnum (b + 0x203) (p ++ "fe.vib.range") rangeNames 2 .s .m,
   pRo (b + 0x208) (p ++ "fe.lift.status") (.roEnum statusNames),
   pRo (b + 0x209) (p ++ "fe.vib.status") (.roEnum statusNames),
   pEnum (b + 0x210) (p ++ "fe.temp.cell") slowNames (2 * n - 1 : Nat) .s .m,
   pEnum (b + 0x211) (p ++ "fe.temp.wires") ["w2", "w3", "w4"] 2 .s .m,
   pEnum (b + 0x212) (p ++ "fe.temp.exc") ["i250", "i500", "i1000"] 2 .s .m,
   pEnum (b + 0x213) (p ++ "fe.temp.lead") ["measured", "entered"] 0 .b .m]
  ++ [pEnum (b + 0x214) (p ++ "fe.temp.curve") curveNames 1 .b .m,
   pNum (b + 0x215) (p ++ "fe.temp.rnom") 3 10000 2000000 100000 .b .m,
   pNum (b + 0x216) (p ++ "fe.temp.alpha") 5 100 1000 385 .b .m,
   pNum (b + 0x217) (p ++ "fe.temp.lead.entered") 3 0 50000 0 .b .m,
   pRoNum (b + 0x218) (p ++ "fe.temp.lead.value") 3,
   pNum (b + 0x219) (p ++ "fe.temp.table.rev") 0 0 65535 0 .b .m,
   pRoNum (b + 0x21A) (p ++ "fe.temp.table.points") 0,
   pRoNum (b + 0x21B) (p ++ "fe.temp.ohm") 3,
   pRoNum (b + 0x21C) (p ++ "fe.temp.value") 3,
   pRo (b + 0x21D) (p ++ "fe.temp.status") (.roEnum statusNames)]
  ++ [pEnum (b + 0x220) (p ++ "fe.press.cell") slowNames (2 * n - 2 : Nat) .s .m,
   pEnum (b + 0x221) (p ++ "fe.press.wires") ["w4", "w6"] 1 .s .m,
   pEnum (b + 0x222) (p ++ "fe.press.exc") ["cv25", "cv50", "alt25", "alt50"] 3 .s .m,
   pEnum (b + 0x223) (p ++ "fe.press.range") ["mvv4", "mvv16", "mvv64"] 0 .s .m,
   pEnum (b + 0x224) (p ++ "fe.press.curve") ["linear", "pwl"] 0 .b .m,
   pNum (b + 0x225) (p ++ "fe.press.lin.x0") 4 (-640000) 639900 0 .b .m,
   pNum (b + 0x226) (p ++ "fe.press.lin.y0") 2 0 10000000 0 .b .m,
   pNum (b + 0x227) (p ++ "fe.press.lin.x1") 4 (-639900) 640000 20000 .b .m,
   pNum (b + 0x228) (p ++ "fe.press.lin.y1") 2 0 10000000 200000 .b .m,
   pNum (b + 0x229) (p ++ "fe.press.table.rev") 0 0 65535 0 .b .m,
   pRoNum (b + 0x22A) (p ++ "fe.press.table.points") 0,
   pRoNum (b + 0x22B) (p ++ "fe.press.mvv") 4,
   pRoNum (b + 0x22C) (p ++ "fe.press.value") 2,
   pRo (b + 0x22D) (p ++ "fe.press.status") (.roEnum statusNames)]

/-- Engine rows of a run (Table 6.5). -/
def engRows (b : Nat) (p : String) : List PInfo :=
  pathRows (b + 0x300) (p ++ "eng.lift") ++ pathRows (b + 0x308) (p ++ "eng.vib")
  ++ [pRoNum (b + 0x310) (p ++ "eng.freq") 3,
   pRo (b + 0x311) (p ++ "eng.freq.status") (.roEnum freqNames),
   pRoNum (b + 0x312) (p ++ "eng.freq.cycles") 3,
   pRoNum (b + 0x313) (p ++ "eng.lift.amp") 3,
   pEnum (b + 0x318) (p ++ "eng.press.median") medianNames 0 .f .m,
   pEnum (b + 0x319) (p ++ "eng.press.mean") meanNames 2 .f .m,
   pEnum (b + 0x31A) (p ++ "eng.temp.median") medianNames 0 .f .m,
   pEnum (b + 0x31B) (p ++ "eng.temp.mean") meanNames 3 .f .m,
   pRoNum (b + 0x320) (p ++ "eng.pilot.lift.gain") 2,
   pRoNum (b + 0x321) (p ++ "eng.pilot.lift.phase") 1,
   pRoNum (b + 0x322) (p ++ "eng.pilot.vib.gain") 2,
   pRoNum (b + 0x323) (p ++ "eng.pilot.vib.phase") 1,
   pRo (b + 0x324) (p ++ "eng.pilot.status") (.roEnum pilotNames)]

/-- Quantity rows of a run (Table 7.7). -/
def qtyRows (b : Nat) (p : String) : List PInfo :=
  [pEnum (b + 0x400) (p ++ "q.medium") mediumNames 0 .s .m,
   pNum (b + 0x401) (p ++ "k.factor") 3 1000 1000000000 1000000 .b .m,
   pNum (b + 0x402) (p ++ "k.table.rev") 0 0 65535 0 .b .m,
   pRoNum (b + 0x403) (p ++ "k.table.points") 0,
   pNum (b + 0x404) (p ++ "q.tally.tol") 1 1 200 20 .b .m,
   pNum (b + 0x405) (p ++ "q.lowcut") 2 50 10000 100 .b .m,
   pNum (b + 0x406) (p ++ "q.href") 6 (-1000000) 4000000 0 .b .m,
   pNum (b + 0x407) (p ++ "q.gas.molar") 3 2000 200000 28965 .b .m,
   pNum (b + 0x408) (p ++ "q.liquid.kappa") 4 0 10000 450 .b .m,
   pNum (b + 0x409) (p ++ "q.liquid.pref") 2 0 10000000 10133 .b .m,
   pNum (b + 0x40A) (p ++ "q.table.rev") 0 0 65535 0 .b .m]
  ++ [pRo (b + 0x410) (p ++ "block.last") .roText,
   pRo (b + 0x411) (p ++ "block.flags") .roHex,
   pRoNum (b + 0x412) (p ++ "block.volume") 6,
   pCount (b + 0x413) (p ++ "block.count"),
   pRoNum (b + 0x414) (p ++ "q.rho") 4,
   pRoNum (b + 0x415) (p ++ "q.h") 6,
   pRoNum (b + 0x416) (p ++ "q.massrate") 3,
   pRoNum (b + 0x418) (p ++ "total.mass") 6,
   pRoNum (b + 0x419) (p ++ "total.energy") 6,
   pRoNum (b + 0x41A) (p ++ "total.volume") 6]

/-- Recogniser rows of a run (Table 8.10). -/
def recogRows (b : Nat) (p : String) : List PInfo :=
  [pNum (b + 0x500) (p ++ "hammer.threshold") 0 5 100 60 .i .m,
   pNum (b + 0x501) (p ++ "hammer.dead") 0 50 5000 500 .i .m,
   pEnum (b + 0x510) (p ++ "cadence.input") ["off", "vib", "press"] 0 .i .m,
   pNum (b + 0x511) (p ++ "cadence.threshold") 0 1 100 30 .i .m,
   pNum (b + 0x512) (p ++ "cadence.pmin") 0 2 600000 100 .i .m,
   pNum (b + 0x513) (p ++ "cadence.pmax") 0 2 600000 60000 .i .m,
   pNum (b + 0x514) (p ++ "cadence.band") 0 1 50 10 .i .m,
   pRoNum (b + 0x515) (p ++ "cadence.period") 0,
   pRoNum (b + 0x516) (p ++ "cadence.regularity") 1,
   pRo (b + 0x517) (p ++ "cadence.state") (.roNames offOn),
   pNum (b + 0x520) (p ++ "release.floor") 0 1 50 10 .i .m,
   pRoNum (b + 0x521) (p ++ "release.ref") 3]

/-- Table 18.3 for run n (R10). -/
def runRows (n : Nat) : List PInfo :=
  let b := n * 0x1000
  let p := "run" ++ natText n ++ "."
  [pEnum (b + 0x40) (p ++ "tally.mode") ["fixed", "track"] 1 .b .m,
   pNum (b + 0x41) (p ++ "tally.threshold") 0 1 250 20 .b .m,
   pNum (b + 0x42) (p ++ "tally.hyst") 0 10 50 25 .b .m,
   pNum (b + 0x43) (p ++ "tally.track") 0 10 80 30 .b .m,
   pCount (b + 0x48) (p ++ "tally.count")]
  ++ feRows b p n ++ engRows b p ++ qtyRows b p ++ recogRows b p

/-- Default gain of a node (R119). -/
def gainDefault (source sink : Nat) : Int :=
  if source < 8 ∧ sink = source then 16384
  else if source = 10 ∧ 8 ≤ sink ∧ sink < 16 ∧ sink % 2 = 0 then 164 else 0

/-- A matrix gain (Table 5.3). -/
def gainInfo (source sink : Nat) : PInfo :=
  ⟨0x5000 + 0x20 * source + sink, "matrix.gain." ++ sourceNames.getD source "" ++ "." ++ sinkNames.getD sink "",
   .gain, -32768, 32767, gainDefault source sink, some .f, if sink < 16 then .m else .opn, true⟩

/-- Table 18.4 but for the gains. -/
def matrixRows : List PInfo :=
  (List.range 18).map (fun k => pCount (0x5300 + k) ("matrix.sat." ++ sinkNames.getD k ""))
  ++ (List.range 4).flatMap (fun k =>
    [pEnum (0x5400 + 0x10 * k) ("tone.t" ++ natText (k + 1) ++ ".wave") ["off", "sine", "square"] 0 .f .opn,
     pNum (0x5401 + 0x10 * k) ("tone.t" ++ natText (k + 1) ++ ".freq") 2 100 2000000 100000 .f .opn])
  ++ [pEnum 0x5480 "pilot.tone" ["t1", "t2", "t3", "t4"] 0 .f .m,
      pNum 0x5481 "pilot.freq" 2 1400000 2000000 1800000 .f .m,
      pNum 0x5490 "pilot.band" 0 5 50 20 .i .m,
      pNum 0x5491 "pilot.phase.band" 0 5 90 30 .i .m,
      pEnum 0x5500 "beep.mute" offOn 0 .i .opn,
      pEnum 0x5501 "beep.level" ["low", "high"] 1 .i .opn,
      pRo 0x5502 "beep.playing" (.roNames beepNames)]

/-- Table 18.5. -/
def eventRows : List PInfo :=
  [pNum 0x6000 "knock.threshold" 1 5 160 20 .i .m,
   pNum 0x6001 "knock.double.min" 0 50 1000 100 .i .m,
   pNum 0x6002 "knock.double.max" 0 100 2000 600 .i .m,
   pNum 0x6003 "knock.dead" 0 20 500 50 .i .m,
   pEnum 0x6008 "event.note.host" offOn 0 .i .opn,
   pEnum 0x6009 "event.note.service" offOn 1 .i .opn,
   pNum 0x600A "event.rate" 0 1 100 10 .i .m,
   pCount 0x600B "event.lost",
   pNum 0x6020 "release.fall.g" 2 5 80 30 .i .m,
   pNum 0x6021 "release.fall.time" 0 20 500 60 .i .m,
   pNum 0x6030 "turn.threshold" 1 10 900 50 .i .m,
   pRoNum 0x6031 "turn.rot" 1,
   pRoNum 0x6032 "turn.tilt" 1]
  ++ (List.range 8).flatMap (fun i =>
    let b := 0x6100 + 0x10 * i
    let p := "level.l" ++ natText (i + 1) ++ "."
    [pSource b (p ++ "src") 0x122C .m,
     pEnum (b + 1) (p ++ "dir") ["off", "above", "below"] 0 .i .m,
     pNum (b + 2) (p ++ "threshold") 3 (-1000000000000) 1000000000000 0 .i .m,
     pNum (b + 3) (p ++ "hyst") 3 0 1000000000000 0 .i .m,
     pNum (b + 4) (p ++ "dwell") 0 0 60000 100 .i .m,
     pRo (b + 5) (p ++ "state") (.roNames offOn)])
  ++ (List.range 8).flatMap (fun m =>
    let b := 0x6200 + 0x10 * m
    let p := "sm.m" ++ natText m ++ "."
    let sl := if m = 0 then Seal.s else Seal.m
    [pEnum b (p ++ "run") offOn (if m < 2 then 1 else 0) .i sl,
     pNum (b + 1) (p ++ "rev") 0 0 65535 0 .i sl,
     pRoNum (b + 2) (p ++ "state") 0,
     pRoNum (b + 3) (p ++ "counter") 0,
     pRoNum (b + 4) (p ++ "timer0") 0,
     pRoNum (b + 5) (p ++ "timer1") 0])
  ++ [pEnum 0x6F00 "axis.median" medianNames 0 .f .m,
      pNum 0x6F01 "axis.dc.corner" 2 0 2000 0 .f .m,
      pEnum 0x6F02 "axis.decim" ["still", "steady", "quick"] 0 .f .m]

/-- Shipped channel settings (Table 10.4): start, priority, pace, high mark, error mode. -/
def shippedChan (n : Nat) : Nat × Nat × Nat × Nat × Nat :=
  match n with
  | 0 => (0x000, 0, 3, 20, 0)
  | 1 => (0x040, 1, 1, 64, 1)
  | 2 => (0x080, 1, 3, 192, 0)
  | 3 => (0x0C0, 0, 0, 64, 1)
  | 4 => (0x100, 3, 0, 64, 1)
  | _ => (0xC00, 3, 0, 64, 1)

/-- Table 18.6, gather channel N. -/
def chanRows (n : Nat) : List PInfo :=
  let b := 0x7100 + 0x10 * n
  let p := "gather.g" ++ natText n ++ "."
  let d := shippedChan n
  [pHex b (p ++ "start") 3 1 0xC00 0xFFF d.1 .i .opn,
   pNum (b + 1) (p ++ "prio") 0 0 3 d.2.1 .i .opn 1 false,
   pEnum (b + 2) (p ++ "pace") ["none", "queue", "host", "partner"] d.2.2.1 .i .opn,
   pNum (b + 3) (p ++ "pace.high") 0 1 4096 d.2.2.2.1 .i .opn,
   pNum (b + 4) (p ++ "pace.low") 0 0 4095 0 .i .opn,
   pEnum (b + 5) (p ++ "errmode") ["halt", "skip"] d.2.2.2.2 .i .opn,
   pEnum (b + 6) (p ++ "complete") ["posted", "writeback"] 0 .i .opn,
   pHex (b + 7) (p ++ "base.src") 8 4 0 0xFFFFFFFC (if n = 4 then 0x10400000 else 0) .i .opn,
   pHex (b + 8) (p ++ "base.dst") 8 4 0 0xFFFFFFFC (if n = 3 then 0x10400000 else 0) .i .opn,
   pEnum (b + 9) (p ++ "auto") offOn 0 .i .opn,
   pRo (b + 0xA) (p ++ "state") (.roNames chanNames),
   pRo (b + 0xB) (p ++ "pc") .roHex,
   pRo (b + 0xC) (p ++ "crc") .roHex,
   pRo (b + 0xD) (p ++ "fault") .roHex]

/-- Table 18.6. -/
def queueRows : List PInfo :=
  [pRo 0x7000 "queue.mode" .roText,
   pNum 0x7001 "queue.cellar.words" 0 65536 2097152 1048576 .z .opn 65536,
   pNum 0x7002 "queue.linger" 0 1 60000 250 .i .opn,
   pHex 0x7003 "queue.stream.sel" 5 1 0 0x1FFFF 0 .i .opn,
   pNum 0x7004 "queue.stream.words" 0 8 256 64 .i .opn,
   pNum 0x7005 "queue.shed.wait" 0 1 1000 10 .i .opn,
   pRoNum 0x7008 "queue.fill" 0,
   pRoNum 0x7009 "queue.fill.peak" 0,
   pRoNum 0x700A "queue.packets" 0,
   pCount 0x7010 "queue.shed.c2",
   pCount 0x7011 "queue.shed.c3",
   pCount 0x7012 "queue.rewound",
   pCount 0x7013 "queue.resets",
   pCount 0x7014 "queue.ecc.corrected",
   pCount 0x7015 "queue.ecc.uncorrected",
   pCount 0x7016 "queue.linger.count",
   pCount 0x7017 "queue.drop.words"]
  ++ (List.range 8).flatMap chanRows
  ++ [pCount 0x7180 "gather.ring.lost", pCount 0x7181 "gather.ringbreaks",
      pEnum 0x7182 "gather.host.packets" offOn 0 .i .opn]

/-- Table 18.7. -/
def ledgerRows : List PInfo :=
  [pRo 0x8000 "ledger.state" (.roNames ["ok", "single_a", "single_b"]),
   pRo 0x8001 "ledger.scrub.last" .roTime,
   pCount 0x8002 "ledger.repairs",
   pCount 0x8003 "ledger.checkdamaged",
   pCount 0x8004 "ledger.datadamaged",
   pRo 0x8005 "ledger.interval.oldest" .roTime,
   pRoNum 0x8006 "ledger.close.count" 0,
   pRo 0x8007 "ledger.audit.oldest" .roTime,
   pList 0x8010 "ledger.interval" [5, 10, 15, 30, 60] 15 .z .m]
  ++ [pEnum 0x8100 "pair.role" ["single", "upstream", "downstream"] 0 .z .m,
      pEnum 0x8101 "pair.mode" ["rs485_4w", "rs485_2w", "logic_full", "logic_half"] 0 .z .m,
      pList 0x8102 "pair.baud" baudPair 19200 .z .m,
      pNum 0x8103 "pair.retry" 0 2 32 8 .i .opn,
      pNum 0x8104 "pair.keepalive" 0 1 60 10 .i .opn,
      pNum 0x8105 "pair.turn.guard" 0 1 100 5 .i .opn,
      pNum 0x8106 "pair.clock.limit" 0 1 600 10 .i .m,
      pEnum 0x8107 "pair.term" offOn 1 .i .opn,
      pRo 0x8108 "pair.state" (.roNames pairNames),
      pRo 0x8109 "pair.partner.serial" (.ro 0),
      pRo 0x810A "pair.role.session" (.roNames ["none", "upstream", "downstream"]),
      pRoNum 0x810B "pair.rto" 0,
      pRoNum 0x810C "pair.clock.offset" 0,
      pRoNum 0x810D "pair.clock.delay" 0,
      pCount 0x8110 "pair.count.checkdmg",
      pCount 0x8111 "pair.count.datadmg",
      pCount 0x8112 "pair.count.gap",
      pCount 0x8113 "pair.count.retrans",
      pCount 0x8114 "pair.count.resync",
      pCount 0x8115 "pair.count.proto"]
  ++ [pNum 0x8180 "settle.alone" 0 1 133 35 .i .m,
      pCount 0x8181 "settle.count.mismatch",
      pCount 0x8182 "settle.count.late",
      pCount 0x8183 "settle.count.equivocal",
      pCount 0x8184 "settle.count.disputed",
      pRoNum 0x8185 "settle.close.unsigned" 0]
  ++ (List.range 4).flatMap (fun k =>
    let b := 0x8200 + 0x10 * k
    let p := "settle.run" ++ natText (k + 1) ++ "."
    [pNum b (p ++ "rule") 0 1 4 3 .z .m 1 false,
     pEnum (b + 1) (p ++ "basis") ["mass", "energy"] 0 .z .m,
     pNum (b + 2) (p ++ "tol") 2 5 1000 50 .z .m,
     pNum (b + 3) (p ++ "tol.floor") 3 0 1000000 1000 .z .m,
     pNum (b + 4) (p ++ "loss.frac") 2 0 2000 0 .z .m,
     pNum (b + 5) (p ++ "loss.fixed.mass") 3 0 100000000 0 .z .m,
     pNum (b + 6) (p ++ "loss.fixed.energy") 3 0 100000000 0 .z .m,
     pNum (b + 7) (p ++ "sub.max") 0 0 100 1 .z .m,
     pRoNum (b + 8) (p ++ "total.mass") 6,
     pRoNum (b + 9) (p ++ "total.energy") 6,
     pRoNum (b + 0xA) (p ++ "loss.mass") 6,
     pRoNum (b + 0xB) (p ++ "loss.energy") 6,
     pRo (b + 0xC) (p ++ "last") .roText])

/-- Table 18.8, current output x. -/
def coRows (x : Nat) : List PInfo :=
  let b := 0x9000 + 0x40 * (x - 1)
  let p := "co" ++ natText x ++ "."
  [pEnum (b + 0x20) (p ++ "mode") ["off", "retransmit", "fixed", "limiter"] 0 .i .opn,
   pEnum (b + 0x21) (p ++ "action") ["direct", "reverse"] 0 .i .opn,
   pSource (b + 0x22) (p ++ "src") (x * 0x1000 + 0x416 : Nat) .opn,
   pNum (b + 0x23) (p ++ "lo") 3 (-1000000000000) 999999999999 0 .i .opn,
   pNum (b + 0x24) (p ++ "hi") 3 (-999999999999) 1000000000000 10000000 .i .opn,
   pNum (b + 0x25) (p ++ "fixed") 3 3600 21500 4000 .i .opn,
   pRoNum (b + 0x26) (p ++ "ma") 3,
   pRo (b + 0x27) (p ++ "status") (.roNames coNames)]
  ++ [pEnum (b + 0x30) (p ++ "lim.basis") ["mass", "energy"] 0 .i .opn,
   pNum (b + 0x31) (p ++ "lim.ceiling") 3 1 1000000000 1000000 .i .opn,
   pNum (b + 0x32) (p ++ "lim.kp") 2 1 5000 100 .i .opn,
   pNum (b + 0x33) (p ++ "lim.ti") 1 5 36000 300 .i .opn,
   pNum (b + 0x34) (p ++ "lim.umin") 1 0 990 0 .i .opn,
   pNum (b + 0x35) (p ++ "lim.umax") 1 10 1000 1000 .i .opn,
   pNum (b + 0x36) (p ++ "lim.slew") 1 1 1000 50 .i .opn,
   pNum (b + 0x37) (p ++ "lim.hold.max") 0 0 600 10 .i .opn,
   pEnum (b + 0x38) (p ++ "lim.fail.mode") ["hold", "position"] 0 .i .opn,
   pNum (b + 0x39) (p ++ "lim.fail.pos") 1 0 1000 0 .i .opn,
   pRoNum (b + 0x3A) (p ++ "lim.rate") 3,
   pRoNum (b + 0x3B) (p ++ "lim.u") 3,
   pRo (b + 0x3C) (p ++ "lim.state") (.roNames limNames)]

/-- Table 18.8. -/
def outputRows : List PInfo :=
  (List.range 4).flatMap (fun k => coRows (k + 1))
  ++ (List.range 4).flatMap (fun k =>
    let b := 0x9200 + 0x10 * k
    let p := "po" ++ natText (k + 1) ++ "."
    [pEnum b (p ++ "mode") ["off", "total", "events"] 0 .b .m,
     pNum (b + 1) (p ++ "run") 0 1 4 (k + 1 : Nat) .b .m 1 false,
     pEnum (b + 2) (p ++ "qty") ["mass", "energy", "volume"] 0 .b .m,
     pNum (b + 3) (p ++ "weight") 3 1 1000000000 1000 .b .m,
     pNum (b + 4) (p ++ "width") 0 1 1000 50 .i .opn,
     pCount (b + 5) (p ++ "pending"),
     pCount (b + 6) (p ++ "issued")])
  ++ (List.range 4).flatMap (fun k =>
    let b := 0x9300 + 0x10 * k
    let p := "di" ++ natText (k + 1) ++ "."
    [pEnum b (p ++ "fn") ["none", "reset", "valve_open", "valve_closed"] 0 .i .m,
     pNum (b + 1) (p ++ "co") 0 1 4 (k + 1 : Nat) .i .m 1 false,
     pNum (b + 2) (p ++ "debounce") 0 1 1000 20 .i .opn,
     pNum (b + 3) (p ++ "fb.time") 0 1 600 30 .i .opn,
     pRo (b + 4) (p ++ "state") (.roNames ["low", "high"])])

/-- Table 18.9. -/
def safetyRows : List PInfo :=
  [pRo 0xA000 "safety.latch" (.roNames ["clear", "set"]),
   pRo 0xA001 "safety.cause" .roHex,
   pRo 0xA002 "safety.crc" .roHex,
   pEnum 0xA003 "safety.reset.di" ["none", "di1", "di2", "di3", "di4"] 0 .i .s,
   pEnum 0xA004 "safety.reset.line" offOn 0 .i .s,
   pNum 0xA005 "safety.count" 0 1 8 3 .b .s,
   pEnum 0xA006 "safety.m0.arm" offOn 1 .b .s,
   pNum 0xA007 "safety.confirm.time" 0 10 600 120 .i .s,
   pRoNum 0xA008 "safety.trip.time.last" 0,
   pRo 0xA009 "safety.tripa.state" (.roNames ["energised", "open", "welded"]),
   pRo 0xA00A "safety.tripb.state" (.roNames ["energised", "open", "welded"]),
   pRoNum 0xA00B "safety.pending" 0,
   pRo 0xA00C "safety.m0.factory" (.roNames ["yes", "no"])]
  ++ (List.range 4).map (fun k =>
    pEnum (0xA010 + k) ("safety.co" ++ natText (k + 1) ++ ".level") ["low", "high"] 0 .b .s)
  ++ (List.range 4).flatMap (fun k =>
    let b := 0xA100 + 0x10 * k
    let p := "safety.run" ++ natText (k + 1) ++ "."
    [pEnum b (p ++ "arm") offOn 0 .b .s,
     pEnum (b + 1) (p ++ "inputs") ["press", "temp", "both"] 3 .b .s 1,
     pNum (b + 2) (p ++ "press.limit") 2 0 10000000 10000000 .b .s,
     pNum (b + 3) (p ++ "press.band") 2 0 1000000 5000 .b .s,
     pNum (b + 4) (p ++ "temp.limit") 3 (-200000) 850000 850000 .b .s,
     pNum (b + 5) (p ++ "temp.band") 3 0 100000 5000 .b .s,
     pRoNum (b + 6) (p ++ "press.tap") 2,
     pRoNum (b + 7) (p ++ "temp.tap") 3])

/-- Names of the ageing indicators (Table 16.4). -/
def ageNames : List String :=
  (List.range 4).flatMap (fun k =>
    ["element.run" ++ natText (k + 1) ++ ".lift", "element.run" ++ natText (k + 1) ++ ".vib"])
  ++ ["backup", "trip.a", "trip.b", "reference", "fram.a", "fram.b", "cellar.rows", "thermal"]

/-- Decimals of an ageing indicator's value and limit (R340). -/
def ageDecimals (i : Nat) : Nat := if i < 8 then 2 else 0

/-- Table 18.10. -/
def testRows : List PInfo :=
  [pEnum 0xB000 "selftest.repair" ["manual", "auto"] 1 .i .m,
   pNum 0xB001 "selftest.row.limit" 0 1 255 16 .i .m,
   pRo 0xB002 "selftest.last" .roText,
   pRoNum 0xB003 "repair.soft.free" 0,
   pRoNum 0xB004 "repair.fuse.free" 0,
   pNum 0xB010 "age.warn" 0 30 3650 365 .i .opn,
   pEnum 0xB011 "age.trip.load" ["resistive", "inductive"] 0 .i .m,
   pRo 0xB012 "age.life.end" .roTime,
   pRo 0xB013 "age.backup.fitted" .roTime]
  ++ (List.range 16).flatMap (fun i =>
    let b := 0xB100 + 4 * i
    let p := "age." ++ ageNames.getD i "" ++ "."
    [pRoNum b (p ++ "value") (ageDecimals i),
     pRoNum (b + 1) (p ++ "limit") (ageDecimals i),
     pRo (b + 2) (p ++ "date") .roTime,
     pRo (b + 3) (p ++ "class") (.roNames ["none", "weak", "fair", "firm"])])

/-- The row of a parameter number; none for an unassigned number (R9, R367). -/
def info (n : Nat) : Option PInfo :=
  let find := fun (l : List PInfo) => l.find? fun p => p.num = n
  if n < 0x1000 then find moduleRows
  else if n < 0x5000 then find (runRows (n / 0x1000))
  else if n < 0x5300 then
    if (n - 0x5000) / 0x20 < 20 ∧ n % 0x20 < 18 then some (gainInfo ((n - 0x5000) / 0x20) (n % 0x20)) else none
  else if n < 0x6000 then find matrixRows
  else if n < 0x7000 then find eventRows
  else if n < 0x8000 then find queueRows
  else if n < 0x9000 then find ledgerRows
  else if n < 0xA000 then find outputRows
  else if n < 0xB000 then find safetyRows
  else find testRows

/-- Every parameter of the module (R367). -/
def allParams : List PInfo :=
  moduleRows ++ (List.range 4).flatMap (fun k => runRows (k + 1))
  ++ (List.range 20).flatMap (fun a => (List.range 18).map fun b => gainInfo a b)
  ++ matrixRows ++ eventRows ++ queueRows ++ ledgerRows ++ outputRows ++ safetyRows ++ testRows

/-- Segments of a dotted name. -/
def segments (cs : List Char) : List (List Char) :=
  let r := cs.foldl (fun (acc : List (List Char) × List Char) c =>
    if c = '.' then (acc.1 ++ [acc.2], []) else (acc.1, acc.2 ++ [c])) ([], [])
  r.1 ++ [r.2]

/-- Candidates, each with the segments still to match, narrowed by one typed segment (R32): full matches win over
longer candidates, and the prefix must be unique among the segments that can stand there. -/
def narrow (typed : List Char) (cands : List (Nat × List (List Char))) : List (Nat × List (List Char)) :=
  let full := cands.filter fun c => c.2.head? = some typed
  if full ≠ [] then full.map fun c => (c.1, c.2.tail)
  else
    let pre := cands.filter fun c => match c.2 with
      | [] => false
      | s :: _ => typed ≠ [] ∧ typed.isPrefixOf s
    match pre with
    | [] => []
    | c :: _ => if pre.all fun d => d.2.head? = c.2.head? then pre.map fun d => (d.1, d.2.tail) else []

/-- The parameter that a typed name stands for, abbreviated where `strict` is false (R29, R32, R33). -/
def byName (strict : Bool) (t : String) : Option Nat :=
  let name := lowerText t
  if strict then (allParams.find? fun p => p.name = name).map (·.num)
  else
    let start := allParams.map fun p => (p.num, segments p.name.toList)
    let left := (segments name.toList).foldl (fun cs s => narrow s cs) start
    match left.filter fun c => c.2 = [] with
    | [c] => some c.1
    | _ => none

/-- A word that stands for one of several, abbreviated where `strict` is false (R32): its position. -/
def byWord (strict : Bool) (words : List String) (t : String) : Option Nat :=
  let w := lowerText t
  match words.findIdx? (· = w) with
  | some i => some i
  | none =>
    if strict ∨ w = "" then none
    else
      let hits := (List.range words.length).filter fun i => w.toList.isPrefixOf (words.getD i "").toList
      match hits with
      | [i] => some i
      | _ => none

end Sys2Proof.Machine
end

