-- ==== Sys2Proof/Machine/Store.lean ====
section
/-! DEFINITION. The stored values of the parameters and their ranges (R39, R40, R46, R48, R85, R94, R97, R299, R319,
R350), and the canonical form of the memories. -/

namespace Sys2Proof.Machine

/-- The memories keep their canonical form. -/
def Memories.wf (m : Memories) : Bool :=
  sorted blankByte m.a && sorted blankByte m.b && sorted 0 m.sram && sorted 0 m.cellar

/-- Default of a parameter. -/
def pDefault (n : Nat) : Int :=
  match info n with
  | some p => p.dflt
  | none => 0

/-- Value of a settable parameter in a store: the stored value, or the default (R368). -/
def pLook (ps : List (Nat × Int)) (n : Nat) : Int :=
  match ps.find? fun q => q.1 = n with
  | some q => q.2
  | none => pDefault n

/-- Stores a value; a default is not listed. -/
def pStore (ps : List (Nat × Int)) (n : Nat) (v : Int) : List (Nat × Int) := store (pDefault n) ps n v

/-- Stored value of a settable parameter. -/
def pget (s : State) (n : Nat) : Int := pLook s.cm.params n

/-- The same as a Nat, for parameters that are never negative. -/
def pnat (s : State) (n : Nat) : Nat := (pget s n).toNat

/-- Number of a run parameter (R10). -/
def rp (r : Run) (off : Nat) : Nat := (r.val + 1) * 0x1000 + off

/-- The capture base: the first capture-region address, from the cellar words in force (R220). -/
def captureBase (s : State) : Nat := 0x10000000 + 4 * s.qu.cellar

/-- Chute mode (R192). -/
def chute (s : State) : Bool := s.ident.variant = .n4 || s.qu.chuteSelftest

/-- Cells that are retired, numbered as the subjects of R330 (R332, R335). -/
def retired (s : State) : List Nat :=
  (s.sp.table.filterMap fun e => if (e.kind = 1 ∨ e.kind = 2) ∧ e.st ≠ 3 then some e.failed else none)
  ++ s.sp.fuses.filterMap fun f => if f.1 = 1 then some f.2.1 else none

/-- A range: its ends, and its points where it is a list. -/
structure Rng where
  lo : Int
  hi : Int
  pts : Option (List Int)
  deriving DecidableEq, Repr

/-- Codes `a … b`. -/
def codes (a b : Int) : List Int := (List.range (b - a + 1).toNat).map fun (k : Nat) => a + (k : Int)

/-- A range of one value. -/
def single (v : Int) : Rng := ⟨v, v, some [v]⟩

/-- The number of the parameter within its run, and the run, for a run parameter. -/
def runOffset (n : Nat) : Option (Run × Nat) :=
  if h : 0x1000 ≤ n ∧ n < 0x5000 then some (⟨n / 0x1000 - 1, by omega⟩, n % 0x1000) else none

/-- Numbers of the parameters that assign cells of the same kind (R84): fast for lift and vibration, else slow. -/
def cellParams (fast : Bool) : List Nat :=
  (List.range 4).flatMap fun k =>
    let b := (k + 1) * 0x1000
    if fast then [b + 0x200, b + 0x202] else [b + 0x210, b + 0x220]

/-- Whether a parameter assigns a cell, and whether a fast one. -/
def cellKind (n : Nat) : Option Bool :=
  if n ∈ cellParams true then some true else if n ∈ cellParams false then some false else none

/-- Codes of the cells of a kind that are not retired. -/
def soundCells (s : State) (fast : Bool) : List Int :=
  (List.range (if fast then 10 else 9)).filterMap fun (k : Nat) =>
    if (if fast then k + 1 else k + 11) ∈ retired s then none else some (k : Int)

/-- A parameter's own fixed range, with the limits that facts of the module set (R46). -/
def fixedRange (s : State) (p : PInfo) : Rng :=
  let whole : Rng := match p.kind with
    | .list _ a => ⟨p.lo, p.hi, some a⟩
    | .enum _ _ => ⟨p.lo, p.hi, some (codes p.lo p.hi)⟩
    | _ => ⟨p.lo, p.hi, none⟩
  match cellKind p.num with
  | some fast => { whole with pts := some (soundCells s fast) }
  | none =>
    if p.num = 0x0101 ∧ s.pw.form = .rs485 then single 0
    else if p.num = 0x7001 ∧ s.ident.variant = .n4 then single p.dflt
    else if p.num = 0x7004 ∧ chute s then ⟨8, 64, none⟩
    else if 0x7100 ≤ p.num ∧ p.num < 0x7150 then
      if p.num % 16 = 1 ∧ p.num ≠ 0x7101 ∧ p.num ≠ 0x7121 then whole
      else if p.num = 0x7138 ∨ p.num = 0x7147 then single (captureBase s)
      else single p.dflt
    else whole

/-- Nominal resistance of a standard curve, 0.001 Ω (Table 4.2). -/
def curveRnom (code : Int) : Option Int :=
  if code = 1 then some 100000 else if code = 2 then some 200000 else if code = 3 then some 500000
  else if code = 4 then some 1000000 else if code = 5 then some 100000 else if code = 6 then some 1000000 else none

/-- The bridge of a run is alternating and 6-wire (R319). -/
def bridgeFit (env : Nat → Int) (r : Run) : Bool := 2 ≤ env (rp r 0x222) && env (rp r 0x221) = 1

/-- Table whose revision a parameter holds, for the rule of fewer than 2 breakpoints (R97). -/
def revDrafts (s : State) (n : Nat) : Option (List Nat) :=
  match runOffset n with
  | none => none
  | some (r, o) =>
    let t := s.runs[r]
    if o = 0x219 then some [t.tabTemp.draft.length]
    else if o = 0x229 then some [t.tabPress.draft.length]
    else if o = 0x402 then some [t.tabK.draft.length]
    else none

/-- Range of a safety run parameter `arm` or `inputs` (R319). -/
def armRange (env : Nat → Int) (num : Nat) (whole : Rng) : Rng :=
  if h : 0xA100 ≤ num ∧ num < 0xA140 then
    let r : Run := ⟨(num - 0xA100) / 0x10, by omega⟩
    let b := 0xA100 + 0x10 * r.val
    if num % 16 = 0 ∧ env (b + 1) ≠ 2 ∧ bridgeFit env r = false then single 0
    else if num % 16 = 1 ∧ env b = 1 ∧ bridgeFit env r = false then single 2
    else whole
  else whole

/-- Range of a run parameter that depends on others (R85, R92, R94, R97, R154, R319). -/
def runRange (s : State) (env : Nat → Int) (r : Run) (o : Nat) (cur : Int) (whole : Rng) : Rng :=
  let b := 0xA100 + 0x10 * r.val
  let judgesPress : Bool := env b = 1 && env (b + 1) ≠ 2
  if o = 0x213 then (if env (rp r 0x211) = 0 then single 1 else whole)
  else if o = 0x215 then (match curveRnom (env (rp r 0x214)) with | some v => single v | none => whole)
  else if o = 0x221 then (if judgesPress then single 1 else whole)
  else if o = 0x222 then (if judgesPress then { whole with lo := 2, pts := some [2, 3] } else whole)
  else if o = 0x227 then ⟨env (rp r 0x225) + 100, 640000, none⟩
  else if o = 0x513 then ⟨env (rp r 0x512), 600000, none⟩
  else if o = 0x40A then
    let t := s.runs[r]
    if t.tabDens.draft.length = 1 ∨ t.tabEnth.draft.length = 1 ∨ t.tabZ.draft.length = 1 then single cur else whole
  else match revDrafts s ((r.val + 1) * 0x1000 + o) with
    | some [k] => if k < 2 then single cur else whole
    | _ => whole

/-- Range as it stands, other parameters counting at `env` (R48). `cur` is the parameter's current value. -/
def liveRange (s : State) (env : Nat → Int) (cur : Int) (p : PInfo) : Rng :=
  let whole := fixedRange s p
  match runOffset p.num with
  | some (r, o) => runRange s env r o cur whole
  | none =>
    if p.num = 0x0104 ∨ p.num = 0x0114 then ⟨0, env (p.num - 1) - 1, none⟩
    else if p.num = 0x6002 then ⟨env 0x6001 + 50, 2000, none⟩
    else if 0x7150 ≤ p.num ∧ p.num < 0x7180 ∧ p.num % 16 = 4 then ⟨0, env (p.num - 1) - 1, none⟩
    else if 0x9000 ≤ p.num ∧ p.num < 0x9100 ∧ p.num % 0x40 = 0x24 then ⟨env (p.num - 1) + 1, p.hi, none⟩
    else if 0x9000 ≤ p.num ∧ p.num < 0x9100 ∧ p.num % 0x40 = 0x35 then ⟨env (p.num - 1) + 10, 1000, none⟩
    else if 0x9300 ≤ p.num ∧ p.num < 0x9340 ∧ p.num % 16 = 0 then
      if env 0xA003 = (p.num - 0x9300) / 0x10 + 1 then single 1 else { whole with pts := some [0, 2, 3] }
    else armRange env p.num whole

/-- Nearest of the points to `x ÷ d`; of two equally near ones the larger where `high`, else the smaller. -/
def nearest (high : Bool) (x : Int) (d : Nat) (pts : List Int) : Option Int :=
  pts.foldl (fun best q =>
    match best with
    | none => some q
    | some b =>
      let db := (x - b * d).natAbs
      let dq := (x - q * d).natAbs
      if dq < db ∨ (dq = db ∧ (if high then b < q else q < b)) then some q else some b) none

/-- Whether a tie goes to the larger value: lists of R39 yes, enumerations and cells no (R40, R85). -/
def tieHigh (k : Kind) : Bool :=
  match k with
  | .list _ _ => true
  | _ => false

/-- Clamps a code into a range; none where the range has no point (R85). -/
def settle (k : Kind) (r : Rng) (x : Int) : Option Int :=
  match r.pts with
  | some pts => nearest (tieHigh k) x 1 pts
  | none => some (clampInt r.lo r.hi x)

/-- A number as a code of its kind, clamped and rounded (R39, R104, R128). -/
def numberCode (k : Kind) (r : Rng) (d : Dec) : Option Int :=
  let den := 10 ^ d.scale
  match r.pts with
  | some pts =>
    let dec := match k with | .num dec _ => dec | _ => 0
    nearest (tieHigh k) (d.mant * 10 ^ dec) den pts
  | none =>
    let code := match k with
      | .num dec step => step * roundDiv (d.mant * 10 ^ dec) (den * step)
      | .gain => roundDiv (d.mant * 16384) den
      | .rate => roundDiv (d.mant * 2 ^ 32) (den * 48000)
      | _ => roundDiv d.mant den
    some (clampInt r.lo r.hi code)

/-- A value as the module writes it (R370). -/
def valueText (k : Kind) (v : Int) : String :=
  match k with
  | .num dec _ => decText dec v
  | .list dec _ => decText dec v
  | .enum base names => names.getD (v - base).toNat ""
  | .hex digits _ => hexText digits v.toNat
  | .source => hexText 4 v.toNat
  | .gain => decText 6 (roundDiv (v * 1000000) 16384)
  | .rate => decText 6 (roundDiv (v * 48000 * 1000000) (2 ^ 32))
  | .ro dec => decText dec v
  | .counter => intText v
  | .roEnum names | .roNames names => names.getD v.toNat ""
  | _ => intText v

end Sys2Proof.Machine
end

