-- ==== Sys2Proof/Machine/Ops.lean ====
section
/-! DEFINITION. Shared operations: time, runs, lines and notes (R36, R38, R55), the ledger writer (R224 ... R239), the
journal queue's producers (R185 ... R195), events (R164) and the transitions of the module state (R23). -/

namespace Sys2Proof.Machine

/-- Milliseconds since 2020. -/
def nowMs (s : State) : Nat := s.ck.t / 10000000
/-- Seconds since 2020. -/
def nowSec (s : State) : Nat := s.ck.t / 10000000000
/-- The fast domain is not held in reset by NRST (R25). -/
def fastFree (s : State) : Bool := s.pw.ms ≠ .cold && s.pw.ms ≠ .keep && !s.pw.nrst
/-- The fast domain is awake: in a burst or a pass, and throughout STOP (R80). -/
def awake (s : State) : Bool := s.pw.pass ≠ .asleep || s.pw.ms = .stop
/-- RUN or SAFE: the module measures (Table 1.4). -/
def measuring (s : State) : Bool := s.pw.ms = .run || s.pw.ms = .safe
/-- The fast domain exists: every state but COLD and KEEP (Table 1.4). -/
def fastOn (s : State) : Bool := s.pw.ms ≠ .cold && s.pw.ms ≠ .keep
/-- The lines serve: supply, and not held by NRST (R21, R25). -/
def linesUp (s : State) : Bool := s.pw.supply && s.pw.ms ≠ .cold && !s.pw.nrst

/-- State codes of Table 8.3. -/
def stateCode : ModState → Nat
  | .cold => 0 | .keep => 1 | .start => 2 | .run => 3 | .stop => 4 | .held => 5 | .safe => 6

/-- Role codes of Table 18.11. -/
def roleCode : Role → Nat
  | .view => 0 | .operate => 1 | .metrology => 2 | .safety => 3

/-- Role names (R43). -/
def roleName : Role → String
  | .view => "view" | .operate => "operate" | .metrology => "metrology" | .safety => "safety"

/-- Line codes of Table 18.11. -/
def lineCode : Line → Nat
  | .host => 1 | .service => 2

/-- Name of a line. -/
def lineName : Line → String
  | .host => "host" | .service => "service"

/-- Base number of a line's parameters (Table 2.4). -/
def lineBase : Line → Nat
  | .host => 0x100 | .service => 0x110

def State.modRun (s : State) (r : Run) (f : RunSt → RunSt) : State :=
  { s with runs := s.runs.set r.val (f s.runs[r]) r.isLt }
def State.line (s : State) (l : Line) : LineSt :=
  match l with
  | .host => s.host
  | .service => s.service
def State.modLine (s : State) (l : Line) (f : LineSt → LineSt) : State :=
  match l with
  | .host => { s with host := f s.host }
  | .service => { s with service := f s.service }
def State.modQueue (s : State) (f : Queue → Queue) : State := { s with qu := f s.qu }
def State.modChan (s : State) (g : Channel) (f : Chan → Chan) : State :=
  { s with ga := { s.ga with chans := s.ga.chans.set g.val (f s.ga.chans[g]) g.isLt } }
def State.modMachine (s : State) (m : Fin 8) (f : StMachine → StMachine) : State :=
  { s with ev := { s.ev with machines := s.ev.machines.set m.val (f s.ev.machines[m]) m.isLt } }

/-- All runs. -/
def allRuns : List Run := [0, 1, 2, 3]
/-- Both lines. -/
def allLines : List Line := [.host, .service]

/-! ## Gather channels -/

/-- First parameter of a channel. -/
def chanBase (g : Channel) : Nat := 0x7100 + 0x10 * g.val

/-- Starts a program: working addresses from the bases, but the source of G0 and G2, which the conversation sets
(R211, R220, R223). -/
def startChan (g : Channel) (s : State) : State :=
  let b := chanBase g
  s.modChan g fun c => { c with
    st := .run, pc := pnat s b
    src := if g.val = 0 ∨ g.val = 2 then c.src else BitVec.ofNat 32 (pnat s (b + 7))
    dst := BitVec.ofNat 32 (pnat s (b + 8)), loops := Vector.replicate 4 none, crc := 0xFFFFFFFF, moved := 0, burst := 0
    waitUntil := none, discard := 0, shedMove := false, markReady := false, stopReq := false }

/-- The channels G5 … G7 whose `auto` is on and which are idle start on entering RUN (R220). -/
def autoChannels (s : State) : State :=
  ([5, 6, 7] : List Channel).foldl (fun t g =>
    if pget t (chanBase g + 9) = 1 ∧ t.ga.chans[g].st = .idle then startChan g t else t) s

/-! ## Lines and notes -/

/-- Whether a line is free to transmit: served, and not a half-received RS-485 line within 100 ms (R352). -/
def canSend (s : State) (l : Line) : Bool :=
  linesUp s &&
    !(l = .host && s.pw.form = .rs485 && (s.host.buf ≠ [] || s.host.discard) && s.ck.mono < s.host.charAt + 100)

/-- A line echoes characters (R31). -/
def LineSt.echo (cs : List Char) (x : LineSt) : LineSt :=
  { x with echoed := x.echoed ++ cs, shown := x.shown ++ cs.map .ch }

/-- A line sends whole lines. -/
def LineSt.say (texts : List String) (x : LineSt) : LineSt :=
  { x with sent := x.sent ++ texts, shown := x.shown ++ texts.map .line }

/-- Sends one notice. With echo on and a part of a line held, CR LF goes before it, and the held characters follow again
(R31). -/
def sendText (s : State) (l : Line) (text : String) : State :=
  let again : Bool := pget s (lineBase l + 1) = 1 && (s.line l).buf ≠ [] && (s.line l).buf.head? ≠ some '#'
  let ahead := if again then ['\r', '\n'] else []
  let behind := if again then (s.line l).buf else []
  s.modLine l fun x => ((x.echo ahead).say [text]).echo behind

/-- Puts a note into a line's buffer: 32 watch notes and 8 others; the oldest goes when it is full (R55). -/
def pushNote (isWatch : Bool) (text : String) (x : LineSt) : LineSt :=
  if isWatch then
    if x.watchNotes.length < 32 then { x with watchNotes := x.watchNotes ++ [text] }
    else { x with watchNotes := x.watchNotes.tail ++ [text], dropped := x.dropped + 1 }
  else if x.otherNotes.length < 8 then { x with otherNotes := x.otherNotes ++ [text] }
  else { x with otherNotes := x.otherNotes.tail ++ [text], dropped := x.dropped + 1 }

/-- A notice to one line; unpowered lines take none (R57). -/
def noteTo (l : Line) (text : String) (s : State) : State :=
  if s.pw.supply then s.modLine l (pushNote false ("note " ++ text)) else s

/-- A notice that belongs to no line goes to both (log 16). -/
def noteAll (text : String) (s : State) : State := noteTo .service text (noteTo .host text s)

/-- Notices of a series take the room of 8 as far as it is free (R55, log 37). -/
def LineSt.handOver (x : LineSt) : LineSt :=
  let k := 8 - x.otherNotes.length
  { x with otherNotes := x.otherNotes ++ x.series.take k, series := x.series.drop k }

/-- The notices of one command to one line: each is handed over as the line takes it, so none of them drops another
(log 37). -/
def noteSeries (l : Line) (texts : List String) (s : State) : State :=
  if s.pw.supply then
    s.modLine l fun x => { x with series := x.series ++ texts.map ("note " ++ ·) }.handOver
  else s

/-- A note with its check where the line's note-check parameter is on (R55). -/
def noteLine (s : State) (l : Line) (text : String) : String :=
  if pget s (lineBase l + 2) = 1 then text ++ checkField text else text

/-- Sends the waiting notes of a line, those of a series as they are handed over, then `note lost` (R55). -/
def flushLine (l : Line) (s : State) : State :=
  let x := s.line l
  if canSend s l && (x.otherNotes ≠ [] || x.series ≠ [] || x.watchNotes ≠ [] || x.dropped ≠ 0) then
    let lost := if x.dropped = 0 then [] else ["note lost " ++ natText x.dropped]
    let s1 := s.modLine l fun y => { y with otherNotes := [], series := [], watchNotes := [], dropped := 0,
                                             cntLost := y.cntLost + BitVec.ofNat 32 y.dropped }
    (x.otherNotes ++ x.series ++ x.watchNotes ++ lost).foldl (fun t n => sendText t l (noteLine s l n)) s1
  else s

/-- Sends what waits on both lines. -/
def flushNotes (s : State) : State := flushLine .service (flushLine .host s)

/-- The outcome of a meaning: its next state, with the notices that may leave. -/
def done (s : State) : Host.Outcome State Fault Refusal := .next (flushNotes s)

/-- A line that answers a command, with tag and check where the command was tagged (R33, R36). -/
def replyText (tag : Option Nat) (text : String) : String :=
  match tag with
  | none => text
  | some n =>
    let t := "#" ++ natText n ++ " " ++ text
    t ++ checkField t

/-! ## Ledger -/

/-- Whether copy A, and whether copy B, is written (R242). -/
def copyUsed (s : State) : Bool × Bool := (s.lg.state ≠ .singleB, s.lg.state ≠ .singleA)

/-- Counts a write in each 4 KiB sector it touches (Table 16.4); keys are copy × 4096 + sector. -/
def countSectors (fw : List (Nat × Nat)) (copy off n : Nat) : List (Nat × Nat) :=
  let first := off / 4096
  let last := (off + n - 1) / 4096
  (List.range (last - first + 1)).foldl
    (fun w k => let key := copy * 4096 + first + k; store 0 w key (fetch 0 w key + 1)) fw

/-- Writes bytes at an offset of copy A and then of copy B (R227). -/
def putBytes (s : State) (off : Nat) (bs : List Byte) : State :=
  let u := copyUsed s
  let fwA := if u.1 then countSectors s.sp.framWrites 0 off bs.length else s.sp.framWrites
  let fwB := if u.2 then countSectors fwA 1 off bs.length else fwA
  { s with
    mem := { s.mem with a := if u.1 then storeAll blankByte s.mem.a off bs else s.mem.a
                        b := if u.2 then storeAll blankByte s.mem.b off bs else s.mem.b }
    sp := { s.sp with framWrites := fwB } }

/-- The copy that reads are served from: A, or B alone (R242). -/
def goodCopy (s : State) : List Host.Cell := if s.lg.state = .singleB then s.mem.b else s.mem.a

/-- Words of bytes, little-endian (R5). -/
def leWords : List Byte → List Word
  | a :: b :: c :: d :: r => BitVec.ofNat 32 (fromLe [a, b, c, d]) :: leWords r
  | [] => []
  | bs => [BitVec.ofNat 32 (fromLe bs)]

/-- Bytes of words. -/
def wordBytes (ws : List Word) : List Byte := ws.flatMap fun w => leBytes 4 w.toNat

/-- Offset of a chain's area: interval, close, event, audit (Table 11.1, R230). -/
def areaOff (k : Fin 4) : Nat :=
  match k with | 0 => 0x2C0000 | 1 => 0xC20000 | 2 => 0x140000 | 3 => 0x240000
/-- Records of a chain's area (Table 11.9). -/
def areaSize (k : Fin 4) : Nat :=
  match k with | 0 => 153600 | 1 => 11264 | 2 => 32768 | 3 => 16384
/-- Record size of a chain's area. -/
def recSize (k : Fin 4) : Nat :=
  match k with | 0 => 48 | 1 => 320 | 2 => 32 | 3 => 32
/-- Chained content of a record (R230). -/
def contentLen (k : Fin 4) : Nat :=
  match k with | 0 => 48 | 1 => 176 | 2 => 24 | 3 => 24

/-- Offsets of interval tags and of outcome entries (Table 11.1). -/
def tagOff (i : Nat) : Nat := 0x9C8000 + 8 * i
def outcomeOff (i : Nat) : Nat := 0xAF4000 + 8 * i
/-- Offset of record `i` of a chain (R224). -/
def recOff (k : Fin 4) (i : Nat) : Nat := areaOff k + recSize k * i

/-- The genesis value of a chain (R230). -/
def genesis (id : Ident) (k : Fin 4) : List Byte := genesisOf id.key id.serial k

/-- Head of a chain; a chain that has written nothing gives its genesis value (R232). -/
def headOf (s : State) (k : Fin 4) : List Byte := s.lg.chains[k].head.getD (genesis s.ident k)
/-- Base of a chain. -/
def baseOf (s : State) (k : Fin 4) : List Byte := s.lg.chains[k].base.getD (genesis s.ident k)

/-- A directory generation (Table 11.14). -/
def dirBytes (s : State) (gen : Word) : List Byte :=
  dirOf gen s.ident.serial s.ident.key s.lg.keys ((List.finRange 4).map fun k =>
    ⟨headOf s k, baseOf s k, s.lg.chains[k].next, s.lg.chains[k].written⟩)

/-- Writes the next directory generation in the other place (R225). -/
def writeDir (s : State) : State :=
  let gen := s.lg.gen + 1
  putBytes { s with lg := { s.lg with gen := gen } } ((gen.toNat % 2) * 1024) (dirBytes s gen)

/-- Records of a chain that exist: the written ones that the ring still holds (R226, R239). -/
def recordCount (s : State) (k : Fin 4) : Nat := min s.lg.chains[k].written (areaSize k)

/-- Index of the oldest record of a chain. -/
def oldestIndex (s : State) (k : Fin 4) : Nat :=
  if s.lg.chains[k].written < areaSize k then 0 else s.lg.chains[k].next

/-- Whether a record exists (R226). -/
def recordExists (s : State) (k : Fin 4) (i : Nat) : Bool :=
  if s.lg.chains[k].written < areaSize k then i < s.lg.chains[k].next else i < areaSize k

/-- Content of a record from a copy. -/
def contentAt (copy : List Host.Cell) (k : Fin 4) (i : Nat) : List Byte :=
  fetchAll blankByte copy (recOff k i) (contentLen k)

/-- Offset of the tag of a record. -/
def recTagOff (k : Fin 4) (i : Nat) : Nat :=
  match k with
  | 0 => tagOff i
  | 1 => recOff 1 i + 176
  | 2 => recOff 2 i + 24
  | 3 => recOff 3 i + 24

/-- Tag of a record from a copy. -/
def tagAt (copy : List Host.Cell) (k : Fin 4) (i : Nat) : List Byte := fetchAll blankByte copy (recTagOff k i) 8

/-- The chain value of a record that follows the head (R230). -/
def nextValue (s : State) (k : Fin 4) (content : List Byte) : List Byte := sha256 (headOf s k ++ content)

/-- The directory entry after a record with chain value `d`; the base moves when the ring overwrites (R239). -/
def chainAfter (s : State) (k : Fin 4) (d : List Byte) : Chain :=
  let c := s.lg.chains[k]
  let base := if areaSize k ≤ c.written then
      some (sha256 (baseOf s k ++ contentAt (goodCopy s) k c.next)) else c.base
  { head := some d, base := base, next := (c.next + 1) % areaSize k, written := c.written + 1 }

/-- Writes a chained record: its parts to both copies, then the directory (R227, R230). The parts are offsets and
bytes. -/
def writeChained (s : State) (k : Fin 4) (d : List Byte) (parts : List (Nat × List Byte)) : State :=
  let c := chainAfter s k d
  let s1 := parts.foldl (fun t p => putBytes t p.1 p.2) s
  writeDir { s1 with lg := { s1.lg with chains := s1.lg.chains.set k.val c k.isLt } }

/-! ## The journal queue's producers -/

/-- Words waiting in the queue: unread, reserved or void (R193). -/
def fillOf (q : Queue) : Nat :=
  (q.regions.map (·.len)).sum + (match q.port with | some p => p.left.length | none => 0)

/-- Capacity (Table 9.2). -/
def capacity (s : State) : Nat := if chute s then 160 else 128 + s.qu.cellar
/-- Event reserve (Table 9.2). -/
def eventReserve (s : State) : Nat := if chute s then 40 else 4096

/-- Limit of a class (Table 9.2). -/
def classLimit (s : State) (cls : Nat) : Nat :=
  let g := capacity s - eventReserve s
  if cls = 1 then capacity s else if cls = 2 then 9 * g / 10 else 3 * g / 4

/-- A reservation is granted when fill + length does not exceed the limit (R193). -/
def fits (s : State) (cls len : Nat) : Bool := fillOf s.qu + len ≤ classLimit s cls

/-- Order of granting by origin (R194). -/
def originRank (o : Nat) : Nat := if o = 1 then 0 else if o = 2 then 1 else if o = 0 then 2 else 3 + (o - 8)

/-- The header word of Table 9.1. -/
def header (cls origin len subject : Nat) (seq : BitVec 8) : Word :=
  BitVec.ofNat 32 (cls * 2 ^ 30 + origin % 16 * 2 ^ 26 + (len - 1) % 256 * 2 ^ 16 + subject % 256 * 2 ^ 8 + seq.toNat)

/-- The next sequence of an origin, which advances with each packet started (R187). -/
def takeSeq (s : State) (origin : Nat) : BitVec 8 × State :=
  let i : Fin 16 := ⟨origin % 16, Nat.mod_lt _ (by decide)⟩
  (s.qu.seqs[i], s.modQueue fun q => { q with seqs := q.seqs.set i.val (q.seqs[i] + 1) i.isLt })

/-- Drops leading void regions, which the read port skips (R195). -/
def dropVoids : List Region → List Region
  | [] => []
  | r :: rs => if r.void then dropVoids rs else r :: rs

/-! ### Where the words lie -/

/-- Written words at the front of the regions: up to the first that an open reservation still lacks. -/
def writtenAhead : List Region → Nat
  | [] => 0
  | r :: rs => if r.committed || r.void then r.len + writtenAhead rs else r.words.length

/-- Words at the front of the regions that are committed or void. -/
def committedAhead : List Region → Nat
  | [] => 0
  | r :: rs => if r.committed || r.void then r.len + committedAhead rs else 0

/-- Words of the open packet that are unread. -/
def portWords (q : Queue) : Nat := match q.port with | some p => p.left.length | none => 0

/-- Words move from the tail landing through the middle to the head landing, straight where the middle is empty, else in
bursts (R190, R192): the words of the head landing and of the middle after all moves that are possible. By fuel. -/
def flow (room burst : Nat) : Nat → Nat → Nat → Nat → Nat × Nat
  | 0, h, m, _ => (h, m)
  | n + 1, h, m, t =>
    if m = 0 ∧ h < 64 ∧ 0 < t then flow room burst n (h + min (64 - h) t) 0 (t - min (64 - h) t)
    else if 0 < m ∧ h + min burst m ≤ 64 then flow room burst n (h + min burst m) (m - min burst m) t
    else if burst ≤ t ∧ m + burst ≤ room then flow room burst n h (m + burst) (t - burst)
    else (h, m)

/-- A position with its complement (R199). -/
def position (x : Word) : Word × Word := (x, ~~~ x)

/-- The queue after words were written, or `read` words have left at its front: the words move on (R190, R192), which takes
less than the model's millisecond, and the positions follow (R199). Log 96. -/
def State.settle (read : Nat) (s : State) : State :=
  let q := s.qu
  let n := portWords q + writtenAhead q.regions
  let h := min (q.inHead - read) n
  let m := min (q.inMiddle - (read - q.inHead)) (n - h)
  let x := flow (if chute s then 32 else q.cellar) (if chute s then 1 else 16) (2 * n + 2) h m (n - h - m)
  let rd := q.rdAt.1 + BitVec.ofNat 32 read
  s.modQueue fun q => { q with
    inHead := x.1, inMiddle := x.2, rdAt := position rd, wrAt := position (rd + BitVec.ofNat 32 (fillOf q))
    cmAt := position (rd + BitVec.ofNat 32 (portWords q + committedAhead q.regions)) }

/-- A channel starts its packet with the grant and takes its sequence then; the other producers have taken theirs (R187). -/
def startPacket (s : State) (w : Waiter) : State := if w.origin < 8 then s else (takeSeq s w.origin).2

/-- Words of a packet as its region takes them: with the sequence in a channel's header. -/
def startWords (s : State) (w : Waiter) : List Word :=
  if w.origin < 8 then w.words else w.words.map (· ||| BitVec.ofNat 32 (takeSeq s w.origin).1.toNat)

/-- The region of a waiter. -/
def regionOf (s : State) (w : Waiter) : Region :=
  { origin := w.origin, cls := w.cls, len := w.len, words := startWords s w
    committed := decide (w.len ≤ w.words.length), void := false, at_ := s.ck.awake }

/-- Grants a waiter its region; the linger timer restarts when the queue was empty (R193, R198). -/
def grant (s : State) (w : Waiter) : State :=
  State.settle 0 ((startPacket s w).modQueue fun q =>
    let q1 := { q with
      regions := q.regions ++ [regionOf s w], lingerFrom := if fillOf q = 0 then s.ck.mono else q.lingerFrom }
    { q1 with peak := max q1.peak (fillOf q1) })

/-- The longest packet (Table 9.2). The ledger writer's close packet of 81 words is granted by R193 alone (DEDUCED,
log 98). -/
def longest (s : State) (origin : Nat) : Nat := if chute s && origin ≠ 2 then 64 else 256

/-- A waiter can be granted now (R193). -/
def canGrant (s : State) (w : Waiter) : Bool := fits s w.cls w.len && w.len ≤ longest s w.origin

/-- Asks for a region: granted at once where it can be and no producer that waits comes before (R194). -/
def ask (s : State) (w : Waiter) : State :=
  if canGrant s w && s.qu.waiters.all (fun v => originRank w.origin < originRank v.origin) then grant s w
  else s.modQueue fun q => { q with waiters := q.waiters ++ [w] }

/-- Counts a shed packet, opens or extends the shedding spell and notes it at most once per second (R194). -/
def shed (s : State) (cls : Nat) : State :=
  let q := s.qu
  let sp := match q.spell with
    | some (a, b, _, n2, n3) => (a, b, s.ck.mono, n2 + (if cls = 2 then 1 else 0), n3 + (if cls = 3 then 1 else 0))
    | none => (nowMs s, s.ck.mono, s.ck.mono, if cls = 2 then 1 else 0, if cls = 3 then 1 else 0)
  let due : Bool := match q.shedNote with
    | some t => t + 1000 ≤ s.ck.mono
    | none => true
  let s1 := s.modQueue fun q => { q with
    shed2 := if cls = 2 then q.shed2 + 1 else q.shed2
    shed3 := if cls = 3 then q.shed3 + 1 else q.shed3
    spell := some sp
    shedNote := if due then some s.ck.mono else q.shedNote }
  if due then noteAll ("queue shed " ++ natText cls ++ " " ++ natText (if cls = 2 then sp.2.2.2.1 else sp.2.2.2.2)) s1
  else s1

/-- A whole packet of the ledger writer or the event engine (R185, R186): class 1, never shed. -/
def packet (s : State) (origin subject : Nat) (payload : List Word) : State :=
  if fastOn s then
    let len := payload.length + 1
    let (q, s1) := takeSeq s origin
    ask s1 { origin := origin, cls := 1, words := header 1 origin len subject q :: payload, len := len,
             since := s.ck.mono }
  else s

/-- A ledger record's packet (R227): the record, then its tag. -/
def ledgerPacket (s : State) (kind : Nat) (bytes : List Byte) : State := packet s 2 kind (leWords bytes)

/-- Adds a completion record: to the last 256, and to its slot at 0007_C000h (R203, R217). -/
def pushRing (s : State) (rec_ : List Word) : State :=
  { s with ga := { s.ga with ring := (s.ga.ring ++ [rec_]).drop (s.ga.ring.length + 1 - 256)
                             ringNext := (s.ga.ringNext + 1) % 256, ringUsed := s.ga.ringUsed + 1 }
           mem := { s.mem with sram := storeAll 0 s.mem.sram (0x1F000 + 4 * s.ga.ringNext) rec_ } }

/-- Frees the records of the completion ring, and posts those that waited for a slot, lower channels first (R217). -/
def freeRing (s : State) : State :=
  if !awake s then s
  else (List.finRange 8).foldl (fun t g => match t.ga.chans[g].ringWait with
    | some q => pushRing (t.modChan g fun c => { c with ringWait := none }) q.1
    | none => t) { s with ga := { s.ga with ringUsed := 0 } }

/-! ## Ring and audit records -/

/-- Seconds, then milliseconds with a six-bit kind, of a time in ms since 2020 (Tables 11.5, 11.7). -/
def stampAt (ms kind : Nat) : List Byte := leBytes 4 (ms / 1000) ++ leBytes 2 (ms % 1000 * 64 + kind % 64)

/-- The stamp of now. -/
def stamp (s : State) (kind : Nat) : List Byte :=
  leBytes 4 (nowSec s) ++ leBytes 2 (nowMs s % 1000 * 64 + kind % 64)

/-- Appends a record to the event chain (2) or the audit chain (3) and sends its packet. -/
def appendSmall (s : State) (k : Fin 4) (content : List Byte) : State :=
  let d := nextValue s k content
  let bytes := content ++ d.take 8
  ledgerPacket (writeChained s k d [(recOff k s.lg.chains[k].next, bytes)]) (if k = 2 then 3 else 4) bytes

/-- Writes a ring record: 1 event, 2 suppressed count, 3 machine note, 4 module note (R235). -/
def appendRing (s : State) (type code : Nat) (payload : List Byte) : State :=
  appendSmall s 2 (stamp s type ++ leBytes 2 code ++ fit 16 0 payload)

/-- Writes a module note (R236). -/
def moduleNote (s : State) (code : Nat) (payload : List Byte) : State := appendRing s 4 code payload

/-- Writes an audit record (R237). -/
def audit (kind line role detail subject : Nat) (old new : Int) (s : State) : State :=
  appendSmall s 3 (stamp s kind ++ leBytes 1 (line * 64 + role * 8) ++ leBytes 1 detail ++ leBytes 2 subject
    ++ leInt 6 old ++ leInt 6 new ++ [0, 0])

/-- An audit record of a line command. -/
def auditLine (l : Line) (kind detail subject : Nat) (old new : Int) (s : State) : State :=
  audit kind (lineCode l) (roleCode (s.line l).role) detail subject old new s

/-! ## Events and transitions -/

/-- Raises an event for the next tick (R164). -/
def raiseEvent (code run : Nat) (v1 v2 : Int) (origin inst : Nat) (s : State) : State :=
  { s with ev := { s.ev with raised := s.ev.raised ++ [⟨code, run, v1, v2, origin, inst⟩] } }

/-- Cause codes of an audit transition (log 17). -/
inductive Cause where
  | supplyApplied | cellFitted | supplyReturn | startCommand | cellEnd | sequence | selfTest | stopCommand | supplyLoss
  | safety | reset | stopDone | nrst
  deriving DecidableEq, Repr

/-- Detail byte of a cause (log 17). -/
def causeCode : Cause → Nat
  | .supplyApplied => 1 | .cellFitted => 2 | .supplyReturn => 3 | .startCommand => 4 | .cellEnd => 5 | .sequence => 6
  | .selfTest => 7 | .stopCommand => 8 | .supplyLoss => 9 | .safety => 10 | .reset => 11 | .stopDone => 12 | .nrst => 13

/-- The name of a module state. -/
def stateName (m : ModState) : String := stateNames.getD (stateCode m) ""

/-- The transition's audit entry; one out of COLD waits until the clock is valid (R23). -/
def auditTransition (old new : ModState) (line role : Nat) (c : Cause) (s : State) : State :=
  if old = .cold ∧ s.ck.valid = false then
    { s with ck := { s.ck with fromCold := s.ck.fromCold ++ [(stateCode new, causeCode c)] } }
  else audit 0x07 line role (causeCode c) (stateCode old * 256 + stateCode new) 0 0 s

/-- Rank of a cause in the order of R26. -/
def causeRank : Cause → Nat
  | .supplyLoss => 1 | .safety => 2 | .nrst => 3 | .stopCommand => 4 | .startCommand => 5 | _ => 6

/-- Moves the module to a state, with the audit entry and `note state` (R23). -/
def enter (new : ModState) (line role : Nat) (c : Cause) (s : State) : State :=
  let old := s.pw.ms
  let keepsBlock : Bool := (old = .run || old = .safe) && (new = .run || new = .safe)
  let s1 := { s with pw := { s.pw with ms := new, lastCause := (causeRank c, s.ck.mono),
                                        blockWhole := s.pw.blockWhole && keepsBlock } }
  noteAll ("state " ++ stateName new) (auditTransition old new line role c s1)

/-- A cause of higher rank has already moved the module in this millisecond (R26). What of the same millisecond still
waits in the queue is `rival`'s. -/
def outranked (c : Cause) (s : State) : Bool :=
  s.pw.lastCause.2 = s.ck.mono && s.pw.lastCause.1 < causeRank c && s.pw.lastCause.1 ≤ 5

end Sys2Proof.Machine
end

