-- ==== Sys2Proof/Machine/Values.lean ====
section
/-! DEFINITION. The reading of every parameter (R41, R54, R129, R130, R320, R368, R370, R371, R377). -/

namespace Sys2Proof.Machine

/-! ## Cadence -/

/-- A current output runs the demand limiter (R291). -/
def limiterActive (s : State) : Bool := (List.range 4).any fun x => pget s (0x9020 + 0x40 * x) = 3

/-- Input armed for the safety function: temperature or pressure of a run (R304, R317). -/
def armed (s : State) (r : Run) (temp : Bool) : Bool :=
  let b := 0xA100 + 0x10 * r.val
  pget s b = 1 && (if temp then pget s (b + 1) ≠ 1 else pget s (b + 1) ≠ 2)

/-- The safety function is armed on a run. -/
def armedRun (s : State) (r : Run) : Bool := pget s (0xA100 + 0x10 * r.val) = 1

/-- The cadence that the parameters ask for: continuous, its cause, and the period in ms (R64). It is in effect from the
next block boundary on, as `Power.cad` (R65). In continuous cadence the period is that of rules 2 and 3 (log 18). -/
def cadence (s : State) : Bool × String × Nat :=
  let cfg := pnat s 0x202
  let safe := allRuns.any (armedRun s)
  let per := if safe then min cfg 100 else cfg
  if limiterActive s then (true, "limiter", per)
  else if pget s 0x200 = 1 then (true, "config", per)
  else if per ≤ pnat s 0x201 then (true, "length", per)
  else if safe then (false, "safety", per)
  else (false, "config", per)

/-! ## Filter paths -/

/-- Median window of a code (R142). -/
def medianWindow (code : Nat) : Nat := 2 * code + 1
/-- Mean length of a code (R142). -/
def meanLength (code : Nat) : Nat := 2 ^ code

/-- Factor, taps and group delay in samples of a preset (Table 6.2). -/
def preset (code : Nat) : Nat × Nat × Nat :=
  match code with
  | 0 => (8, 257, 128)
  | 1 => (4, 129, 64)
  | _ => (2, 65, 32)

/-- Pre-averager length: the largest power of two not above 24000 ÷ fout, at most 256 (R128). -/
def preAverage (rc : Nat) : Nat :=
  (List.range 9).foldl (fun d k => if 2 ^ k * rc ≤ 2 ^ 31 then 2 ^ k else d) 1

/-- First parameter of a fast path: lift 0300h, vibration 0308h. -/
def pathBase (r : Run) (vib : Bool) : Nat := rp r (if vib then 0x308 else 0x300)

/-- Latency of a fast path in 0.001 µs, rounded once (R129). -/
def pathDelay (s : State) (r : Run) (vib : Bool) : Int :=
  let b := pathBase r vib
  let w := medianWindow (pnat s b)
  let k := 2 * r.val + (if vib then 1 else 0)
  let code := pnat s (b + 3)
  let group := if code = 3 then (w - 1) * 1000 + (preAverage (pnat s (b + 4)) - 1) * 1000 + 24000
    else (w - 1) * 1000 + (preset code).2.2 * 2000
  roundDiv ((38016 + 2000 + group + (k + 1) * 125 : Nat) * 1000) 96

/-- Settling count of a fast path in outputs (R130). -/
def pathSettle (s : State) (r : Run) (vib : Bool) : Nat :=
  let b := pathBase r vib
  let w := medianWindow (pnat s b)
  let code := pnat s (b + 3)
  if code = 3 then
    let rc := pnat s (b + 4)
    max 1 (((preAverage rc + 22 + w) * rc + 2 ^ 32 - 1) / 2 ^ 32)
  else
    let p := preset code
    (p.2.1 + w - 1 + p.1 - 1) / p.1

/-! ## Safety figures -/

/-- Safety parameters of seal class S in ascending number (Table 15.8). -/
def safetyParams : List Nat :=
  [0xA003, 0xA004, 0xA005, 0xA006, 0xA007, 0xA010, 0xA011, 0xA012, 0xA013]
  ++ (List.range 4).flatMap fun k => (List.range 6).map fun o => 0xA100 + 0x10 * k + o

/-- `safety.crc` (R320). -/
def safetyCrc (s : State) : Word :=
  crc32c (safetyParams.flatMap (fun n => leInt 6 (pget s n))
    ++ wordBytes (fetchAll 0 s.ev.machines[0].live 0 192))

/-- Live M0 equals the shipped program (R320). -/
def m0Factory (s : State) : Bool := s.ev.machines[0].live = shippedM0

/-! ## Enumerations as codes -/

def inStatusCode : InStatus → Int
  | .ok => 0 | .opened => 1 | .short => 2 | .range => 3 | .clip => 4 | .lead => 5 | .idle => 6
def freqCode : FreqStatus → Int
  | .ok => 0 | .nolock => 1 | .short => 2 | .range => 3 | .anneal => 4 | .idle => 5
def pilotCode : PilotStatus → Int
  | .ok => 0 | .loss => 1 | .unref => 2 | .anneal => 3 | .idle => 4
def sourceText : Source → String
  | .t => "T" | .s => "S" | .u => "U" | .k => "K" | .x => "X"
def chanCode : ChanState → Int
  | .idle => 0 | .run => 1 | .wait => 2 | .stall => 3 | .paused => 4 | .halt => 5
def limCode : LimState → Int
  | .run => 0 | .hold => 1 | .fail => 2 | .forced => 3 | .safe => 4 | .idle => 5
def coCode : CoStatus → Int
  | .ok => 0 | .opened => 1 | .forced => 2 | .safe => 3 | .idle => 4
def pairCode : PairState → Int
  | .idle => 0 | .opening => 1 | .opened => 2 | .refused => 3 | .lost => 4 | .silent => 5
def inStatusName (x : InStatus) : String := statusNames.getD (inStatusCode x).toNat ""

/-- State of a channel as reported: one that waits for a ring slot stalls (R217). -/
def shownChan (c : Chan) : ChanState := if c.ringWait.isSome then .stall else c.st

/-- Names of the outcomes (Table 18.11). -/
def outcomeName (code : Nat) : String :=
  match code % 16 with
  | 1 => "agreed" | 2 => "loss" | 3 => "disputed" | 4 => "alone" | 5 => "equivocal" | _ => "open"

/-- Status of an input as reported: idle while the fast domain sleeps or the run restarts (R99). -/
def shownStatus (s : State) (r : Run) (x : InStatus) : InStatus :=
  if awake s && !s.runs[r].fe.restarting then x else .idle

/-- Gain in 0.01 % of a reference (R140). -/
def relGain (v : PilotValue) (ref : Option PilotValue) : Option Int :=
  match ref with
  | some q => if q.gain = 0 then none else some (roundDiv (v.gain * 10000) q.gain)
  | none => none

/-- Phase deviation in 0.1°, taken into −180.0 … +180.0 (R140). -/
def relPhase (v : PilotValue) (ref : Option PilotValue) : Option Int :=
  ref.map fun q => (v.phase - q.phase + 1800) % 3600 - 1800

/-- Pending pulses (R296). -/
def poTotal (s : State) (x : Fin 4) : Int :=
  let b := 0x9200 + 0x10 * x.val
  let r : Run := ⟨((pget s (b + 1)).toNat - 1) % 4, Nat.mod_lt _ (by decide)⟩
  let q := s.runs[r].qty
  let code := pget s (b + 2)
  if code = 0 then q.totalM else if code = 1 then q.totalE else q.totalV

/-- Whole weights in the total (R296): weight in 0.001 units, total in 10⁻⁶ units. -/
def poWhole (s : State) (x : Fin 4) : Int :=
  (poTotal s x).fdiv (1000 * pget s (0x9203 + 0x10 * x.val))

/-- Pending count (R296); in another mode than `total`, base holds the carried count negated (R298, log 20). -/
def poPending (s : State) (x : Fin 4) : Nat :=
  let p := s.io.po[x]
  if pget s (0x9200 + 0x10 * x.val) = 1 then (poWhole s x - p.base - p.issued).toNat else (-p.base).toNat

/-- Current of a converter code in µA (R288). -/
def codeMicroAmp (code : Nat) : Nat := (roundDiv (code * 24000) 65536).toNat

/-- Time field of a record of a chain in the good copy. -/
def recordTime (s : State) (k : Fin 4) (i : Nat) : Nat :=
  fromLe (fetchAll blankByte (goodCopy s) (recOff k i + (if k = 0 ∨ k = 1 then 4 else 0)) 4)

/-- Whole days of interval retention (Table 11.9). -/
def retentionSeconds (s : State) : Nat := 38400 * 60 * s.lg.intLen

/-- Own closes in state 01h whose day lies within interval retention (R282): their slots. -/
def unsignedCloses (s : State) : List Nat :=
  let n := recordCount s 1
  let first := oldestIndex s 1
  ((List.range n).map fun j => (first + j) % areaSize 1).filter fun i =>
    fetch blankByte (goodCopy s) (recOff 1 i + 312) = 1 && nowSec s ≤ recordTime s 1 i + retentionSeconds s

/-- A date 30 years on (R338, Table 16.6). -/
def lifeEnd (s : State) : Nat :=
  let (y, m, d) := civilFromDays (s.ident.delivered / 86400)
  let d' := min d (monthDays (y + 30) m)
  (daysFromCivil (y + 30) m d').toNat * 86400 + s.ident.delivered % 86400

/-! ## Numeric readings -/

/-- Numeric read-only value of the module-wide blocks, in units of its resolution. `clock.slew.remaining` drops a part of
a millisecond, toward zero: DESIGN CHOICE, log 81. -/
def moduleNum (s : State) (n : Nat) : Option Int :=
  if n = 0x209 then some s.pw.cad.2.2
  else if n = 0x302 then some (s.ck.slew.tdiv 10000000)
  else if n = 0x303 then s.ck.temp
  else if n = 0x108 then some s.host.cntCheck.toNat else if n = 0x109 then some s.host.cntBusy.toNat
  else if n = 0x10A then some s.host.cntLost.toNat else if n = 0x118 then some s.service.cntCheck.toNat
  else if n = 0x119 then some s.service.cntBusy.toNat else if n = 0x11A then some s.service.cntLost.toNat
  else none

/-- Numeric read-only value of a run. -/
def runNum (s : State) (r : Run) (o : Nat) : Option Int :=
  let t := s.runs[r]
  let e := t.eng
  let q := t.qty
  let nat : Nat → Option Int := fun x => some (x : Int)
  if o = 0x48 then nat t.latched.toNat
  else if o = 0x218 then t.fe.lead.map fun x => (x : Int)
  else if o = 0x21A then nat t.tabTemp.live.length
  else if o = 0x21B then t.fe.temp.meas else if o = 0x21C then t.fe.temp.value
  else if o = 0x22A then nat t.tabPress.live.length
  else if o = 0x22B then t.fe.press.meas else if o = 0x22C then t.fe.press.value
  else if o = 0x305 then some (pathDelay s r false) else if o = 0x306 then nat (pathSettle s r false)
  else if o = 0x30D then some (pathDelay s r true) else if o = 0x30E then nat (pathSettle s r true)
  else if o = 0x310 then e.freq.map fun x => (x : Int)
  else if o = 0x312 then e.cycles.map fun x => (x : Int)
  else if o = 0x313 then e.amp.map fun x => (x : Int)
  else if o = 0x320 then e.pilot.lift.bind fun v => relGain v e.pilot.refLift
  else if o = 0x321 then e.pilot.lift.bind fun v => relPhase v e.pilot.refLift
  else if o = 0x322 then e.pilot.vib.bind fun v => relGain v e.pilot.refVib
  else if o = 0x323 then e.pilot.vib.bind fun v => relPhase v e.pilot.refVib
  else if o = 0x403 then nat t.tabK.live.length
  else if o = 0x412 then q.last.map (·.v)
  else if o = 0x413 then q.last.map fun b => (b.n : Int)
  else if o = 0x414 then q.rhoH.map (·.1) else if o = 0x415 then q.rhoH.map (·.2)
  else if o = 0x416 then q.last.map fun b => roundDiv (b.m * 3600) 1000
  else if o = 0x418 then some q.totalM else if o = 0x419 then some q.totalE else if o = 0x41A then some q.totalV
  else if o = 0x515 then t.recog.cadence.map fun c => roundDiv c.1 1000
  else if o = 0x516 then t.recog.cadence.map fun c => (c.2 : Int)
  else if o = 0x521 then some (roundDiv t.recog.relRef 1000)
  else none

/-- Numeric read-only value of machines and events. -/
def eventNum (s : State) (n : Nat) : Option Int :=
  if n = 0x600B then some s.ev.lost.toNat
  else if n = 0x6031 then s.ev.rot.map fun x => (x : Int)
  else if n = 0x6032 then s.ev.tilt.map fun x => (x : Int)
  else if h : 0x6200 ≤ n ∧ n < 0x6280 then
    let m := s.ev.machines[(n - 0x6200) / 0x10]
    let left := fun (k : Fin 2) => match m.timers[k] with
      | some t => ((t - s.ck.mono : Nat) : Int)
      | none => 0
    if n % 16 = 2 then some m.st else if n % 16 = 3 then some m.cnt
    else if n % 16 = 4 then some (left 0) else if n % 16 = 5 then some (left 1) else none
  else none

/-- Numeric read-only value of the queue and the gather engine. -/
def queueNum (s : State) (n : Nat) : Option Int :=
  let q := s.qu
  if n = 0x7008 then some (fillOf q) else if n = 0x7009 then some q.peak
  else if n = 0x700A then some ((q.regions.filter fun r => r.committed && !r.void).length : Nat)
  else if n = 0x7010 then some q.shed2.toNat else if n = 0x7011 then some q.shed3.toNat
  else if n = 0x7012 then some q.rewound.toNat else if n = 0x7013 then some q.resets.toNat
  else if n = 0x7014 then some q.corrected.toNat else if n = 0x7015 then some q.uncorrected.toNat
  else if n = 0x7016 then some q.lingers.toNat else if n = 0x7017 then some q.dropWords.toNat
  else if n = 0x7180 then some s.ga.ringLost.toNat else if n = 0x7181 then some s.ga.ringBreaks.toNat
  else none

/-- Numeric read-only value of ledger, conversation and settlement. -/
def ledgerNum (s : State) (n : Nat) : Option Int :=
  let p := s.pair
  if n = 0x8002 then some s.lg.repairs.toNat else if n = 0x8003 then some s.lg.checkDamaged.toNat
  else if n = 0x8004 then some s.lg.dataDamaged.toNat
  else if n = 0x8006 then some s.lg.chains[1].written
  else if n = 0x810B then p.rto.map fun x => roundDiv x 1000
  else if n = 0x810C then some p.offset else if n = 0x810D then some p.delay
  else if n = 0x8110 then some p.checkDmg.toNat else if n = 0x8111 then some p.dataDmg.toNat
  else if n = 0x8112 then some p.gaps.toNat else if n = 0x8113 then some p.retrans.toNat
  else if n = 0x8114 then some p.resync.toNat else if n = 0x8115 then some p.proto.toNat
  else if n = 0x8181 then some s.se.mismatch.toNat else if n = 0x8182 then some s.se.late.toNat
  else if n = 0x8183 then some s.se.equivocal.toNat else if n = 0x8184 then some s.se.disputed.toNat
  else if n = 0x8185 then some ((unsignedCloses s).length : Nat)
  else if h : 0x8200 ≤ n ∧ n < 0x8240 then
    let x := s.se.runs[(n - 0x8200) / 0x10]
    if n % 16 = 8 then some x.totalM else if n % 16 = 9 then some x.totalE
    else if n % 16 = 10 then some x.lossM else if n % 16 = 11 then some x.lossE else none
  else none

/-- Numeric read-only value of the outputs. -/
def outputNum (s : State) (n : Nat) : Option Int :=
  if h : 0x9000 ≤ n ∧ n < 0x9100 then
    let c := s.io.co[(n - 0x9000) / 0x40]
    let o := n % 0x40
    if o = 0x26 then some (codeMicroAmp c.code) else if o = 0x3A then c.rate
    else if o = 0x3B then some (roundDiv c.u 1000) else none
  else if h : 0x9200 ≤ n ∧ n < 0x9240 then
    let x : Fin 4 := ⟨(n - 0x9200) / 0x10, by omega⟩
    if n % 16 = 5 then some (poPending s x) else if n % 16 = 6 then some s.io.po[x].issued else none
  else none

/-- Numeric read-only value of safety and self-test. -/
def safetyNum (s : State) (n : Nat) : Option Int :=
  if n = 0xA008 then s.sf.tripMs.map fun x => (x : Int)
  else if n = 0xA00B then some (match s.cm.wait with | some w => (w.set.members.length : Int) | none => 0)
  else if h : 0xA100 ≤ n ∧ n < 0xA140 then
    let r := s.runs[(n - 0xA100) / 0x10]
    if n % 16 = 6 then r.fe.press.tap else if n % 16 = 7 then r.fe.temp.tap else none
  else if n = 0xB003 then some ((96 - (s.sp.table.filter fun e => e.st ≠ 3).length : Nat) : Int)
  else if n = 0xB004 then some ((32 - s.sp.fuses.length : Nat) : Int)
  else if h : 0xB100 ≤ n ∧ n < 0xB140 then
    let a := s.sp.ages[(n - 0xB100) / 4]
    if n % 4 = 0 then a.map (·.value) else if n % 4 = 1 then a.map (·.limit) else none
  else none

/-- A read-only number, in units of its resolution; none where it is not formed (R368). -/
def roNum (s : State) (n : Nat) : Option Int :=
  match runOffset n with
  | some (r, o) => runNum s r o
  | none =>
    if n < 0x1000 then moduleNum s n
    else if h : 0x5300 ≤ n ∧ n < 0x5312 then some (s.mx.sat[n - 0x5300]'(by omega)).toNat
    else if n < 0x7000 then eventNum s n
    else if n < 0x8000 then queueNum s n
    else if n < 0x9000 then ledgerNum s n
    else if n < 0xA000 then outputNum s n
    else safetyNum s n

/-- The value of a numeric parameter, in units of its resolution (R371). -/
def numOf (s : State) (p : PInfo) : Option Int :=
  match p.cls with
  | some _ => some (pget s p.num)
  | none => roNum s p.num

/-- Decimals in which a numeric parameter is written (R370, R377). -/
def kindDec : Kind → Nat
  | .num d _ => d
  | .list d _ => d
  | .ro d => d
  | .gain => 6
  | .rate => 6
  | _ => 0

/-! ## Enumerations and composite values -/

/-- Code of a read-only enumeration. -/
def roCode (s : State) (n : Nat) : Option Int :=
  match runOffset n with
  | some (r, o) =>
    let t := s.runs[r]
    if o = 0x208 then some (inStatusCode (shownStatus s r t.fe.lift))
    else if o = 0x209 then some (inStatusCode (shownStatus s r t.fe.vib))
    else if o = 0x21D then some (inStatusCode (shownStatus s r t.fe.temp.status))
    else if o = 0x22D then some (inStatusCode (shownStatus s r t.fe.press.status))
    else if o = 0x311 then some (freqCode t.eng.status)
    else if o = 0x324 then some (pilotCode t.eng.pilot.status)
    else if o = 0x517 then some (if t.recog.cadOn then 1 else 0)
    else none
  | none =>
    if n = 0 then some (if s.ident.variant = .s4 then 0 else 1)
    else if n = 1 then some (stateCode s.pw.ms)
    else if n = 0x106 then some (if s.pw.form = .rs485 then 0 else 1)
    else if n = 0x301 then some (if !s.ck.valid then 2 else if s.ck.slew ≠ 0 then 1 else 0)
    else if h : 0x6100 ≤ n ∧ n < 0x6180 then some (if s.ev.levels[(n - 0x6100) / 0x10].on then 1 else 0)
    else if h : 0x7100 ≤ n ∧ n < 0x7180 then some (chanCode (shownChan s.ga.chans[(n - 0x7100) / 0x10]))
    else if n = 0x8000 then some (match s.lg.state with | .ok => 0 | .singleA => 1 | .singleB => 2)
    else if n = 0x8108 then some (pairCode s.pair.st)
    else if n = 0x810A then some (match s.pair.up with | none => 0 | some true => 1 | some false => 2)
    else if h : 0x9000 ≤ n ∧ n < 0x9100 then
      let c := s.io.co[(n - 0x9000) / 0x40]
      if n % 0x40 = 0x27 then some (coCode c.status) else some (limCode c.lim)
    else if h : 0x9300 ≤ n ∧ n < 0x9340 then some (if s.io.di[(n - 0x9300) / 0x10].high then 1 else 0)
    else if n = 0xA000 then some (if s.sf.latch then 1 else 0)
    else if n = 0xA009 then some (if s.sf.welded.1 then 2 else if s.sf.coil then 0 else 1)
    else if n = 0xA00A then some (if s.sf.welded.2 then 2 else if s.sf.coil then 0 else 1)
    else if n = 0xA00C then some (if m0Factory s then 0 else 1)
    else if h : 0xB100 ≤ n ∧ n < 0xB140 then s.sp.ages[(n - 0xB100) / 4].map fun a => (a.cls : Int)
    else none

/-- A formed value or `-` (R368). -/
def dash (t : Option String) : String := t.getD "-"

/-- Text of a value that is not formed as a number or an enumeration. -/
def roText (s : State) (n : Nat) : String :=
  match runOffset n with
  | some (r, o) =>
    let q := s.runs[r].qty
    if o = 0x410 then dash (q.last.map fun b =>
      spaced [secText b.start, sourceText b.src, decText 6 b.m, decText 6 b.e])
    else if o = 0x411 then hexText 2 (match q.last with | some b => b.flags.toNat | none => 0)
    else "-"
  | none =>
    if n = 0x10 then natText s.ident.serial
    else if n = 0x11 then groupText s.ident.key
    else if n = 0x12 then fingerprintText s.ident.key
    else if n = 0x208 then
      let c := s.pw.cad
      spaced [if c.1 then "continuous" else "bursts", c.2.1]
    else if n = 0x5502 then (match s.mx.beep with | some b => beepNames.getD b.1 "none" | none => "none")
    else if n = 0x7000 then
      (if s.ident.variant = .n4 then "chute variant" else if chute s then "chute selftest" else "spill")
    else if h : 0x7100 ≤ n ∧ n < 0x7180 then
      let c := s.ga.chans[(n - 0x7100) / 0x10]
      if n % 16 = 0xB then hexText 3 c.pc
      else if n % 16 = 0xC then dash (c.crcOut.map fun w => hexText 8 w.toNat)
      else dash (c.fault.map fun f =>
        spaced [hexText 8 f.address.toNat, if f.write then "write" else "read", natText f.kind])
    else if n = 0x8001 then dash (s.lg.scrubLast.map secText)
    else if n = 0x8005 then (if recordCount s 0 = 0 then "-" else secText (recordTime s 0 (oldestIndex s 0)))
    else if n = 0x8007 then (if recordCount s 3 = 0 then "-" else secText (recordTime s 3 (oldestIndex s 3)))
    else if n = 0x8109 then natText s.pair.serial
    else if h : 0x8200 ≤ n ∧ n < 0x8240 then
      dash (s.se.runs[(n - 0x8200) / 0x10].last.map fun l =>
        spaced [secText l.1, outcomeName l.2.1, dash (l.2.2.1.map (decText 6)), dash (l.2.2.2.map (decText 6))])
    else if n = 0xA001 then (if s.sf.causes = [] then "-" else spaced (s.sf.causes.map (hexText 2)))
    else if n = 0xA002 then hexText 8 (safetyCrc s).toNat
    else if n = 0xB002 then dash (s.lg.results.head?.map fun r =>
      spaced [secText r.time, ["-", "cold", "warm", "shutdown", "command"].getD r.occasion "-",
              ["pass", "repaired", "reported", "held", "abandoned"].getD r.verdict "-", hexText 4 r.itemsFailed])
    else if n = 0xB012 then secText (lifeEnd s)
    else if n = 0xB013 then secText s.sp.backupFitted
    else if h : 0xB100 ≤ n ∧ n < 0xB140 then
      dash (s.sp.ages[(n - 0xB100) / 4].bind fun a => a.date.map secText)
    else "-"

/-- The value of a parameter as the module writes it (R370). -/
def readText (s : State) (p : PInfo) : String :=
  match p.cls with
  | some _ => valueText p.kind (pget s p.num)
  | none =>
    match p.kind with
    | .ro d => if p.num = 0x10 ∨ p.num = 0x8109 then roText s p.num else dash ((roNum s p.num).map (decText d))
    | .counter => dash ((roNum s p.num).map intText)
    | .roEnum names | .roNames names =>
      if p.num = 0x5502 then roText s p.num else dash ((roCode s p.num).map fun c => names.getD c.toNat "-")
    | _ => roText s p.num

/-- Name of a parameter number. -/
def nameOf (n : Nat) : String :=
  match info n with
  | some p => p.name
  | none => ""

end Sys2Proof.Machine
end

