-- ==== Sys2Proof/Machine/Operands.lean ====
section
/-! DEFINITION. The operand forms of line commands (R8, R29, R30, R32, R33, R37, R40, R369, R371): parameters, values,
words, runs, counts and times, each failing with the reason of Table 2.2. -/

namespace Sys2Proof.Machine

/-- Why a command is refused (Table 2.2): form, names, not served in this state, resource taken, role; and "no state"
for a refusal that a rule states by itself. -/
inductive Reason where
  | badForm | noWord | notServed | badState | taken | noRole
  deriving DecidableEq, Repr

/-- Answers `r` unless `b` holds. -/
def need (b : Bool) (r : Reason) : Except Reason Unit := if b then .ok () else .error r

/-- A field that must be there and well formed. -/
def want {α : Type} (o : Option α) (r : Reason) : Except Reason α :=
  match o with
  | some x => .ok x
  | none => .error r

/-- A parameter field is well formed: `#` takes exactly four hexadecimal digits (R8). -/
def paramForm (t : String) : Bool :=
  match t.toList with
  | '#' :: ds => ds.length = 4 && (hexDigits ds).isSome
  | _ => true

/-- The parameter a field names (R8, R9, R11, R32). -/
def paramField (strict : Bool) (t : String) : Except Reason PInfo :=
  let n := match t.toList with
    | '#' :: ds => if ds.length = 4 then hexDigits ds else none
    | _ => byName strict t
  match n with
  | some k => want (info k) .noWord
  | none => .error (if paramForm t then .noWord else .badForm)

/-- A word of a list. -/
def wordField (strict : Bool) (words : List String) (t : String) : Except Reason Nat :=
  want (byWord strict words t) .noWord

/-- A field that begins as a number or as a text value does. -/
def numberLike (t : String) : Bool :=
  match t.toList with
  | c :: _ => isDigit c || c = '+' || c = '-' || c = '.' || c = '"'
  | [] => true

/-- A value that is well formed for some kind of parameter: the form that order 1 asks where the parameter is not known
(R37). -/
def valueShape (t : String) : Bool :=
  !numberLike t || (parseDec t).isSome || (parseHex t).isSome || (parseTime t).isSome || lowerText t ∈ ["4s", "4n"]

/-- Order 1: the form of a value for a kind of parameter (R30, R40, R369, R372). -/
def valueForm (k : Kind) (t : String) : Bool :=
  let whole : Bool := match parseDec t with
    | some d => d.scale = 0
    | none => false
  match k with
  | .num _ _ | .list _ _ | .gain | .rate | .ro _ | .counter => (parseDec t).isSome
  | .enum _ _ | .roEnum _ => !numberLike t || whole
  | .roNames names => !numberLike t || lowerText t ∈ names
  | .hex _ _ | .source | .roHex => (parseHex t).isSome
  | .roTime => (parseTime t).isSome
  | .roText => true

/-- Order 2: an enumeration's name, a numeric parameter's number (R40, R371). -/
def valueNames (strict : Bool) (k : Kind) (t : String) : Bool :=
  match k with
  | .enum _ names | .roEnum names => numberLike t || (byWord strict names t).isSome
  | .roNames names => (byWord strict names t).isSome
  | .source =>
    match (parseHex t).bind info with
    | some p => p.numeric
    | none => false
  | _ => true

/-- The code of a value, clamped and rounded in a range (R39, R40, R46). -/
def valueCode (strict : Bool) (p : PInfo) (r : Rng) (t : String) : Option Int :=
  match p.kind with
  | .enum base names =>
    if numberLike t then (parseDec t).bind fun d => settle p.kind r d.mant
    else (byWord strict names t).bind fun i => settle p.kind r (base + i : Nat)
  | .hex _ step =>
    (parseHex t).bind fun n =>
      let c := clampInt r.lo r.hi n
      settle p.kind r (step * roundDiv c step)
  | .source => (parseHex t).map fun n => (n : Int)
  | _ => (parseDec t).bind fun d => numberCode p.kind r d

/-- A run field, `run1` … `run4`. -/
def runField (t : String) : Except Reason Run := do
  let i ← wordField true ["run1", "run2", "run3", "run4"] t
  if h : i < 4 then .ok ⟨i, h⟩ else .error .noWord

/-- A channel field, `g0` … `g7`. -/
def chanField (t : String) : Except Reason Channel := do
  let i ← wordField true ["g0", "g1", "g2", "g3", "g4", "g5", "g6", "g7"] t
  if h : i < 8 then .ok ⟨i, h⟩ else .error .noWord

/-- A machine field, `m0` … `m7`. -/
def machineField (t : String) : Except Reason (Fin 8) := do
  let i ← wordField true ["m0", "m1", "m2", "m3", "m4", "m5", "m6", "m7"] t
  if h : i < 8 then .ok ⟨i, h⟩ else .error .noWord

/-- A current output field, `co1` … `co4`. -/
def coField (t : String) : Except Reason (Fin 4) := do
  let i ← wordField true ["co1", "co2", "co3", "co4"] t
  if h : i < 4 then .ok ⟨i, h⟩ else .error .noWord

/-- A whole number clamped to a range (R39); a number with decimals rounds. -/
def countField (lo hi : Nat) (t : String) : Except Reason Nat := do
  let d ← want (parseDec t) .badForm
  .ok (clampInt lo hi (roundDiv d.mant (10 ^ d.scale))).toNat

/-- A number in units of 10^-dec, clamped to a range (R39). -/
def decField (dec : Nat) (lo hi : Int) (t : String) : Except Reason Int := do
  let d ← want (parseDec t) .badForm
  .ok (clampInt lo hi (roundDiv (d.mant * 10 ^ dec) (10 ^ d.scale)))

/-- A hexadecimal field. -/
def hexField (t : String) : Except Reason Nat := want (parseHex t) .badForm

/-- A time field in ms since 2020 (R6). -/
def timeField (t : String) : Except Reason Int := want (parseTime t) .badForm

/-- A role name (R43). -/
def roleField (strict : Bool) (t : String) : Except Reason Role := do
  let i ← wordField strict ["view", "operate", "metrology", "safety"] t
  .ok (if i = 0 then .view else if i = 1 then .operate else if i = 2 then .metrology else .safety)

/-- A six-digit role code (R43). -/
def codeField (t : String) : Except Reason Nat :=
  if t.toList.length = 6 then want (parseNat t) .badForm else .error .badForm

/-! ## Roles and keys -/

/-- Order 5: the line holds at least a role (R43). -/
def needRole (s : State) (l : Line) (r : Role) : Except Reason Unit :=
  need (roleCode r ≤ roleCode (s.line l).role) .noRole

/-- Conditions of a seal class (Table 0.5, R45). -/
def sealOk (s : State) (l : Line) (c : Seal) : Bool :=
  let have_ := roleCode (s.line l).role
  match c with
  | .opn => 1 ≤ have_
  | .m => 2 ≤ have_ && s.pw.sealOpen
  | .s => 3 ≤ have_ && s.pw.sealOpen && s.pw.safeKey

/-- METROLOGY with the seal loop open. -/
def needMetrology (s : State) (l : Line) : Except Reason Unit := need (sealOk s l .m) .noRole

/-! ## States served (Table 1.4) -/

/-- Verbs that every powered state serves. -/
def alwaysServed (verb : String) : Bool := verb ∈ ["get", "show", "time", "help"]

/-- Order 3: the verb is served in the module's state (Table 1.4). -/
def served (s : State) (verb : String) : Except Reason Unit :=
  match s.pw.ms with
  | .run | .safe | .held => .ok ()
  | .keep => need (alwaysServed verb || verb = "role" || verb = "start") .notServed
  | .start => need (alwaysServed verb || verb = "role") .notServed
  | .stop => need (alwaysServed verb) .notServed
  | .cold => .error .notServed

/-- Served in RUN, SAFE and HELD only (R243, R284, R329). -/
def servedActive (s : State) : Except Reason Unit :=
  need (s.pw.ms = .run || s.pw.ms = .safe || s.pw.ms = .held) .notServed

end Sys2Proof.Machine
end

