-- ==== Sys2Proof/Machine/Lines.lean ====
section
/-! DEFINITION. Command lines (chapter 02): receiving, queueing and answering lines; GET, WATCH, QUIET, HELP, ROLE; and
the timed happenings of a line. -/

namespace Sys2Proof.Machine

/-- What a command does on a line: its next state and reply lines, or the reason of Table 2.2. -/
abbrev Body := State → Except Reason (State × List String)

/-- The reply to a refusal (Tables 2.1 and 2.2). -/
def refusal (verb : String) (s : State) : Reason → String
  | .badForm => "no syntax"
  | .noWord => "no word"
  | .notServed => if s.pw.ms = .start ∨ s.pw.ms = .stop then "busy " ++ verb else "no state"
  | .badState => "no state"
  | .taken => "busy " ++ verb
  | .noRole => "no role"

/-- Sends the reply lines of a command (R36, R38). -/
def sendReplies (l : Line) (tag : Option Nat) (lines : List String) (s : State) : State :=
  s.modLine l fun x => x.say (lines.map (replyText tag))

/-- Reply lines of a list: `part` for each but the last, then `ok` (R38, R41). -/
def closeParts : List String → List String
  | [] => []
  | [x] => ["ok " ++ x]
  | x :: xs => ("part " ++ x) :: closeParts xs

/-- Answers of the lines at the head that failed a check on arrival. -/
def answered : List RxLine → List String × List RxLine
  | [] => ([], [])
  | x :: xs =>
    match x.answer with
    | some a => let r := answered xs; (replyText x.tag a :: r.1, r.2)
    | none => ([], x :: xs)

/-- Sends the answers that stand at the head of the queue, in order (R38). -/
def pump (l : Line) (s : State) : State :=
  s.modLine l fun x =>
    let r := answered x.queue
    { x with queue := r.2 }.say r.1

/-- The line in execution leaves the queue; one received directly, without a queued line, counts as received now (R43,
R52). -/
def endLine (now : Nat) (x : LineSt) : LineSt :=
  if x.queue = [] then { x with lineAt := now, warned := false } else { x with queue := x.queue.tail }

/-- Executes a command line: its replies, then the next line of the queue (R37, R38, R53). Unserved lines do
nothing (Table 1.4, R25). -/
def runLine (rq : Req) (verb : String) (body : Body) (s : State) : State :=
  if linesUp s then
    let s1 := match body s with
      | .ok (t, lines) => sendReplies rq.line rq.tag lines t
      | .error r => sendReplies rq.line rq.tag [refusal verb s r] s
    pump rq.line (s1.modLine rq.line (endLine s.ck.mono))
  else s

/-! ## Receiving -/

/-- The verbs of Table 2.3. -/
def verbs : List String :=
  ["get", "set", "stage", "commit", "discard", "show", "watch", "quiet", "do", "test", "role", "time", "ledger",
   "pair", "gather", "drop", "start", "stop", "help"]

/-- The actions of DO, as the chapters give them. -/
def actions : List String :=
  ["fe.point", "fe.leadcal", "k.point", "q.point", "matrix.vibfit", "pilot.ref", "beep", "turn.ref", "sm.word", "sm.act",
   "sm.factory", "sm.reset", "co.force", "safety.reset", "safety.confirm", "repair", "age.backup"]

/-- Requests of LEDGER and of GATHER, and the things `do repair` takes. -/
def ledgerRequests : List String := ["interval", "close", "events", "audit", "head", "raw", "verify"]
def gatherRequests : List String :=
  ["show", "ring", "read", "word", "start", "stop", "resume", "skip", "reset"]
def repairRequests : List String := ["cell", "row", "clear", "burn"]

/-- The fields of a line up to its tag and check, and its tag: none where it is untagged, `some none` for a tag beyond
1 … 65535 (R33). -/
def splitTag (cs : List Char) : Option (Option Nat) × List Char :=
  match cs with
  | '#' :: r =>
    let ds := r.takeWhile isDigit
    if 1 ≤ ds.length ∧ ds.length ≤ 5 ∧ (r.dropWhile isDigit).head? = some ' ' then
      let n := digitsValue ds
      (some (if 1 ≤ n ∧ n ≤ 65535 then some n else none), r.dropWhile isDigit)
    else (none, cs)
  | _ => (none, cs)

/-- The check of a tagged line: none where it has none, else whether it matches (R33 ... R35). -/
def lineCheck (cs : List Char) : Option Bool :=
  let body := cs.take (cs.length - 5)
  match cs.drop (cs.length - 5) with
  | '*' :: hs => (hexDigits hs).map fun v => v = (crc16 (String.ofList body)).toNat
  | _ => none

/-- Order 2 for the verb, the action and the request of a line. Beyond R32's verbs, name segments and enumeration names,
this and the bodies also take shortened actions of DO, requests of LEDGER, GATHER and `do repair`, test items, role names,
and the words `change`, `pending` and `clear`, but no shortened `all`, run, channel, machine or output. DESIGN CHOICE,
log 79. -/
def namesOk (strict : Bool) (fields : List String) : Bool :=
  let w := fun (words : List String) (t : Option String) => match t with
    | some x => byWord strict words x
    | none => some 0
  match fields with
  | [] => false
  | v :: r =>
    match byWord strict verbs v with
    | none => false
    | some 8 =>
      (w actions r.head?).isSome &&
        (if w actions r.head? = some 15 then (w repairRequests r[1]?).isSome else true)
    | some 12 => (w ledgerRequests r.head?).isSome
    | some 14 => (w gatherRequests r.head?).isSome
    | some _ => true

/-- What a received line is: its tag, and its answer where it fails on arrival. -/
def judge (x : LineSt) : RxLine × Bool :=
  let text := String.ofList x.buf
  let (tag, rest) := splitTag x.buf
  match tag with
  | some none => (⟨none, text, some "no syntax"⟩, false)
  | some (some n) =>
    if x.tooMuch ∨ x.edited then (⟨some n, text, some "no syntax"⟩, false)
    else match lineCheck x.buf with
      | none => (⟨some n, text, some "no syntax"⟩, false)
      | some false => (⟨some n, text, some "no syntax"⟩, true)
      | some true =>
        let fields := splitFields (rest.take (rest.length - 5))
        (⟨some n, text, if fields = [] then some "no syntax" else if namesOk true fields then none else some "no word"⟩,
          false)
  | none =>
    let fields := splitFields x.buf
    if x.tooMuch ∨ x.buf.head? = some '#' ∨ fields = [] then (⟨none, text, some "no syntax"⟩, false)
    else (⟨none, text, if namesOk false fields then none else some "no word"⟩, false)

/-- A held line is tagged as far as its first character shows, and is not echoed (R33). -/
def echoes (s : State) (l : Line) : Bool :=
  pget s (lineBase l + 1) = 1 && (s.line l).buf.head? ≠ some '#'

/-- A character wakes the fast domain for a line pass (R57). -/
def wakeLine (s : State) : State :=
  if s.pw.pass = .asleep then { s with pw := { s.pw with pass := .line } } else s

/-- The start bit of a character wakes the fast domain, and the line is not silent (R57). -/
def startBit (l : Line) (s : State) : State := wakeLine (s.modLine l fun x => { x with charAt := s.ck.mono })

/-- CHARACTER_RECEIVED (R28, R31, R33, R57, R352, R354). -/
def characterReceived (l : Line) (c : RxChar) (s : State) : State :=
  if linesUp s then
    match c with
    | .framing => startBit l s
    | .collision =>
      if l = .host ∧ s.pw.form = .rs485 then
        (startBit l s).modLine l fun x => { x with buf := [], tooMuch := false, edited := false, discard := true,
                                                   cntCheck := x.cntCheck + 1 }
      else startBit l s
    | .byte b =>
      let n := b.toNat
      let ch := Char.ofNat n
      let s0 := (startBit l s).modLine l fun x => { x with lastCr := false }
      if (s0.line l).discard then s0
      else if n = 8 ∨ n = 127 then
        let x := s0.line l
        if x.buf.head? = some '#' then s0.modLine l fun y => { y with edited := true }
        else if x.buf = [] then s0
        else
          let e := echoes s0 l
          s0.modLine l fun y => { y with buf := y.buf.dropLast }.echo (if e then ['\x08', ' ', '\x08'] else [])
      else if 32 ≤ n ∧ n ≤ 126 then
        let x := s0.line l
        if x.buf.length < 240 then
          let e := pget s (lineBase l + 1) = 1 && (x.buf ++ [ch]).head? ≠ some '#'
          s0.modLine l fun y => { y with buf := y.buf ++ [ch] }.echo (if e then [ch] else [])
        else s0.modLine l fun y => { y with tooMuch := true }
      else s0
  else s

/-- LINE_END_RECEIVED (R28, R35, R52): the line is queued behind the one in execution; a sixth is answered busy. -/
def lineEndReceived (l : Line) (e : LineEnd) (s : State) : State :=
  if linesUp s then
    let x := s.line l
    let s0 := startBit l s
    if e = .lf ∧ x.lastCr then s0.modLine l fun y => { y with lastCr := false }
    else
      let ec := echoes s l
      let clear := fun (y : LineSt) => { y with
        buf := [], tooMuch := false, edited := false, discard := false, lastCr := decide (e = .cr) }
      if x.discard then s0.modLine l clear
      else
        let s1 := s0.modLine l fun y => (clear y).echo (if ec then ['\r', '\n'] else [])
        if x.buf = [] ∧ x.tooMuch = false then s1
        else
          let s1 := s1.modLine l fun y => { y with lineAt := s.ck.mono, warned := false }
          let tag := (splitTag x.buf).1.join
          if 5 ≤ x.queue.length then
            s1.modLine l fun y => { y with cntBusy := y.cntBusy + 1 }.say [replyText tag "busy"]
          else
            let (rx, bad) := judge x
            pump l (s1.modLine l fun y => { y with
              queue := y.queue ++ [rx], cntCheck := if bad then y.cntCheck + 1 else y.cntCheck })
  else s

/-- Every reply and notice due has been sent, and both lines have been silent for 50 ms (R57). -/
def linesQuiet (s : State) : Bool :=
  allLines.all fun l =>
    (s.line l).queue = [] && (s.line l).charAt + 50 ≤ s.ck.mono && (s.line l).otherNotes = []
      && (s.line l).series = [] && (s.line l).watchNotes = []

/-- LINE_PASS_END: 50 ms of silence after the last reply end a line pass (R57). -/
def linePassEnd (s : State) : State :=
  let s0 := flushNotes s
  if s.pw.pass = .line ∧ linesQuiet s then { s0 with pw := { s0.pw with pass := .asleep } } else s0

/-! ## Attic and roles -/

/-- Empties the attic other than by COMMIT, with its audit entry under a line and role, 0 for the module (R49, R237). -/
def emptyAttic (line role : Nat) (s : State) : State :=
  if s.cm.attic = [] then { s with cm := { s.cm with owner := none } }
  else
    let n := s.cm.attic.length
    audit 0x0A line role 0 0 0 n { s with cm := { s.cm with attic := [], owner := none } }

/-- Gives a line a role, with the audit entries of exit and entry; the fall of the attic's owner to VIEW empties the
attic (R43, R46). -/
def setRole (l : Line) (new : Role) (s : State) : State :=
  let old := (s.line l).role
  let s1 := if old ≠ .view ∧ old ≠ new then audit 0x03 (lineCode l) (roleCode old) 0 0 0 0 s else s
  let s2 := s1.modLine l fun x => { x with role := new, warned := false }
  if new = .view then (if s2.cm.owner = some l then emptyAttic (lineCode l) 0 s2 else s2)
  else audit 0x02 (lineCode l) (roleCode new) 0 0 0 0 s2

/-- ROLE is locked on a line (R44). -/
def roleLocked (s : State) (l : Line) : Bool :=
  match (s.line l).lockUntil with
  | some t => s.ck.mono < t
  | none => false

/-- A wrong code: the audit entry, and the lockout after the fifth within 15 minutes (R44). -/
def wrongCode (l : Line) (s : State) : State :=
  let x := s.line l
  let w := x.wrong.filter (fun t => s.ck.mono < t + 900000) ++ [s.ck.mono]
  let s1 := auditLine l 0x05 0 0 0 0 s
  if 5 ≤ w.length then
    auditLine l 0x06 0 0 0 0 (s1.modLine l fun y => { y with wrong := [], lockUntil := some (s.ck.mono + 900000) })
  else s1.modLine l fun y => { y with wrong := w }

/-- The code of a role (R43). -/
def codeOf (s : State) : Role → Option Nat
  | .view => none
  | .operate => some s.ident.codeOperate
  | .metrology => some s.ident.codeMetrology
  | .safety => some s.ident.codeSafety

def State.setCode (s : State) (r : Role) (c : Nat) : State :=
  match r with
  | .view => s
  | .operate => { s with ident := { s.ident with codeOperate := c } }
  | .metrology => { s with ident := { s.ident with codeMetrology := c } }
  | .safety => { s with ident := { s.ident with codeSafety := c } }

def bodyRole (rq : Req) (args : List String) : Body := fun s => do
  let strict := rq.tag.isSome
  let name ← want args.head? .badForm
  need (args.length ≤ 2) .badForm
  match args[1]? with
  | none =>
    let r ← roleField strict name
    need (r = .view) .badForm
    served s "role"
    need (!roleLocked s rq.line) .taken
    .ok (setRole rq.line .view s, ["ok role view"])
  | some c =>
    let code ← codeField c
    let r ← roleField strict name
    need (r ≠ .view) .badForm
    served s "role"
    need (!roleLocked s rq.line) .taken
    if codeOf s r = some code then .ok (setRole rq.line r s, ["ok role " ++ roleName r])
    else .ok (wrongCode rq.line s, ["no role"])

/-- `role` name code `change` newcode; the fields are name, code and newcode (R43, log 19). -/
def bodyRoleCode (rq : Req) (args : List String) : Body := fun s => do
  let strict := rq.tag.isSome
  match args with
  | [name, c, c2] =>
    let code ← codeField c
    let new ← codeField c2
    let r ← roleField strict name
    need (r ≠ .view) .badForm
    served s "role"
    need (!roleLocked s rq.line) .taken
    need ((s.line rq.line).role = r && (r = .operate || s.pw.sealOpen)) .noRole
    if codeOf s r = some code then
      .ok (auditLine rq.line 0x04 (roleCode r) 0 0 0 (s.setCode r new), ["ok role " ++ roleName r])
    else .ok (wrongCode rq.line s, ["no role"])
  | _ => .error .badForm

/-- Time without a received line reaches the line's role idle time (R43). -/
def roleIdleTimeout (l : Line) (s : State) : State :=
  let x := s.line l
  if s.pw.supply ∧ x.role ≠ .view ∧ x.lineAt + 60000 * pnat s (lineBase l + 3) ≤ s.ck.mono then
    noteTo l "role view" (setRole l .view s)
  else s

/-- The warning time before the role falls (R55, Table 2.4). -/
def roleWarnDue (l : Line) (s : State) : State :=
  let x := s.line l
  let warn := pnat s (lineBase l + 4)
  if s.pw.supply ∧ x.role ≠ .view ∧ warn ≠ 0 ∧ x.warned = false
      ∧ x.lineAt + 60000 * (pnat s (lineBase l + 3) - warn) ≤ s.ck.mono then
    noteTo l ("role warn " ++ natText warn) (s.modLine l fun y => { y with warned := true })
  else s

/-- The lockout of ROLE ends (R44). -/
def roleLockoutEnd (l : Line) (s : State) : State :=
  match (s.line l).lockUntil with
  | some t => if t ≤ s.ck.mono then s.modLine l fun y => { y with lockUntil := none } else s
  | none => s

/-! ## GET, WATCH, QUIET, HELP -/

def bodyGet (rq : Req) (args : List String) : Body := fun s => do
  need (1 ≤ args.length && args.length ≤ 8 && args.all paramForm) .badForm
  let ps ← args.mapM (paramField rq.tag.isSome)
  served s "get"
  .ok (s, closeParts (ps.map fun p => p.name ++ " " ++ readText s p))

/-- A watch takes the place of one on the same parameter, or a free slot of 16 (R54). -/
def addWatch (w : Watch) (ws : List Watch) : List Watch :=
  if ws.any (fun v => v.param = w.param) then ws.map fun v => if v.param = w.param then w else v else ws ++ [w]

def bodyWatch (rq : Req) (args : List String) : Body := fun s => do
  let strict := rq.tag.isSome
  match args with
  | [pt, per] =>
    need (paramForm pt) .badForm
    let ms ← if numberLike per then (countField 100 3600000 per).map some else .ok none
    let p ← paramField strict pt
    let _ ← if ms.isNone then wordField strict ["change"] per else .ok 0
    served s "watch"
    let ws := (s.line rq.line).watches
    need (ws.any (fun v => v.param = p.num) || ws.length < 16) .taken
    let w : Watch := { param := p.num, period := ms, last := readText s p, sentAt := s.ck.mono, recent := [] }
    .ok (s.modLine rq.line fun x => { x with watches := addWatch w x.watches },
      ["ok watch " ++ p.name ++ " " ++ (match ms with | some m => natText m | none => "change")])
  | _ => .error .badForm

def bodyQuiet (rq : Req) (args : List String) : Body := fun s => do
  let strict := rq.tag.isSome
  match args with
  | [t] =>
    need (paramForm t) .badForm
    let ws := (s.line rq.line).watches
    if lowerText t = "all" then
      served s "quiet"
      .ok (s.modLine rq.line fun x => { x with watches := [] }, ["ok quiet " ++ natText ws.length])
    else
      let p ← paramField strict t
      served s "quiet"
      let left := ws.filter fun w => w.param ≠ p.num
      .ok (s.modLine rq.line fun x => { x with watches := left }, ["ok quiet " ++ natText (ws.length - left.length)])
  | _ => .error .badForm

/-- The fields of each verb, in the words of Table 2.3. -/
def verbFields (i : Nat) : String :=
  match i with
  | 0 => "parameter ..." | 1 => "parameter value" | 2 => "parameter value" | 3 => "" | 4 => "pending"
  | 5 => "topic run" | 6 => "parameter change or period" | 7 => "parameter or all" | 8 => "action fields" | 9 => "item run"
  | 10 => "name code change newcode" | 11 => "set time" | 12 => "request" | 13 => "fingerprint" | 14 => "request"
  | 15 => "" | 16 => "" | 17 => "" | _ => "verb"

def bodyHelp (rq : Req) (args : List String) : Body := fun s => do
  match args with
  | [] =>
    served s "help"
    .ok (s, verbs.map (fun v => "part " ++ v) ++ ["ok help"])
  | [v] =>
    let i ← wordField rq.tag.isSome verbs v
    served s "help"
    .ok (s, ["part " ++ spaced ([verbs.getD i ""] ++ (if verbFields i = "" then [] else [verbFields i])), "ok help"])
  | _ => .error .badForm

/-- Times of a watch's notes within the last second. -/
def recentNotes (s : State) (w : Watch) : List Nat := w.recent.filter fun t => s.ck.mono < t + 1000

/-- The note of a watch (R54). -/
def watchNote (l : Line) (w : Watch) (v : String) (s : State) : State :=
  s.modLine l fun x => pushNote true ("note watch " ++ nameOf w.param ++ " " ++ v)
    { x with watches := x.watches.map fun y =>
        if y.param = w.param then { y with last := v, sentAt := s.ck.mono, recent := s.ck.mono :: recentNotes s y } else y }

/-- The value a watch reports. -/
def watched (s : State) (w : Watch) : String :=
  match info w.param with
  | some p => readText s p
  | none => "-"

/-- WATCH_PERIOD_DUE (R54). -/
def watchPeriodDue (l : Line) (param : Nat) (s : State) : State :=
  match (s.line l).watches.find? fun w => w.param = param with
  | some w =>
    match w.period with
    | some m => if s.pw.supply ∧ w.sentAt + m ≤ s.ck.mono then watchNote l w (watched s w) s else s
    | none => s
  | none => s

/-- Notes of the `change` watches whose value differs, at most 10 per second each (R54). -/
def changeWatches (l : Line) (s : State) : State :=
  if s.pw.supply then
    (s.line l).watches.foldl (fun t w =>
      if w.period.isNone && decide ((recentNotes t w).length < 10) then
        let v := watched s w
        if v = w.last then t else watchNote l w v t
      else t) s
  else s

/-! ## Meanings -/

/-- GET (R41). -/
def execGet (rq : Req) (args : List String) (s : State) : Host.Outcome State Fault Refusal :=
  done (runLine rq "get" (bodyGet rq args) s)
/-- WATCH (R54). -/
def execWatch (rq : Req) (args : List String) (s : State) : Host.Outcome State Fault Refusal :=
  done (runLine rq "watch" (bodyWatch rq args) s)
/-- QUIET (R41). -/
def execQuiet (rq : Req) (args : List String) (s : State) : Host.Outcome State Fault Refusal :=
  done (runLine rq "quiet" (bodyQuiet rq args) s)
/-- HELP (R41). -/
def execHelp (rq : Req) (args : List String) (s : State) : Host.Outcome State Fault Refusal :=
  done (runLine rq "help" (bodyHelp rq args) s)
/-- ROLE (R43, R44). -/
def execRole (rq : Req) (args : List String) (s : State) : Host.Outcome State Fault Refusal :=
  done (runLine rq "role" (bodyRole rq args) s)
/-- ROLE_CODE_CHANGE (R43). -/
def execRoleCodeChange (rq : Req) (args : List String) (s : State) : Host.Outcome State Fault Refusal :=
  done (runLine rq "role" (bodyRoleCode rq args) s)
/-- LINE_END_RECEIVED (R28, R52). -/
def execLineEndReceived (l : Line) (e : LineEnd) (s : State) : Host.Outcome State Fault Refusal :=
  done (lineEndReceived l e s)
/-- CHARACTER_RECEIVED (R28, R31). -/
def execCharacterReceived (l : Line) (c : RxChar) (s : State) : Host.Outcome State Fault Refusal :=
  .next (characterReceived l c s)
/-- LINE_PASS_END (R57). -/
def execLinePassEnd (s : State) : Host.Outcome State Fault Refusal := .next (linePassEnd s)
/-- ROLE_IDLE_TIMEOUT (R43, R46). -/
def execRoleIdleTimeout (l : Line) (s : State) : Host.Outcome State Fault Refusal := done (roleIdleTimeout l s)
/-- ROLE_WARN_DUE (R55). -/
def execRoleWarnDue (l : Line) (s : State) : Host.Outcome State Fault Refusal := done (roleWarnDue l s)
/-- ROLE_LOCKOUT_END (R44). -/
def execRoleLockoutEnd (l : Line) (s : State) : Host.Outcome State Fault Refusal := .next (roleLockoutEnd l s)
/-- WATCH_PERIOD_DUE (R54). -/
def execWatchPeriodDue (l : Line) (param : Nat) (s : State) : Host.Outcome State Fault Refusal :=
  done (watchPeriodDue l param s)

end Sys2Proof.Machine
end

