-- ==== Sys2Proof/Machine/Outputs.lean ====
section
/-! DEFINITION. Current, pulse and digital outputs and inputs (chapter 14): the shared operations. -/

namespace Sys2Proof.Machine

def State.modCo (s : State) (x : Fin 4) (f : Co → Co) : State :=
  { s with io := { s.io with co := s.io.co.set x.val (f s.io.co[x]) x.isLt } }
def State.modPo (s : State) (x : Fin 4) (f : Po → Po) : State :=
  { s with io := { s.io with po := s.io.po.set x.val (f s.io.po[x]) x.isLt } }
def State.modDi (s : State) (x : Fin 4) (f : Di → Di) : State :=
  { s with io := { s.io with di := s.io.di.set x.val (f s.io.di[x]) x.isLt } }

/-- First parameter of current output x. -/
def coBase (x : Fin 4) : Nat := 0x9000 + 0x40 * x.val

/-- The code nearest to a current of `num ÷ den` mA (R288). -/
def maCode (num : Int) (den : Nat) : Nat := (clampInt 0 65535 (roundDiv (num * 65536) (24 * den))).toNat

/-- Code of the safe-state value: 3.600 or 21.500 mA (R312). -/
def safeLevel (s : State) (x : Fin 4) : Nat := maCode (if pget s (0xA010 + x.val) = 1 then 21500 else 3600) 1000

/-- Valve position u, 10⁻⁶ %, as a current (R288). -/
def positionCode (s : State) (x : Fin 4) (u : Int) : Nat :=
  if pget s (coBase x + 0x21) = 0 then maCode (400000000 + 16 * u) 100000000
  else maCode (2000000000 - 16 * u) 100000000

/-- Valve position that a code represents, 10⁻⁶ % (R294, R300). -/
def codePosition (s : State) (x : Fin 4) (code : Nat) : Int :=
  let d := if pget s (coBase x + 0x21) = 0 then (code : Int) * 24 - 4 * 65536 else 20 * 65536 - (code : Int) * 24
  roundDiv (d * 100000000) (16 * 65536)

/-- Value of a numeric parameter as a fraction. -/
def valueRat (s : State) (p : PInfo) : Option (Int × Nat) :=
  (numOf s p).map fun v => match p.kind with
    | .gain => (v, 16384)
    | .rate => (v * 48000, 2 ^ 32)
    | k => (v, 10 ^ kindDec k)

/-- The source's input carries no anneal and has status `ok` (R175, R289). -/
def sourceOk (s : State) (n : Nat) : Bool :=
  let temp := fun (r : Run) =>
    shownStatus s r s.runs[r].fe.temp.status = .ok && s.runs[r].fe.temp.anneal = 0
  let press := fun (r : Run) =>
    shownStatus s r s.runs[r].fe.press.status = .ok && s.runs[r].fe.press.anneal = 0
  match runOffset n with
  | none =>
    if h : 0xA100 ≤ n ∧ n < 0xA140 then
      let r : Run := ⟨(n - 0xA100) / 0x10, by omega⟩
      if n % 0x10 = 6 then press r else if n % 0x10 = 7 then temp r else true
    else true
  | some (r, o) =>
    let t := s.runs[r]
    if o = 0x21B ∨ o = 0x21C then temp r
    else if o = 0x22B ∨ o = 0x22C then press r
    else if 0x414 ≤ o ∧ o ≤ 0x416 then temp r && press r
    else if o = 0x310 ∨ o = 0x312 ∨ o = 0x313 then t.eng.status = .ok
    else if 0x320 ≤ o ∧ o ≤ 0x323 then t.eng.pilot.status ≠ .anneal && t.eng.pilot.status ≠ .idle
    else true

/-- Code of mode `retransmit`; none where the output holds (R288, R289). -/
def retransmitCode (s : State) (x : Fin 4) : Option Nat :=
  let src := pnat s (coBase x + 0x22)
  if sourceOk s src then
    ((info src).bind (valueRat s)).map fun v =>
      let lo := pget s (coBase x + 0x23)
      let hi := pget s (coBase x + 0x24)
      let span := ((hi - lo) * v.2).toNat
      let num := 4 * (span : Int) + 16 * (v.1 * 1000 - lo * v.2)
      (clampInt (maCode 3800 1000) (maCode 20500 1000) (roundDiv (num * 65536) (24 * span))).toNat
  else none

/-- Takes the current of an output from the first line of Table 14.2 that applies (R301). -/
def refreshCo (x : Fin 4) (s : State) : State :=
  let mode := pget s (coBase x + 0x20)
  s.modCo x fun c =>
    let lim := fun (v : LimState) => if mode = 3 then v else .idle
    if s.pw.ms = .cold ∨ (s.pw.ms = .keep ∧ s.pw.supply = false) then
      { c with code := 0, status := .idle, lim := lim .idle }
    else if s.pw.ms = .safe then { c with code := safeLevel s x, status := .safe, lim := lim .safe }
    else if s.pw.ms ≠ .run then { c with code := safeLevel s x, status := .idle, lim := lim .idle }
    else match c.force with
      | some f => { c with code := f.1, status := .forced, lim := lim .forced }
      | none =>
        let st : CoStatus := if c.loopOpen then .opened else .ok
        if mode = 0 then { c with code := 0, status := st, lim := .idle }
        else if mode = 1 then { c with code := (retransmitCode s x).getD c.code, status := st, lim := .idle }
        else if mode = 2 then { c with code := maCode (pget s (coBase x + 0x25)) 1000, status := st, lim := .idle }
        else
          let l := if c.lim = .hold ∨ c.lim = .fail then c.lim else .run
          { c with code := if c.takeOver then c.code else positionCode s x c.u, status := st, lim := l }

/-- All current outputs. -/
def refreshOutputs (s : State) : State := (List.finRange 4).foldl (fun t x => refreshCo x t) s

/-- Opens the pulse outputs (R298, R301). -/
def openPulses (s : State) : State :=
  (List.finRange 4).foldl (fun t x => t.modPo x fun p => { p with onUntil := none }) s

/-- Ends a force with its audit entry (R302). -/
def endForce (line role : Nat) (x : Fin 4) (s : State) : State :=
  match s.io.co[x].force with
  | some _ =>
    refreshCo x (audit 0x0D line role 0 (coBase x + 0x26) 0 0
      (s.modCo x fun c => { c with force := none, takeOver := true }))
  | none => s

/-- Ends every force. -/
def endForces (s : State) : State := (List.finRange 4).foldl (fun t x => endForce 0 0 x t) s

/-- The limiter takes over bumplessly at its next valid update (R294). -/
def takeOverAll (s : State) : State :=
  (List.finRange 4).foldl (fun t x => t.modCo x fun c => { c with takeOver := true }) s

/-- Proportional part kp × (c − r) ÷ c, 10⁻⁶ % (R293). -/
def limiterP (s : State) (x : Fin 4) (r : Int) : Int :=
  let c := pget s (coBase x + 0x31)
  roundDiv (pget s (coBase x + 0x32) * (c - r) * 1000000) c.toNat

/-- Re-initialises the integral term without any change of u (R294). -/
def reinitLimiter (x : Fin 4) (s : State) : State :=
  s.modCo x fun c => { c with i := c.u - (match c.rate with | some r => limiterP s x r | none => 0) }

/-- Gives pulse output x the base that keeps a pending count (R298, log 20). -/
def rebase (x : Fin 4) (pending : Nat) (s : State) : State :=
  s.modPo x fun p => { p with
    base := if pget s (0x9200 + 0x10 * x.val) = 1 then poWhole s x - p.issued - pending else - (pending : Int) }

/-- The module has coils to drive only in RUN with the latch clear (R22). -/
def coilsOff (s : State) : State :=
  let n := if s.sf.coil then 1 else 0
  { s with sf := { s.sf with coil := false }
           sp := { s.sp with trips := (s.sp.trips.1 + n, s.sp.trips.2 + n) } }

end Sys2Proof.Machine
end

