-- ==== Sys2Proof/Machine/Disturb.lean ====
section
/-! DEFINITION. Shared operations on a run's measurement (R86, R107, R109, R113, R130, R131, R140) and on the state
machines, and the moves of the module state with what each brings (Tables 1.4 and 1.5, R312, R317, R318). -/

namespace Sys2Proof.Machine

def RunSt.modFe (t : RunSt) (f : FrontEnd → FrontEnd) : RunSt := { t with fe := f t.fe }
def RunSt.modEng (t : RunSt) (f : EngineRun → EngineRun) : RunSt := { t with eng := f t.eng }
def RunSt.modPilot (t : RunSt) (f : Pilot → Pilot) : RunSt := { t with eng := { t.eng with pilot := f t.eng.pilot } }
def RunSt.modQty (t : RunSt) (f : QtyRun → QtyRun) : RunSt := { t with qty := f t.qty }
def RunSt.modCur (t : RunSt) (f : RunBlock → RunBlock) : RunSt :=
  { t with qty := { t.qty with cur := f t.qty.cur } }

/-- The word that names a run. -/
def runText (r : Run) : String := "run" ++ natText (r.val + 1)

/-- Ends an averaging of a pilot reference without storing (R140). -/
def failAvg (r : Run) (cause : String) (s : State) : State :=
  match s.runs[r].eng.pilot.avg with
  | some _ => noteAll (spaced ["pilot.ref", runText r, "fail", cause])
      (s.modRun r fun t => t.modPilot fun p => { p with avg := none })
  | none => s

/-- Ends a vibration fit with its cause word (R113). -/
def failFit (r : Run) (cause : String) (s : State) : State :=
  match s.mx.fits[r] with
  | some _ => noteAll (spaced ["vibfit", runText r, "fail", cause])
      { s with mx := { s.mx with fits := s.mx.fits.set r.val none r.isLt } }
  | none => s

/-- A disturbance of a fast path other than the first input of a burst: anneal for its settling count, an annealed
pilot window and source U for the block (R107, R131, R140, R141, R146). -/
def disturb (r : Run) (vib : Bool) (s : State) : State :=
  let n := pathSettle s r vib
  failAvg r "anneal" (s.modRun r fun t =>
    ((t.modEng fun e => if vib then { e with vibAnneal := n } else { e with liftAnneal := n }).modPilot
      fun p => { p with disturbed := true }).modCur fun b => { b with disturbed := true })

/-- A pilot change of R109 on a run. -/
def disturbPilot (r : Run) (s : State) : State :=
  failAvg r "pilot" (s.modRun r fun t => t.modPilot fun p => { p with disturbed := true })

/-- Settling count of a slow path, w + m − 2 (R130). -/
def slowSettle (s : State) (r : Run) (temp : Bool) : Nat :=
  let b := rp r (if temp then 0x31A else 0x318)
  medianWindow (pnat s b) + meanLength (pnat s (b + 1)) - 2

/-- Settling count of the axis paths, in sets of outputs (R130). -/
def axisSettle (s : State) : Nat :=
  let p := preset (pnat s 0x6F02)
  (p.2.1 + medianWindow (pnat s 0x6F00) - 1 + p.1 - 1) / p.1

/-- A slow input at the start of a span: no conversion is kept across it (R89), and its path anneals (R131). -/
def SlowIn.startSpan (settle : Nat) (x : SlowIn) : SlowIn :=
  { x with lastPos := none, lastNeg := none, convs := [], clipAt := (false, false), clips := [], hist := [], means := []
           anneal := settle }

/-- A slow input whose front end restarts: a new span, and no status until its first result (R86, R91). -/
def SlowIn.restart (settle : Nat) (x : SlowIn) : SlowIn :=
  { x.startSpan settle with status := .idle, good := 0, openRun := 0, shortRun := 0 }

/-- Restarts the front end of a run: its inputs are idle for 20 ms of awake time, and a lead phase is due behind them (R86,
R91, R113, R140, R141). -/
def restartFe (r : Run) (s : State) : State :=
  let nt := slowSettle s r true
  let np := slowSettle s r false
  let s1 := s.modRun r fun t =>
    ((t.modFe fun f => { f with
        lift := .idle, vib := .idle, fastGood := (0, 0), restarting := true, restartAt := s.ck.awake, leads := []
        lead := none, leadDue := true, leadFirst := none, temp := f.temp.restart nt, press := f.press.restart np }).modPilot
      fun p => { p with status := .idle, disturbed := true, badLift := 0, badVib := 0, good := 0, sums := ((0, 0), (0, 0))
                        n := 0, results := [] }).modCur fun b => { b with disturbed := true }
  failFit r "restart" (failAvg r "idle" s1)

/-! ## State machines -/

/-- A machine reset as at START (R176, R182). -/
def StMachine.clear (m : StMachine) : StMachine :=
  { m with st := 0, cnt := 0, timers := Vector.replicate 2 none, expired := Vector.replicate 2 false, demand := none
           demandAt := none, resetNext := false }

/-- The audit entry of a machine reset (R182). -/
def auditReset (m : Fin 8) (s : State) : State := audit 0x0D 0 0 0 (0x6200 + 0x10 * m.val) 0 0 s

/-- Resets machine m with its audit entry (R182). -/
def resetMachine (m : Fin 8) (s : State) : State := auditReset m (s.modMachine m StMachine.clear)

/-! ## Safety set -/

/-- Module note 001Fh (Table 15.4). -/
def safetySetNote (outcome count : Nat) (s : State) : State :=
  moduleNote s 0x1F (leBytes 1 outcome ++ leBytes 1 count ++ leBytes 4 (safetyCrc s).toNat)

/-- Cause word of a dropped safety set by outcome code (Table 15.4). -/
def dropWord (outcome : Nat) : String := if outcome = 2 then "timeout" else if outcome = 3 then "code" else "state"

/-- Drops the waiting safety set (R318). -/
def dropWait (outcome : Nat) (s : State) : State :=
  match s.cm.wait with
  | some w =>
    let s1 := { s with cm := { s.cm with wait := none } }
    let s2 := noteTo w.line ("safety dropped " ++ dropWord outcome) s1
    let s3 := safetySetNote outcome w.set.members.length s2
    audit 0x11 (lineCode w.line) (roleCode w.role) outcome 0 0 (safetyCrc s).toNat s3
  | none => s

/-! ## Moves of the module state -/

/-- Mode `fixed` keeps the configured threshold (R60). -/
def fixThreshold (s : State) (r : Run) (t : RunSt) : RunSt :=
  if pget s (rp r 0x40) = 0 then { t with threshold := pnat s (rp r 0x41) } else t

/-- The thresholds on entering RUN or SAFE (R60). -/
def fixThresholds (s : State) : State :=
  { s with runs := Vector.ofFn fun (r : Fin 4) => fixThreshold s r s.runs[r] }

/-- The events of KEEP enter the first tick of RUN or SAFE (R167). -/
def raiseKept (s : State) : State :=
  { s with ev := { s.ev with raised := s.ev.raised ++ s.ev.fromKeep, fromKeep := [] } }

/-- Moves the module to a state with all that the state brings: forces end, pulse outputs open, coils follow Table 1.4,
outputs take Table 14.2, events 48h and 49h are raised (R23, R166, R294, R301, R302, R312). -/
def moveTo (new : ModState) (line role : Nat) (c : Cause) (s : State) : State :=
  let old := s.pw.ms
  let s1 := enter new line role c (if old = .run then endForces s else s)
  let s2 := match new with
    | .run =>
      let t := takeOverAll { s1 with sf := { s1.sf with coil := !s1.sf.latch } }
      raiseEvent 0x48 0 (stateCode old) 0 7 0 (raiseKept (fixThresholds t))
    | .safe => raiseEvent 0x49 0 (stateCode old) 0 7 0 (raiseKept (fixThresholds (coilsOff s1)))
    | _ => openPulses (coilsOff s1)
  refreshOutputs s2

/-- Clears a line's session at START and at NRST: role VIEW, watches and queues cleared, counters zeroed (Table 2.5). -/
def resetLine (l : Line) (s : State) : State :=
  (setRole l .view s).modLine l fun x => { x with
    buf := [], tooMuch := false, edited := false, lastCr := false, discard := false, queue := [], watches := []
    warned := false, cntCheck := 0, cntBusy := 0, cntLost := 0, watchNotes := [], otherNotes := [], series := []
    dropped := 0 }

/-! ## Keep records and power records -/

/-- Three bytes of whole minutes after the KEEP entry, FFFFFFh for none (Table 11.8). -/
def keepMinutes (at_ : Nat) (t : Option Nat) : List Byte :=
  match t with
  | some x => leBytes 3 ((x - at_) / 60)
  | none => [0xFF, 0xFF, 0xFF]

/-- Writes a keep record to A and B (R69, R238); its latch bounds a span where its time is valid. -/
def keepRecord (final : Bool) (s : State) : State :=
  let tallies := s.runs.map (·.latched)
  let volts := (s.pw.cellMv - 2000) / 20
  let bytes := leBytes 4 (nowSec s) ++ (tallies.toList.flatMap fun w => leBytes 4 w.toNat)
    ++ leBytes 2 s.pw.kcCount.toNat ++ leBytes 2 s.pw.lcKeep.toNat
    ++ keepMinutes s.pw.keepAt s.pw.kcFirst ++ keepMinutes s.pw.keepAt s.pw.lcFirst
    ++ leBytes 1 (min volts 255) ++ leBytes 1 ((if s.pw.cellLow then 1 else 0) + (if final then 2 else 0))
  let s1 := putBytes s (0x40000 + 32 * s.lg.keepNext) bytes
  { s1 with
    lg := { s1.lg with keepNext := (s1.lg.keepNext + 1) % 32768
                       keeps := if s1.ck.valid then
                           (s1.lg.keeps ++ [KeepLatch.mk (s1.lg.latchAt.getD (nowSec s)) tallies false]).drop
                             (s1.lg.keeps.length + 1 - 32768)
                         else s1.lg.keeps }
    pw := { s1.pw with cellLow := false } }

/-- The power-fail record (kind 5) or stop record (kind 6) of this moment (R68, R238). -/
def powerRec (s : State) (kind : Nat) : PowerRec :=
  { kind := kind, time := nowSec s, tallies := s.runs.map (·.latched), pricing := s.runs.map (·.qty.pricing) }

/-- The 72 bytes of a power-fail or stop record (R238). -/
def powerBytes (p : PowerRec) : List Byte :=
  leBytes 1 p.kind ++ [0, 0, 0] ++ leBytes 4 p.time ++ (p.tallies.toList.flatMap fun w => leBytes 4 w.toNat)
  ++ p.pricing.toList.flatMap fun q => match q with
    | some x => leInt 4 x.rho ++ leInt 4 x.h ++ leInt 4 x.kc
    | none => List.replicate 4 0xFF ++ List.replicate 8 0

end Sys2Proof.Machine
end

