-- ==== Sys2Proof/Machine/Commit.lean ====
section
/-! DEFINITION. Changes of parameters (R42, R45 ... R51, R85, R86, R118, R317): SET, STAGE, COMMIT, DISCARD and the
application of a set at its boundary. -/

namespace Sys2Proof.Machine

/-! ## Settling -/

/-- Inserts by parameter number. -/
def insertMember (m : Member) : List Member → List Member
  | [] => [m]
  | x :: xs => if m.param ≤ x.param then m :: x :: xs else x :: insertMember m xs

/-- Members in ascending parameter number (R48). -/
def sortMembers : List Member → List Member
  | [] => []
  | m :: ms => insertMember m (sortMembers ms)

/-- Value of a parameter in a list of members. -/
def memberValue (ms : List Member) (n : Nat) : Option Int := (ms.find? fun m => m.param = n).map (·.value)

/-- Range of a cell parameter at COMMIT: the free cells of its kind (R85). -/
def freeCells (s : State) (fast : Bool) (env : Nat → Int) (done_ : List Member) (n : Nat) : List Int :=
  let others := ((cellParams fast).filter (· ≠ n)).map env
  let taken := (done_.filter fun m => m.param ∈ cellParams fast).map (·.value)
  let cur := pget s n
  let free := (soundCells s fast).filter fun c => c ∉ others
  if cur ∈ taken ∨ cur ∈ free then free else cur :: free

/-- Settles one member where those before it are settled and those after it count as staged (R48). -/
def settleOne (s : State) (done_ rest : List Member) (m : Member) : Option Member :=
  match info m.param with
  | none => some m
  | some p =>
    let env := fun n => ((memberValue done_ n).orElse fun _ => memberValue (m :: rest) n).getD (pget s n)
    let r := match cellKind m.param with
      | some fast => { fixedRange s p with pts := some (freeCells s fast env done_ m.param) }
      | none => liveRange s env (pget s m.param) p
    match p.kind with
    | .source => some m
    | _ => (settle p.kind r m.value).map fun v => { m with value := v }

/-- Settles the members one at a time (R48); none where a cell parameter finds no cell (R85). -/
def settleFrom (s : State) (done_ : List Member) : List Member → Option (List Member)
  | [] => some done_
  | m :: ms => (settleOne s done_ ms m).bind fun x => settleFrom s (done_ ++ [x]) ms

/-- The settled members of a set, in ascending number. -/
def settleSet (s : State) (ms : List Member) : Option (List Member) := settleFrom s [] (sortMembers ms)

/-! ## Classes -/

/-- Rank of a commit class (R47). -/
def classRank : CommitClass → Nat
  | .i => 0 | .f => 1 | .b => 2 | .s => 3 | .z => 4

/-- Letter of a commit class in a reply. -/
def className : CommitClass → String
  | .i => "i" | .f => "f" | .b => "b" | .s => "s" | .z => "z"

/-- Commit class of a parameter. -/
def classOf (n : Nat) : CommitClass := ((info n).bind (·.cls)).getD .i

/-- Seal class of a parameter. -/
def sealOf (n : Nat) : Seal :=
  match info n with
  | some p => p.sc
  | none => .opn

/-- Class of the strictest member (R47). -/
def strictest (ms : List Member) : CommitClass :=
  ms.foldl (fun c m => if classRank c < classRank (classOf m.param) then classOf m.param else c) .i

/-! ## Taking effect -/

/-- Stores a member's value with its audit entry (R51). -/
def storeMember (m : Member) (s : State) : State :=
  let old := pget s m.param
  audit 0x01 m.line (roleCode m.role) 0 m.param old m.value
    { s with cm := { s.cm with params := pStore s.cm.params m.param m.value } }

/-- Number of the gain of a fast cell (0 … 9) into a sink. -/
def gainNum (cell sink : Nat) : Nat := 0x5000 + 0x20 * cell + sink

/-- Moves the matrix rows with the fast cells, from the assignments before and after (R118). A gain that keeps its value
writes no audit entry, and the others' entries carry no line and role VIEW. DESIGN CHOICE, log 87. -/
def moveGains (before : State) (s : State) : State :=
  let ps := cellParams true
  let old := ps.map (pget before)
  let new := ps.map (pget s)
  if old = new then s
  else
    let rowOf : Nat → Option Nat := fun c =>
      match (ps.find? fun p => pget s p = (c : Int)) with
      | some p => some (pget before p).toNat
      | none => none
    (List.range 10).foldl (fun t (c : Nat) =>
      let held : Bool := (c : Int) ∈ old
      let gain := fun (k : Nat) => match rowOf c with
        | some c0 => pget before (gainNum c0 k)
        | none => if held then 0 else pget before (gainNum c k)
      (List.range 18).foldl (fun u k =>
        let n := gainNum c k
        if gain k = pget u n then u else storeMember ⟨n, gain k, 0, .view⟩ u) t) s

/-- Nonzero gains of the stored parameters, by source × 32 + sink (R106, R107). -/
def storedGains (s : State) : List (Nat × Int) :=
  (List.range 20).flatMap fun a => (List.range 18).filterMap fun b =>
    let g := pget s (0x5000 + 0x20 * a + b)
    if g = 0 then none else some (0x20 * a + b, g)

/-- Front-end parameters whose change restarts a run (R86). -/
def restartOffsets : List Nat := [0x200, 0x201, 0x202, 0x203, 0x210, 0x211, 0x212, 0x220, 0x221, 0x222, 0x223]

/-- Runs whose front end a set restarts. -/
def restartedRuns (before s : State) : List Run :=
  allRuns.filter fun r => restartOffsets.any fun o => pget before (rp r o) ≠ pget s (rp r o)

/-- A fast path takes a class F change that acts in its present mode (R131). -/
def pathChanged (before s : State) (r : Run) (vib : Bool) : Bool :=
  let b := pathBase r vib
  let ch := fun n => pget before n ≠ pget s n
  let sink := 2 * r.val + (if vib then 1 else 0)
  ch b || ch (b + 1) || ch (b + 3) || (ch (b + 4) && pget s (b + 3) = 3)
    || (List.range 20).any fun a => ch (0x5000 + 0x20 * a + sink)

/-- The pilot of a run changes (R109). -/
def pilotChanged (before s : State) (r : Run) : Bool :=
  let ch := fun n => pget before n ≠ pget s n
  let t := 10 + (pget s 0x5480).toNat
  ch 0x5480 || ch 0x5481 || ch (gainNum t (8 + 2 * r.val)) || ch (gainNum t (9 + 2 * r.val))

/-- Adopts a draft where its revision changed (R97, R150, R154). -/
def adoptTables (before : State) (r : Run) (s : State) : State :=
  let ch := fun o => pget before (rp r o) ≠ pget s (rp r o)
  let live := fun (b : Bool) (t : Table) => if b then { t with live := t.draft } else t
  s.modRun r fun t => { t with
    tabTemp := live (ch 0x219) t.tabTemp, tabPress := live (ch 0x229) t.tabPress, tabK := live (ch 0x402) t.tabK
    tabDens := live (ch 0x40A) t.tabDens, tabEnth := live (ch 0x40A) t.tabEnth, tabZ := live (ch 0x40A) t.tabZ }

/-- What a set changes in one run (R60, R86, R107, R109, R131, R146, R172). -/
def effectRun (before : State) (s : State) (r : Run) : State :=
  let ch := fun o => pget before (rp r o) ≠ pget s (rp r o)
  let s1 := adoptTables before r s
  let s2 := if restartOffsets.any ch then restartFe r s1 else s1
  let s3 := if pathChanged before s r false then disturb r false s2 else s2
  let s4 := if pathChanged before s r true then disturb r true s3 else s3
  let restarted := fun (vib : Bool) (p : PathSt) =>
    if ch ((if vib then 0x308 else 0x300) + 3) then { p with next := 0, ratio := 0 } else p
  let s4a := s4.modRun r fun t => t.modEng fun e => { e with lift := restarted false e.lift, vib := restarted true e.vib }
  let s5 := if pilotChanged before s r then disturbPilot r s4a else s4a
  let nt := slowSettle s r true
  let np := slowSettle s r false
  s5.modRun r fun t =>
    let t1 := if ch 0x31A ∨ ch 0x31B then t.modFe fun f => { f with temp := { f.temp with anneal := nt } } else t
    let t2 := if ch 0x318 ∨ ch 0x319 then t1.modFe fun f => { f with press := { f.press with anneal := np } } else t1
    let t3 := if ch 0x400 ∨ ch 0x318 ∨ ch 0x319 ∨ ch 0x31A ∨ ch 0x31B then t2.modCur fun b => { b with disturbed := true }
      else t2
    let t4 := if ch 0x202 ∨ ch 0x203 then { t3 with recog := { t3.recog with relRef := 0, relHigh := false } } else t3
    if measuring s then fixThreshold s r t4 else t4

/-- What a set changes in machine m (R176, R182). -/
def effectMachine (before : State) (s : State) (m : Fin 8) : State :=
  let b := 0x6200 + 0x10 * m.val
  let s1 := if pget before (b + 1) ≠ pget s (b + 1) then s.modMachine m fun x => { x with adoptNext := true } else s
  if pget s b = 0 ∧ pget before b ≠ 0 then s1.modMachine m StMachine.clear else s1

/-- What a set changes at current output x (R288, R294). -/
def effectCo (before : State) (s : State) (x : Fin 4) : State :=
  let b := coBase x
  let ch := fun o => pget before (b + o) ≠ pget s (b + o)
  let s1 := if ch 0x20 ∧ pget s (b + 0x20) = 3 then s.modCo x fun c => { c with takeOver := true, invalid := 0 } else s
  let s2 := if ch 0x30 ∨ ch 0x31 ∨ ch 0x32 ∨ ch 0x33 then reinitLimiter x s1 else s1
  let s3 := if ch 0x20 ∧ pget s (b + 0x20) ≠ 1 ∧ pget s (b + 0x20) ≠ 3 then s2.modCo x fun c => { c with valve := 0 } else s2
  refreshCo x s3

/-- What a set changes at pulse output x (R298). -/
def effectPo (before : State) (s : State) (x : Fin 4) : State :=
  let b := 0x9200 + 0x10 * x.val
  if [0, 1, 2, 3].any (fun o => pget before (b + o) ≠ pget s (b + o)) then rebase x (poPending before x) s else s

/-- The trip-reset input's function follows `safety.reset.di` (R299). -/
def effectDi (before : State) (s : State) : State :=
  let old := (pget before 0xA003).toNat
  let new := (pget s 0xA003).toNat
  if old = new then s
  else
    let s1 := if old = 0 then s else storeMember ⟨0x9300 + 0x10 * (old - 1), 0, 0, .view⟩ s
    if new = 0 then s1 else storeMember ⟨0x9300 + 0x10 * (new - 1), 1, 0, .view⟩ s1

/-- LEVEL instances that are switched off (R175). -/
def effectLevels (s : State) : State :=
  let lv := Vector.ofFn fun (i : Fin 8) => if pget s (0x6101 + 0x10 * i.val) = 0 then ⟨false, 0⟩ else s.ev.levels[i]
  { s with ev := { s.ev with levels := lv } }

/-- Gains that became due: in a burst they go into the shadow bank for the next frame boundary, behind a copy under way into
the boundary after it; outside one the frames of the fast domain bring them into both banks before anything is measured
(R106). -/
def Matrix.takeGains (burst : Bool) (g : List (Nat × Int)) (m : Matrix) : Matrix :=
  if !burst then { m with active := g, shadow := g, swap := false, copying := false, late := none }
  else if m.copying then { m with late := some g }
  else { m with shadow := g, swap := true }

/-- A frame boundary: a copy that ran is complete, and a shadow bank with changes becomes the active one (R106). -/
def Matrix.boundary (m : Matrix) : Matrix :=
  let m1 := if m.copying then { m with shadow := m.late.getD m.active, swap := m.late.isSome, copying := false, late := none }
    else m
  if m1.swap then { m1 with active := m1.shadow, shadow := m1.active, swap := false, copying := true } else m1

/-- What a set changes in the axis paths (R131). -/
def effectAxes (before s : State) : State :=
  let ch := fun n => pget before n ≠ pget s n
  if ch 0x6F00 ∨ ch 0x6F01 ∨ ch 0x6F02 then
    { s with en := { s.en with
        axisAnneal := axisSettle s
        axes := if ch 0x6F02 then s.en.axes.map fun p => { p with next := 0 } else s.en.axes } }
  else s

/-- Everything that follows from the values a set has changed. -/
def effects (before s : State) : State :=
  let s1 := { s with mx := s.mx.takeGains (decide (s.pw.pass = .burst)) (storedGains s) }
  let s2 := effectAxes before (if storedGains before = storedGains s then s else s1)
  let s3 := allRuns.foldl (effectRun before) s2
  let s4 := (List.finRange 8).foldl (effectMachine before) s3
  let s5 := (List.finRange 4).foldl (effectPo before) s4
  effectLevels (effectDi before ((List.finRange 4).foldl (effectCo before) s5))

/-- The members of a set whose cells another set has taken since they were settled are settled again, and left out where no
cell is free: a cell serves one input at most (R84, R85). DEDUCED, log 86. -/
def resettle (s : State) (ms : List Member) : List Member :=
  let isCell := fun (m : Member) => (cellKind m.param).isSome
  let cells := (settleFrom s [] (ms.filter isCell)).getD []
  ms.filterMap fun m => if isCell m then cells.find? fun c => c.param = m.param else some m

/-- Applies members at their boundary, in ascending number; gains move with the cells before staged gains (R51, R118). -/
def applyMembers (members : List Member) (s : State) : State :=
  let ms := resettle s members
  let low := ms.filter fun m => m.param < 0x5000
  let high := ms.filter fun m => 0x5000 ≤ m.param
  let s1 := low.foldl (fun t m => storeMember m t) s
  let s2 := moveGains s s1
  effects s (high.foldl (fun t m => storeMember m t) s2)

/-! ## Scheduling -/

/-- Monotonic ms of the next whole second (R47). -/
def nextSecond (s : State) : Nat := s.ck.mono + (1000 - nowMs s % 1000)

/-- Adds members to the pending class Z set; a newer member replaces an older one (R49). -/
def mergeZ (old new : List Member) : List Member :=
  (old.filter fun m => (memberValue new m.param).isNone) ++ new

/-- Schedules a set at the boundary of its strictest member (R47, R49). -/
def schedule (ms : List Member) (note : Option Line) (s : State) : State :=
  let c := strictest ms
  match c with
  | .i => applyMembers ms s
  | .z => { s with cm := { s.cm with pendingZ := mergeZ s.cm.pendingZ ms } }
  | .f => { s with cm := { s.cm with due := s.cm.due ++ [⟨c, s.ck.mono, ms, note⟩] } }
  | _ => { s with cm := { s.cm with due := s.cm.due ++ [⟨c, nextSecond s, ms, note⟩] } }

/-- `note commit` count `applied` (R47). -/
def noteCommit (l : Option Line) (count : Nat) (s : State) : State :=
  match l with
  | some x => noteTo x ("commit " ++ natText count ++ " applied") s
  | none => s

/-- Applies one due set; the note of class S waits for the restarts it begins (R47, R86). -/
def applyDue (d : DueSet) (s : State) : State :=
  let n := d.members.length
  let s1 := applyMembers d.members s
  if d.cls = .b then noteCommit d.note n s1
  else if d.cls = .s then
    if restartedRuns s s1 = [] then noteCommit d.note n s1
    else { s1 with cm := { s1.cm with restarting := s1.cm.restarting ++ [(d.note, n)] } }
  else s1

/-! ## Safety confirmation -/

/-- A value with its parameter's name. -/
def memberText (m : Member) : String :=
  match info m.param with
  | some p => p.name ++ " " ++ valueText p.kind m.value
  | none => ""

/-- Any member of seal class S (R50). -/
def needsConfirm (ms : List Member) : Bool := ms.any fun m => sealOf m.param = .s

/-- The set waits for DO SAFETY.CONFIRM; the read-back and the code follow the reply (R317). -/
def awaitConfirm (l : Line) (ms : List Member) (s : State) : State :=
  let code := (Config.confirmCode s.cm.drawn).val
  let w : WaitSet := { set := ⟨strictest ms, 0, ms, some l⟩, line := l, role := (s.line l).role, code := code, wrong := 0,
                       deadline := s.ck.mono + 1000 * pnat s 0xA007 }
  let s1 := { s with cm := { s.cm with wait := some w, drawn := s.cm.drawn + 1 } }
  noteSeries l ((ms.zipIdx.map fun q => spaced ["safety readback", natText (q.2 + 1), memberText q.1])
    ++ [spaced ["safety confirm", natText ms.length, padText 4 code]]) s1

/-- Order 4 for a waiting safety set (R318). -/
def waitFree (s : State) (ms : List Member) (single_ : Bool) : Bool :=
  match s.cm.wait with
  | none => true
  | some w => !needsConfirm ms && !(single_ && ms.any fun m => (memberValue w.set.members m.param).isSome)

/-! ## Line commands -/

/-- Orders 1 and 2 of `parameter value`: the parameter and its value clamped in its own fixed range (R46). -/
def paramValue (strict : Bool) (args : List String) (s : State) : Except Reason (PInfo × Int) :=
  match args with
  | [pt, vt] => do
    need (paramForm pt) .badForm
    need (valueShape vt || (paramField strict pt).isOk) .badForm
    let p ← paramField strict pt
    need (valueForm p.kind vt) .badForm
    need (valueNames strict p.kind vt) .noWord
    .ok (p, (valueCode strict p (fixedRange s p) vt).getD (pget s p.num))
  | _ => .error .badForm

def bodySet (rq : Req) (args : List String) : Body := fun s => do
  let (p, v) ← paramValue rq.tag.isSome args s
  served s "set"
  let m : Member := ⟨p.num, v, lineCode rq.line, (s.line rq.line).role⟩
  need ((memberValue s.cm.attic p.num).isNone && waitFree s [m] true) .taken
  need (p.cls.isSome && sealOk s rq.line p.sc) .noRole
  match settleSet s [m] with
  | none => .error .taken
  | some ms =>
    let stored := (memberValue ms p.num).getD v
    let pend := if p.cls = some .z then " pending" else ""
    let reply := ["ok " ++ p.name ++ " " ++ valueText p.kind stored ++ pend]
    if needsConfirm ms then .ok (awaitConfirm rq.line ms s, reply) else .ok (schedule ms none s, reply)

/-- The attic with a member staged: it replaces one of the same parameter (R46). -/
def stageMember (m : Member) (ms : List Member) : List Member :=
  if (memberValue ms m.param).isSome then ms.map fun x => if x.param = m.param then m else x else ms ++ [m]

def bodyStage (rq : Req) (args : List String) : Body := fun s => do
  let (p, v) ← paramValue rq.tag.isSome args s
  served s "stage"
  need (s.cm.attic = [] || s.cm.owner = some rq.line) .taken
  need ((memberValue s.cm.attic p.num).isSome || s.cm.attic.length < 64) .taken
  need (p.cls.isSome && sealOk s rq.line p.sc) .noRole
  let m : Member := ⟨p.num, v, lineCode rq.line, (s.line rq.line).role⟩
  .ok ({ s with cm := { s.cm with attic := stageMember m s.cm.attic, owner := some rq.line } },
    ["ok stage " ++ p.name ++ " " ++ valueText p.kind v])

def bodyCommit (rq : Req) (args : List String) : Body := fun s => do
  need (args = []) .badForm
  served s "commit"
  need (s.cm.attic = [] || s.cm.owner = some rq.line) .taken
  let role := (s.line rq.line).role
  let staged := s.cm.attic.map fun m => { m with line := lineCode rq.line, role := role }
  need (waitFree s staged false) .taken
  need (staged.all fun m => sealOk s rq.line (sealOf m.param)) .noRole
  match settleSet s staged with
  | none => .error .taken
  | some ms =>
    let c := strictest ms
    let pend := if c = .z then " pending" else ""
    let lines := ms.map (fun m => "part " ++ memberText m)
      ++ ["ok commit " ++ natText ms.length ++ " " ++ className c ++ pend]
    let s1 := { s with cm := { s.cm with attic := [], owner := none } }
    if needsConfirm ms then .ok (awaitConfirm rq.line ms s1, lines) else .ok (schedule ms (some rq.line) s1, lines)

def bodyDiscard (rq : Req) (args : List String) : Body := fun s => do
  need (args = []) .badForm
  served s "discard"
  need (s.cm.attic = [] || s.cm.owner = some rq.line) .taken
  needRole s rq.line .operate
  .ok (emptyAttic (lineCode rq.line) (roleCode (s.line rq.line).role) s, ["ok discard " ++ natText s.cm.attic.length])

/-- `discard pending` is served on either line, whichever line owns the attic, since it takes nothing from it. DESIGN
CHOICE, log 80. -/
def bodyDiscardPending (rq : Req) (args : List String) : Body := fun s => do
  need (args = []) .badForm
  served s "discard"
  needRole s rq.line .operate
  .ok ({ s with cm := { s.cm with pendingZ := [] } }, ["ok discard " ++ natText s.cm.pendingZ.length])

/-- SET (R42). -/
def execSet (rq : Req) (args : List String) (s : State) : Host.Outcome State Fault Refusal :=
  done (runLine rq "set" (bodySet rq args) s)
/-- STAGE (R46). -/
def execStage (rq : Req) (args : List String) (s : State) : Host.Outcome State Fault Refusal :=
  done (runLine rq "stage" (bodyStage rq args) s)
/-- COMMIT (R47, R48). -/
def execCommit (rq : Req) (args : List String) (s : State) : Host.Outcome State Fault Refusal :=
  done (runLine rq "commit" (bodyCommit rq args) s)
/-- DISCARD (R49). -/
def execDiscard (rq : Req) (args : List String) (s : State) : Host.Outcome State Fault Refusal :=
  done (runLine rq "discard" (bodyDiscard rq args) s)
/-- DISCARD_PENDING (R49). -/
def execDiscardPending (rq : Req) (args : List String) (s : State) : Host.Outcome State Fault Refusal :=
  done (runLine rq "discard" (bodyDiscardPending rq args) s)

end Sys2Proof.Machine
end

