-- ==== Sys2Proof/Machine/Trig.lean ====
section
/-! DEFINITION. Sine and cosine of a phase, in fixed point with 40 decimals: the tone generators (R108), the pilot
detector (R139), the tracker (R135) and the tilt (R174). -/

namespace Sys2Proof.Machine

/-- One, in fixed point. -/
def one40 : Int := 10 ^ 40

/-- π × 10⁴⁰. -/
def pi40 : Int := 31415926535897932384626433832795028841972

/-- Terms of the sine's series from term `k` on: `x2` is the square of the angle. -/
def sineTerms : Nat → Int → Int → Int → Int
  | 0, _, _, _ => 0
  | n + 1, x2, k, term => term + sineTerms n x2 (k + 2) (-(term * x2 / one40) / ((k + 1) * (k + 2)))

/-- Sine of `r` × 2⁻³² cycle for a quarter of a cycle at most, × 10⁴⁰. -/
def sineQuarter (r : Nat) : Int :=
  if r = 2 ^ 30 then one40
  else
    let x := (r : Int) * pi40 / 2 ^ 31
    sineTerms 20 (x * x / one40) 1 x

/-- Sine of a phase in 2⁻³² cycle, × 10⁴⁰. -/
def sine40 (phase : Nat) : Int :=
  let r := phase % 2 ^ 30
  match phase / 2 ^ 30 % 4 with
  | 0 => sineQuarter r
  | 1 => sineQuarter (2 ^ 30 - r)
  | 2 => -sineQuarter r
  | _ => -sineQuarter (2 ^ 30 - r)

/-- Cosine of a phase in 2⁻³² cycle, × 10⁴⁰. -/
def cosine40 (phase : Nat) : Int := sine40 (phase + 2 ^ 30)

/-- The sine of full-scale peak at a phase: 2²³ − 1 times the sine, a whole number beside it where it is none (R108). Which
one is free (log 11). -/
def fullSine (phase : Word) : Int :=
  let y := 8388607 * sine40 phase.toNat
  y / one40 + if y % one40 ≠ 0 ∧ Config.sineUp phase then 1 else 0

/-- Largest value of `lo … hi` for which `below` holds, by halving; `lo` where it holds for none. -/
def invertFrom (below : Int → Bool) : Nat → Int → Int → Int
  | 0, lo, _ => lo
  | n + 1, lo, hi =>
    let mid := (lo + hi + 1) / 2
    if below mid then invertFrom below n mid hi else invertFrom below n lo (mid - 1)

/-- The square root of `n`, rounded down. -/
def isqrt (n : Nat) : Nat :=
  (invertFrom (fun k => k * k ≤ n) (n.log2 / 2 + 2) 0 (2 ^ (n.log2 / 2 + 1))).toNat

/-- Phase of `k` × 0.1°, in 2⁻³² cycle. -/
def tenthPhase (k : Int) : Nat := ((k % 3600) * 2 ^ 32 / 3600).toNat

/-- The angle of (x, y) in 0.1°, from −1800 to 1800: the largest step that does not pass it. -/
def angleTenths (x y : Int) : Int :=
  if 0 ≤ y then invertFrom (fun k => 0 ≤ y * cosine40 (tenthPhase k) - x * sine40 (tenthPhase k)) 11 0 1800
  else -invertFrom (fun k => 0 ≤ -y * cosine40 (tenthPhase k) - x * sine40 (tenthPhase k)) 11 0 1800

/-- The angle whose cosine is `dot` ÷ √(aa × bb), in 0.1°: the largest step that does not pass it; 0 where a vector is 0. -/
def angleBetween (dot : Int) (aa bb : Nat) : Nat :=
  (invertFrom (fun k =>
    let c := cosine40 (tenthPhase k)
    let l := (dot.natAbs ^ 2 : Nat) * (one40 * one40)
    let r := c * c * ((aa * bb : Nat) : Int)
    if 0 ≤ dot then (if 0 ≤ c then l ≤ r else false) else (if 0 ≤ c then true else r ≤ l)) 11 0 1800).toNat

end Sys2Proof.Machine
end

