-- ==== Sys2Proof/Machine/Streams.lean ====
section
/-! DEFINITION. The stream packets of the filter engine (R121, R132, R186 ... R189, R194), and what the recognisers find in
the outputs of the engine (R169 ... R174). -/

namespace Sys2Proof.Machine

/-! ## Values and instants -/

/-- Largest and smallest 24-bit values (R103, R105). -/
def top24 : Int := 8388607
def low24 : Int := -8388608

/-- A value held to 24 bits, and whether that changed it (R105, R133). -/
def saturate24 (x : Int) : Int × Bool := (clampInt low24 top24 x, decide (x < low24 ∨ top24 < x))

/-- Engine clocks of a millisecond and of a frame (R120). -/
def clocksPerMs : Nat := 49152
def clocksPerFrame : Nat := 1024

/-- Engine clocks in µs, to nearest. -/
def clocksToMicros (c : Nat) : Nat := (roundDiv (c * 125 : Nat) 6144).toNat

/-- A stream output word (R132). -/
def streamWord (value : Int) (anneal clip frozen held : Bool) (slot : Nat) : Word :=
  let b := fun (x : Bool) (k : Nat) => if x then k else 0
  BitVec.ofNat 32 ((value % 16777216).toNat * 256 + b anneal 128 + b clip 64 + b frozen 32 + b held 16 + min slot 14)

/-! ## Packets -/

/-- Subject of the stream of a bit of `queue.stream.sel` (Table 9.1, R189). -/
def streamSubject (k : Fin 17) : Nat :=
  if k.val < 8 then (k.val / 2 + 1) * 16 + k.val % 2
  else if k.val < 12 then (k.val - 7) * 16 + 2
  else if k.val < 16 then (k.val - 11) * 16 + 3
  else 4

/-- A stream packet of a path, which the engine clock of its first output tags; one of the same path that still waits is
shed (R186 ... R189, R194). -/
def streamPacket (subject clock : Nat) (words : List Word) (s : State) : State :=
  let len := words.length + 3
  let (q, s1) := takeSeq s 0
  let all := header 2 0 len subject q :: BitVec.ofNat 32 (clock / 49152000) :: BitVec.ofNat 32 (clock % 49152000) :: words
  let waits := fun (w : Waiter) => decide (w.origin = 0) && decide (((w.words.headD 0).toNat / 256) % 256 = subject)
  let s2 := if s1.qu.waiters.any waits then
      shed (s1.modQueue fun z => { z with waiters := z.waiters.filter fun w => !waits w }) 2
    else s1
  ask s2 { origin := 0, cls := 2, words := all, len := len, since := s.ck.mono }

def State.modBuf (s : State) (k : Fin 17) (b : StreamBuf) : State :=
  { s with en := { s.en with bufs := s.en.bufs.set k.val b k.isLt } }

/-- Output words of a packet: `queue.stream.words` without the three words ahead, in whole sets (R188, R189). An axis packet
holds one set at least. DESIGN CHOICE, log 84. -/
def streamRoom (s : State) (k : Fin 17) : Nat :=
  let unit := if k.val = 16 then 6 else 1
  max unit ((pnat s 0x7004 - 3) / unit * unit)

/-- Outputs of one instant join the packet of their path where it is selected; a full packet is sent (R189). -/
def streamOut (k : Fin 17) (clock : Nat) (words : List Word) (s : State) : State :=
  if pnat s 0x7003 / 2 ^ k.val % 2 = 1 then
    let b := s.en.bufs[k]
    let b1 : StreamBuf := ⟨b.words ++ words, if b.words = [] then clock else b.clock⟩
    if streamRoom s k ≤ b1.words.length then streamPacket (streamSubject k) b1.clock b1.words (s.modBuf k ⟨[], 0⟩)
    else s.modBuf k b1
  else s

/-- The last output of a burst closes the packets short (R189). -/
def flushStreams (s : State) : State :=
  (List.finRange 17).foldl (fun t k =>
    let b := t.en.bufs[k]
    if b.words = [] then t else streamPacket (streamSubject k) b.clock b.words (t.modBuf k ⟨[], 0⟩)) s

/-! ## Hammers, pulses and windows of a run -/

def State.modRecog (s : State) (r : Run) (f : RecogRun → RecogRun) : State :=
  s.modRun r fun t => { t with recog := f t.recog }

/-- The magnitude of a 24-bit value in 0.1 % of full scale. -/
def permille (x : Nat) : Nat := (roundDiv (x * 1000 : Nat) 8388608).toNat

/-- A hammer that began and ended at two engine clocks waits for HAMMER, with its largest magnitude (R169). -/
def raiseHammer (began ended peak : Nat) (c : RecogRun) : RecogRun :=
  { c with hamFrom := none, hammers := c.hammers ++ [(clocksToMicros began, permille peak, clocksToMicros (ended - began))] }

/-- The last output of an awake span ends a hammer (R169). -/
def endHammer (c : RecogRun) : RecogRun :=
  match c.hamFrom with
  | some (b, e, p) => raiseHammer b e p c
  | none => c

/-- A vibration output at the hammer of its run (R169): an annealed one is not judged and ends it, a clipped one counts as
above any threshold. -/
def hammerStep (percent clock : Nat) (v : Int) (anneal clip : Bool) (c : RecogRun) : RecogRun :=
  let above : Bool := !anneal && (clip || decide (percent * 8388608 < 100 * v.natAbs))
  match c.hamFrom with
  | some (b, _, p) => if above then { c with hamFrom := some (b, clock, max p v.natAbs) } else raiseHammer b clock p c
  | none => if above then { c with hamFrom := some (clock, clock, v.natAbs) } else c

/-- One sample of a CADENCE instance: above its threshold, below half of it, fit to be judged (R170). -/
def pulseStep (above below fit : Bool) (clock : Nat) (c : RecogRun) : RecogRun :=
  if !fit then { c with pulseCut := true }
  else if !c.pulse && above then
    let found := match c.pulseAt with
      | some t => [CadenceInput.interval (clocksToMicros (clock - t)) (!c.pulseCut)]
      | none => []
    { c with pulse := true, pulseAt := some clock, pulseCut := false, pulseAge := 0, beats := c.beats ++ found }
  else if c.pulse && below then { c with pulse := false }
  else c

/-- Awake time passes for a CADENCE instance: none pulse within 2 × `cadence.pmax` (R170). -/
def pulseAgeStep (limit clocks : Nat) (c : RecogRun) : RecogRun :=
  let age := c.pulseAge + clocks
  { c with pulseAge := age, beats := if c.pulseAge ≤ limit ∧ limit < age then c.beats ++ [.noPulse] else c.beats }

/-- Outputs of a path in 2 ms, its rate as a ratio code (R170). -/
def envLength (rate : Nat) : Nat := max 1 (roundDiv (rate * 96 : Nat) (2 ^ 32)).toNat

/-- A vibration output at the CADENCE instance of its run (R170). -/
def vibPulse (s : State) (r : Run) (rate clock : Nat) (v : Int) (fit : Bool) (c : RecogRun) : RecogRun :=
  if pget s (rp r 0x510) = 1 then
    let env := (v.natAbs :: c.env).take (envLength rate)
    let thr := pnat s (rp r 0x511) * 8388608 * env.length
    pulseStep (decide (thr < 100 * env.sum)) (decide (200 * env.sum < thr)) fit clock { c with env := env }
  else c

/-- A pressure sample at the CADENCE instance of its run: against the running mean of 1 s (R170). -/
def pressPulse (s : State) (r : Run) (clock : Nat) (v : Int) (fit : Bool) (c : RecogRun) : RecogRun :=
  if pget s (rp r 0x510) = 2 then
    let xs := (v :: c.presses).take 1000
    let above := v * xs.length - xs.sum
    let thr := pget s (rp r 0x511) * xs.sum
    pulseStep (decide (thr < 100 * above)) (decide (200 * above < thr)) fit clock { c with presses := xs }
  else c

/-- A vibration output in the RMS window of its run (R172). -/
def rmsStep (v : Int) (fit : Bool) (c : RecogRun) : RecogRun :=
  { c with rms := (c.rms.1 + v.natAbs ^ 2, c.rms.2.1 + 1, c.rms.2.2), rmsCut := c.rmsCut || !fit }

/-- Full scale of a fast range in 10⁻⁶ pC (R81, Table 4.4). -/
def fastScale (s : State) (r : Run) (vib : Bool) : Nat := 2000000 * 10 ^ pnat s (rp r (if vib then 0x203 else 0x201))

/-- RMS of the sum of squares of n 24-bit values, 10⁻⁶ pC, rounded down. -/
def rmsOf (sum n scale : Nat) : Nat := isqrt (sum * scale ^ 2 / (max 1 n * 2 ^ 46))

/-- A frame of awake time passes for the recognisers of a run: every 48000 the RMS window ends (R170, R172). -/
def recogFrame (s : State) (r : Run) (c : RecogRun) : RecogRun :=
  let c1 := pulseAgeStep (2 * pnat s (rp r 0x513) * clocksPerMs) clocksPerFrame c
  if c1.rms.2.2 + 1 < 48000 then { c1 with rms := (c1.rms.1, c1.rms.2.1, c1.rms.2.2 + 1) }
  else { c1 with
    windows := c1.windows ++ [(rmsOf c1.rms.1 c1.rms.2.1 (fastScale s r true), !c1.rmsCut)]
    rms := (0, 0, 0), rmsCut := false }

/-- A sleep gap at the recognisers of a run (R62, R170). -/
def RecogRun.wake (c : RecogRun) : RecogRun := { c with env := [], presses := [], pulse := false, pulseCut := true }

/-! ## Axes -/

/-- Square of the length of a vector. -/
def norm2 (v : Vector Int 3) : Nat := (v.map fun x => x.natAbs ^ 2).toList.sum

/-- The falls of R171 over one axis output: `m` is the squared magnitude, 2⁻⁴⁰ g². -/
def fallStep (s : State) (m clocks : Nat) (e : Events) : Events :=
  if pget s 0x6F01 ≠ 0 then { e with fallRun := none }
  else
    let rise := if 16 * 2 ^ 40 < 25 * m then e.riseRun + clocks else 0
    let e1 := { e with riseRun := rise, fallArmed := e.fallArmed || decide (1000 * clocksPerMs ≤ rise) }
    if m * 10000 < (pnat s 0x6020) ^ 2 * 2 ^ 40 then
      let run := match e1.fallRun with
        | some (t, low) => (t + clocks, min low m)
        | none => (clocks, m)
      let ms := pnat s 0x6021
      let found : Bool := e1.fallArmed && decide (ms * clocksPerMs ≤ run.1)
      { e1 with
        fallRun := some run, fallArmed := e1.fallArmed && !found
        falls := if found then e1.falls ++ [(run.1 / clocksPerMs, isqrt (run.2 * 1000000 / 2 ^ 40))] else e1.falls }
    else { e1 with fallRun := none }

/-- Length of a rotation vector in 0.1° (R173): full scale is 500 °/s. -/
def rotTenths (v : Vector Int 3) : Nat := (roundDiv (isqrt (norm2 v * 25000000)) (8388608 * 49152000)).toNat

/-- The rotation of R173 over one axis output: rates less the bias, for its time; beyond `turn.threshold` it is found, and
the vector zeroed. -/
def rotStep (s : State) (rate : Vector Int 3) (clocks : Nat) (e : Events) : Events :=
  let v := Vector.ofFn fun (i : Fin 3) => e.rotVec[i] + (rate[i] - e.gyroBias[i]) * clocks
  if pnat s 0x6030 < rotTenths v then
    { e with rotVec := Vector.replicate 3 0, rot := some 0, turns := e.turns ++ [rotTenths v] }
  else { e with rotVec := v, rot := some (rotTenths v) }

/-- The bias window of R173: the mean rate of a whole second of rest, `full` outputs. -/
def gyroStep (sec full : Nat) (rate : Vector Int 3) (acc : Nat) (e : Events) : Events :=
  let rest : Bool := decide (361 * 2 ^ 40 ≤ 400 * acc ∧ 400 * acc ≤ 441 * 2 ^ 40) && decide (norm2 rate * 62500 < 2 ^ 46)
  let (t, sum, n, quiet) := e.gyro
  if t = sec then
    { e with gyro := (t, Vector.ofFn fun (i : Fin 3) => sum[i] + rate[i], n + 1, quiet && rest) }
  else
    { e with
      gyroBias := if n = full ∧ quiet then sum.map fun x => roundDiv x n else e.gyroBias
      gyro := (sec, rate, 1, rest) }

/-- The tilt vector of R174: the mean acceleration over 20 ms, `full` outputs, behind the axis anneal of a wake. -/
def tiltStep (full : Nat) (acc : Vector Int 3) (e : Events) : Events :=
  if full ≤ e.tiltSum.2 then e
  else
    let sum := Vector.ofFn fun (i : Fin 3) => e.tiltSum.1[i] + acc[i]
    let n := e.tiltSum.2 + 1
    if n = full then
      let v := sum.map fun x => roundDiv x n
      { e with tiltSum := (sum, n), tiltVec := some v, tiltDue := true, tiltWait := false
               tiltRef := if e.tiltWait then some v else e.tiltRef }
    else { e with tiltSum := (sum, n) }

/-- What the recognisers do with one set of axis outputs that is not annealed (R171, R173, R174). Annealed sets are not
judged. DEDUCED, log 85. -/
def axisFound (s : State) (v : Vector Int 6) (clock clocks : Nat) (e : Events) : Events :=
  let acc : Vector Int 3 := #v[v[0], v[1], v[2]]
  let rate : Vector Int 3 := #v[v[3], v[4], v[5]]
  let full := 49152000 / clocks
  tiltStep (full / 50) acc (gyroStep (clock / 49152000) full rate (norm2 acc)
    (rotStep s rate clocks (fallStep s (norm2 acc) clocks e)))

/-- A wake at the recognisers of the axes (R173, R174). -/
def Events.wake (e : Events) : Events :=
  { e with fallRun := none, rotVec := Vector.replicate 3 0, rot := some 0, tiltSum := (Vector.replicate 3 0, 0) }

end Sys2Proof.Machine
end

