-- ==== Sys2Proof/Machine/Slow.lean ====
section
/-! DEFINITION. Slow inputs (chapter 04, R123 ... R125, R308): curves, tables, lead compensation, lead faults and the
chain of one conversion; the tables' commands DO_FE_POINT; the lead calibration and the end of a front-end restart. -/

namespace Sys2Proof.Machine

/-! ## Curves and tables -/

/-- R ÷ Rnom × 10³⁵ at `t` in 0.001 °C (R94, R95). -/
def curveRatio (code alpha t : Int) : Int :=
  if code = 0 then 10 ^ 35 + alpha * t * 10 ^ 27
  else if code = 5 ∨ code = 6 then
    10 ^ 35 + 5485 * 10 ^ 26 * t + 665 * 10 ^ 21 * t ^ 2 + 2805 * 10 ^ 9 * t ^ 4 - 2 * t ^ 6
  else
    let base := 10 ^ 35 + 39083 * 10 ^ 25 * t - 5775 * 10 ^ 19 * t ^ 2
    if 0 ≤ t then base else base - 4183 * 10 ^ 8 * (t - 100000) * t ^ 3

/-- Valid range of a curve in 0.001 °C (Table 4.2). -/
def curveSpan (code : Int) : Int × Int := if code = 5 ∨ code = 6 then (-60000, 180000) else (-200000, 850000)

/-- Temperature of a resistance by a standard or linear curve, and whether it lies beyond the range (R95, R96). Of the
two neighbouring steps the one whose resistance is nearer is taken (log 22). -/
def curveTemp (code alpha rnom r : Int) : Int × Bool :=
  let (lo, hi) := curveSpan code
  let at_ := fun t => curveRatio code alpha t * rnom
  let x := r * 10 ^ 35
  if x < at_ lo then (lo, true)
  else if at_ hi < x then (hi, true)
  else
    let t := invertFrom (fun m => at_ m ≤ x) 21 lo hi
    if t < hi ∧ at_ (t + 1) - x < x - at_ t then (t + 1, false) else (t, false)

/-- The points of the segment that serves `x`: those around it, or the end segment. -/
def segment (x : Int) : List (Int × Int) → Option ((Int × Int) × (Int × Int))
  | [a, b] => some (a, b)
  | a :: b :: c :: r => if x ≤ b.1 then some (a, b) else segment x (b :: c :: r)
  | _ => none

/-- Value of a table as a fraction, and whether it lies beyond the 5 % extension; none for an empty table (R97). A table of
one breakpoint, which a draft edited below two between a revision's commit and its boundary leaves, gives that breakpoint's
y everywhere. DESIGN CHOICE, log 88. -/
def lookup (tab : List (Int × Int)) (x : Int) : Option ((Int × Nat) × Bool) :=
  match tab with
  | [] => none
  | [p] => some ((p.2, 1), false)
  | p :: _ =>
    let q := tab.getLast?.getD p
    let span := q.1 - p.1
    let x20 := clampInt (20 * p.1 - span) (20 * q.1 + span) (20 * x)
    (segment x tab).map fun (a, b) =>
      let dx := 20 * (b.1 - a.1)
      ((a.2 * dx + (x20 - 20 * a.1) * (b.2 - a.2), dx.toNat), decide (x20 ≠ 20 * x))

/-- Sets or replaces a breakpoint, sorted by x (R97). -/
def setPoint (x y : Int) : List (Int × Int) → List (Int × Int)
  | [] => [(x, y)]
  | p :: r => if x < p.1 then (x, y) :: p :: r else if x = p.1 then (x, y) :: r else p :: setPoint x y r

/-- Removes a breakpoint. -/
def clearPoint (x : Int) (t : List (Int × Int)) : List (Int × Int) := t.filter fun p => p.1 ≠ x

/-- A draft after an edit; none where a 33rd breakpoint would arise (R97). -/
def editDraft (x : Int) (y : Option Int) (t : Table) : Option Table :=
  let d := match y with
    | some v => setPoint x v t.draft
    | none => clearPoint x t.draft
  if d.length ≤ 32 then some { t with draft := d } else none

/-! ## One input -/

/-- Rnom of a run's temperature curve, 0.001 Ω: a standard curve fixes it (R94). -/
def nominalOhm (s : State) (r : Run) : Int := (curveRnom (pget s (rp r 0x214))).getD (pget s (rp r 0x215))

/-- Linearised temperature, 0.001 °C, and the status that the curve gives (R94 ... R97). -/
def linearTemp (s : State) (r : Run) (ohm : Int) : Int × InStatus :=
  let code := pget s (rp r 0x214)
  let rnom := nominalOhm s r
  if code = 7 then
    match lookup s.runs[r].tabTemp.live ohm with
    | some (v, b) => (roundDiv v.1 v.2, if b then .range else .ok)
    | none => (0, .range)
  else
    let (t, b) := curveTemp code (pget s (rp r 0x216)) rnom ohm
    (t, if b then .range else .ok)

/-- Linearised pressure, 0.01 kPa(a), and its status (R96, R97). -/
def linearPress (s : State) (r : Run) (mvv : Int) : Int × InStatus :=
  let res : Int × InStatus :=
    if pget s (rp r 0x224) = 1 then
      match lookup s.runs[r].tabPress.live mvv with
      | some (v, b) => (roundDiv v.1 v.2, if b then .range else .ok)
      | none => (0, .range)
    else
      let x0 := pget s (rp r 0x225)
      let y0 := pget s (rp r 0x226)
      let y1 := pget s (rp r 0x228)
      let dx := pget s (rp r 0x227) - x0
      (if dx = 0 then Config.steepLine mvv y0 y1 else y0 + roundDiv (dx.sign * (mvv - x0) * (y1 - y0)) dx.natAbs, .ok)
  if res.1 < 0 then (0, .range) else res

/-- Limit of the headroom of a slow input: 1.26 V at the current in 0.001 Ω, or 105 % of range in 0.0001 mV/V (Table
4.1, R83, R88). -/
def headroom (s : State) (r : Run) (temp : Bool) : Int :=
  if temp then
    let e := pget s (rp r 0x212)
    if e = 0 then 5040000 else if e = 1 then 2520000 else 1260000
  else
    let e := pget s (rp r 0x223)
    if e = 0 then 42000 else if e = 1 then 168000 else 672000

/-- Full scale of a slow input: 1.2 V at the current in 0.001 Ω, or the bridge's range in 0.0001 mV/V (Table 4.1, R88). -/
def slowScale (s : State) (r : Run) (temp : Bool) : Nat :=
  if temp then
    let e := pget s (rp r 0x212)
    if e = 0 then 4800000 else if e = 1 then 2400000 else 1200000
  else
    let e := pget s (rp r 0x223)
    if e = 0 then 40000 else if e = 1 then 160000 else 640000

/-- Median of the values: the middle one of the sorted list (R125); of an even number, while a span has delivered fewer than
the window, the lower of the two in the middle. DESIGN CHOICE, log 89. -/
def insertInt (x : Int) : List Int → List Int
  | [] => [x]
  | y :: ys => if x ≤ y then x :: y :: ys else y :: insertInt x ys
def sortInts : List Int → List Int
  | [] => []
  | x :: xs => insertInt x (sortInts xs)
def medianOf (xs : List Int) : Int := (sortInts xs).getD ((xs.length - 1) / 2) 0

/-- The excitation alternates: always for the thermometer, forms alt25 and alt50 for the bridge (R87, R88). -/
def alternating (s : State) (r : Run) (temp : Bool) : Bool := temp || 2 ≤ pget s (rp r 0x222)

/-- Lead value that R90 subtracts: none where no result may be formed yet (R91). -/
def leadTerm (s : State) (r : Run) : Option Int :=
  let w := pget s (rp r 0x211)
  if w = 2 then some 0
  else if w = 0 ∨ pget s (rp r 0x213) = 1 then some (pget s (rp r 0x217))
  else s.runs[r].fe.lead.map fun x => (x : Int)

/-- A lead phase is measured on this run (R91). -/
def leadMeasured (s : State) (r : Run) : Bool := pget s (rp r 0x211) = 1 && pget s (rp r 0x213) = 0

/-- Mean of the lead-phase results, 0.001 Ω. -/
def leadMean (xs : List Nat) : Nat := (roundDiv (xs.sum : Nat) xs.length).toNat

/-- A lead-phase result (R91). -/
def leadPhase (r : Run) (v : Nat) (s : State) : State :=
  if leadMeasured s r then
    s.modRun r fun t => t.modFe fun f =>
      let l := (v :: f.leads).take 8
      { f with leads := l, lead := if leadMean l ≤ 50000 then some (leadMean l) else f.lead }
  else s

/-- The lead value lies above 50.000 Ω. -/
def leadHigh (s : State) (r : Run) : Bool :=
  leadMeasured s r && s.runs[r].fe.leads ≠ [] && 50000 < leadMean s.runs[r].fe.leads

/-- What one conversion shows: the clamped signed value and whether it was clipped. -/
def clipConv (lim v : Int) : Int × Bool := (clampInt (-lim) lim v, decide (lim ≤ v ∨ v ≤ -lim))

/-- The result after a conversion: half the difference of the latest polarities, to nearest with ties away from zero
(DESIGN CHOICE, log 90), or the conversion itself (R89). -/
def halfDiff (alt : Bool) (x : SlowIn) (v : Int) (positive : Bool) : Option Int × SlowIn :=
  if alt then
    let y := if positive then { x with lastPos := some v } else { x with lastNeg := some v }
    (match y.lastPos, y.lastNeg with
      | some p, some n => some (roundDiv (p - n) 2)
      | _, _ => none, y)
  else (some v, x)

/-- Sums of the conversions at positive and at negative polarity. -/
def polaritySums (convs : List (Int × Bool)) : Int × Int :=
  ((convs.filterMap fun c => if c.2 then some c.1 else none).sum,
    (convs.filterMap fun c => if c.2 then none else some c.1).sum)

/-- Over the last 8 conversions, 4 of each polarity, the part that follows the reversal lies below 0.5 % of the range (Table
4.3; code 29h of Table 15.3). -/
def stuckPolarity (scale : Nat) (convs : List (Int × Bool)) : Bool :=
  let q := polaritySums convs
  convs.length = 8 && decide (200 * (q.1 - q.2).natAbs < 8 * scale)

/-- The signal lead of an alternating bridge is open: the result does not follow the reversal, and the remainder lies above
50 % of the range (Table 4.3). -/
def unfollowed (scale : Nat) (convs : List (Int × Bool)) : Bool :=
  let q := polaritySums convs
  stuckPolarity scale convs && decide (8 * scale < 2 * (q.1 + q.2).natAbs)

/-- Status after a conversion: a fault takes its place at once, `ok` after 8 conversions without a fault (R98). -/
def nextStatus (fault : Option InStatus) (x : SlowIn) : SlowIn :=
  match fault with
  | some f => { x with status := f, good := 0 }
  | none =>
    if x.status = .ok then x
    else if x.status = .idle then { x with status := .ok, good := 8 }
    else if 8 ≤ x.good + 1 then { x with status := .ok, good := 8 }
    else { x with good := x.good + 1 }

/-- The input of a run. -/
def inputOf (s : State) (r : Run) (temp : Bool) : SlowIn := if temp then s.runs[r].fe.temp else s.runs[r].fe.press

/-- Stores the input of a run. -/
def putInput (r : Run) (temp : Bool) (x : SlowIn) (s : State) : State :=
  s.modRun r fun t => t.modFe fun f => if temp then { f with temp := x } else { f with press := x }

/-- Fault of a conversion in the order of Table 4.3; the counts are conversions, one per millisecond. -/
def faultOf (s : State) (r : Run) (temp : Bool) (x : SlowIn) (clipped : Bool) (lin : InStatus) : Option InStatus :=
  if 2 ≤ x.openRun then some .opened
  else if temp && decide (2 ≤ x.shortRun) then some .short
  else if !temp && alternating s r false && unfollowed (slowScale s r false) x.convs then some .opened
  else if temp && leadHigh s r then some .lead
  else if clipped then some .clip
  else if lin = .range then some .range
  else none

/-- Adds a delivered result of the block (R151): not annealed, status `ok` or `range`. -/
def gatherResult (r : Run) (temp : Bool) (v : Int) (st : InStatus) (s : State) : State :=
  if st = .ok ∨ st = .range then
    s.modRun r fun t => t.modCur fun b =>
      if temp then { b with tSum := b.tSum + v, tN := b.tN + 1, held := b.held || decide (st = .range) }
      else { b with pSum := b.pSum + v, pN := b.pN + 1, held := b.held || decide (st = .range) }
  else s

/-- Adds a safety-tap result of an armed input (R308); the burst watchdog has its result (Table 15.3, 24h). -/
def addTap (r : Run) (temp : Bool) (v : Int) (st : InStatus) (s : State) : State :=
  if armed s r temp then
    { s with sf := { s.sf with
        taps := s.sf.taps ++ [⟨r, temp, v, st⟩], tapDue := s.sf.tapDue.filter fun q => q ≠ (r, temp) } }
  else s

/-- A slow result in the 24 bits of its stream word, at the full scale of the path's input (R132). -/
def slowCode (s : State) (r : Run) (temp : Bool) (v : Int) : Int :=
  (saturate24 (roundUpDiv (v * 8388608) (slowScale s r temp))).1

/-- Stream of a slow path: bits 8 ... 11 and 12 ... 15 of the selection (R189). -/
def slowStream (r : Run) (temp : Bool) : Fin 17 := if temp then ⟨12 + r.val, by omega⟩ else ⟨8 + r.val, by omega⟩

/-- Instant that a result stands for, where its conversion ended at engine clock `clock` (Table 6.3). -/
def slowInstant (s : State) (r : Run) (temp : Bool) (clock : Nat) : Nat :=
  let b := rp r (if temp then 0x31A else 0x318)
  clock - 24576 * ((if alternating s r temp then 2 else 1) + (medianWindow (pnat s b) - 1) + (meanLength (pnat s (b + 1)) - 1))

/-- The word of a slow result: a held one repeats the last result with status ok; where there has been none its value is free
(R98, R132, log 13). -/
def slowWord (s : State) (r : Run) (temp : Bool) (x : SlowIn) (anneal held : Bool) : Word :=
  let v := match if held then x.chain.2 else x.chain.1 with
    | some y => slowCode s r temp y
    | none => Config.freeValue s.qu.outputs
  streamWord v anneal (x.clips.any id) false held 14

/-- One conversion of a slow input that ends at engine clock `clock` (R83, R89 ... R98, R123, R125, R132, R308). -/
def convertSlow (r : Run) (temp : Bool) (c : RawConv) (clock : Nat) (s : State) : State :=
  let x0 := inputOf s r temp
  let (v, clipped) := clipConv (headroom s r temp) c.value
  let alt := alternating s r temp
  let clipAt := if c.positive then (clipped, x0.clipAt.2) else (x0.clipAt.1, clipped)
  let (res, x1) := halfDiff alt { x0 with
    convs := ((v, c.positive) :: x0.convs).take 8, clipAt := clipAt
    openRun := if c.openLead then x0.openRun + 1 else 0 } v c.positive
  match res, (if temp then leadTerm s r else some 0) with
  | some raw, some lead =>
    let short : Bool := temp && decide (10 * (raw - lead) < nominalOhm s r)
    let lin := fun m => if temp then linearTemp s r m else linearPress s r m
    let b := rp r (if temp then 0x31A else 0x318)
    let w := medianWindow (pnat s b)
    let m := meanLength (pnat s (b + 1))
    let hist := (raw :: x1.hist).take w
    let means := (medianOf hist :: x1.means).take m
    let mean := roundUpDiv means.sum means.length
    let out := lin (mean - lead)
    let x2 := { x1 with
      shortRun := if short then x1.shortRun + 1 else 0, hist := hist, means := means
      clips := ((if alt then clipAt.1 || clipAt.2 else clipped) :: x1.clips).take (w + m - 1) }
    let x3 := nextStatus (faultOf s r temp x2 clipped out.2) x2
    let holds : Bool := x3.status = .opened || x3.status = .short || x3.status = .lead
    let ann : Bool := x3.anneal ≠ 0
    let tap := lin (raw - lead)
    let x4 := { x3 with
      chain := (some mean, if x3.status = .ok then some mean else x3.chain.2)
      meas := some (mean - lead)
      value := if holds then x3.okValue else some out.1
      okValue := if x3.status = .ok then some out.1 else x3.okValue
      anneal := x3.anneal - 1
      tap := if armed s r temp then some tap.1 else x3.tap }
    let tapSt : InStatus := if x4.status = .ok then tap.2 else x4.status
    let s1 := addTap r temp tap.1 tapSt (putInput r temp x4 s)
    let s2 := streamOut (slowStream r temp) (slowInstant s r temp clock) [slowWord s1 r temp x4 ann holds]
      (s1.modQueue fun q => { q with outputs := q.outputs + 1 })
    let s3 := if temp || ann || holds then s2
      else s2.modRecog r (pressPulse s2 r clock out.1 (x4.status = .ok))
    if ann || holds then s3 else gatherResult r temp out.1 x4.status s3
  | _, _ =>
    let st : Option InStatus := if 2 ≤ x1.openRun then some .opened else if temp && leadHigh s r then some .lead
      else if clipped then some .clip else none
    putInput r temp (match st with
      | some f => { x1 with status := f, good := 0 }
      | none => x1) s

/-- A conversion of a lead phase: the second of the pair gives its result, and meanwhile the temperature output repeats its
previous value (R91). -/
def convertLead (r : Run) (c : RawConv) (clock : Nat) (s : State) : State :=
  let f := s.runs[r].fe
  let s1 := match f.leadFirst with
    | none => s.modRun r fun t => t.modFe fun g => { g with leadFirst := some (c.value, c.positive) }
    | some (v, positive) =>
      let half := roundDiv (if positive then v - c.value else c.value - v) 2
      leadPhase r half.toNat (s.modRun r fun t => t.modFe fun g => { g with leadFirst := none, leadDue := false })
  if f.temp.chain.1.isSome then
    let x := { f.temp with chain := (f.temp.chain.1, f.temp.chain.1) }
    streamOut (slowStream r true) (slowInstant s1 r true clock) [slowWord s1 r true x (f.temp.anneal ≠ 0) true] s1
  else s1

/-- A conversion with the element shorted at its head, in a lead calibration (R92). -/
def convertLoop (r : Run) (c : RawConv) (s : State) : State :=
  s.modRun r fun t => t.modFe fun f =>
    if f.leadcal.isSome ∧ f.leadcalSum.2 < 64 then
      { f with leadcalSum := (f.leadcalSum.1 + (if c.positive then c.value else -c.value), f.leadcalSum.2 + 1) }
    else f

/-- The conversions of one run in the millisecond that ends at engine clock `clock` (R86, R91, R92). -/
def convertRun (r : Run) (c : Conv) (clock : Nat) (s : State) : State :=
  if s.runs[r].fe.restarting then s
  else
    let s1 := convertLoop r c.temp (convertSlow r false c.press clock s)
    if leadMeasured s r && s.runs[r].fe.leadDue then convertLead r c.temp clock s1
    else convertSlow r true c.temp clock s1

/-! ## Tables -/

/-- A breakpoint edit: x and y in units of their steps, or `clear`. -/
def pointFields (strict : Bool) (xd yd : Nat) (xlo xhi ylo yhi : Int) (xt yt : String) :
    Except Reason (Int × Option Int) := do
  let x ← decField xd xlo xhi xt
  if numberLike yt then
    let y ← decField yd ylo yhi yt
    .ok (x, some y)
  else
    let _ ← wordField strict ["clear"] yt
    .ok (x, none)

/-- `do fe.point run`n `temp`|`press` x y (R97). -/
def bodyFePoint (rq : Req) (args : List String) : Body := fun s => do
  let strict := rq.tag.isSome
  match args with
  | [rt, kt, xt, yt] =>
    need ((parseDec xt).isSome && (!numberLike yt || (parseDec yt).isSome)) .badForm
    let r ← runField rt
    let k ← wordField strict ["temp", "press"] kt
    let (x, y) ← if k = 0 then pointFields strict 3 3 0 5000000 (-200000) 850000 xt yt
      else pointFields strict 4 2 (-672000) 672000 0 10000000 xt yt
    served s "do"
    let tab := if k = 0 then s.runs[r].tabTemp else s.runs[r].tabPress
    let t ← want (editDraft x y tab) .taken
    needMetrology s rq.line
    .ok (s.modRun r fun q => if k = 0 then { q with tabTemp := t } else { q with tabPress := t },
      [spaced ["ok do fe.point", runText r, if k = 0 then "temp" else "press", natText t.draft.length]])
  | _ => .error .badForm

/-! ## Lead calibration and restart -/

def bodyFeLeadcal (rq : Req) (args : List String) : Body := fun s => do
  match args with
  | [rt] =>
    let r ← runField rt
    served s "do"
    needMetrology s rq.line
    let m : Member := ⟨rp r 0x217, 0, lineCode rq.line, (s.line rq.line).role⟩
    .ok (s.modRun r fun t => t.modFe fun f => { f with leadcal := some m, leadcalSum := (0, 0) },
      ["ok do fe.leadcal " ++ runText r ++ " started"])
  | _ => .error .badForm

/-- The line a member came from. -/
def lineOf (m : Member) : Option Line := if m.line = 1 then some .host else if m.line = 2 then some .service else none

/-- FE_LEADCAL_DONE: the mean of 64 conversions, clamped, as a class B commit (R92). -/
def feLeadcalDone (r : Run) (s : State) : State :=
  let f := s.runs[r].fe
  match f.leadcal with
  | some m =>
    if f.leadcalSum.2 = 64 then
      schedule [{ m with value := clampInt 0 50000 (roundDiv f.leadcalSum.1 64) }] (lineOf m)
        (s.modRun r fun t => t.modFe fun g => { g with leadcal := none })
    else s
  | none => s

/-- The notes of class S sets wait for the restarts (R47). -/
def noteRestarts (s : State) : State :=
  if allRuns.all fun r => !s.runs[r].fe.restarting then
    s.cm.restarting.foldl (fun t q => noteCommit q.1 q.2 t) { s with cm := { s.cm with restarting := [] } }
  else s

/-- FE_RESTART_DONE: after 20 ms of awake time; a new span, and both fast paths anneal from here (R86, R89, R131). -/
def feRestartDone (r : Run) (s : State) : State :=
  if s.runs[r].fe.restarting ∧ s.runs[r].fe.restartAt + 20 ≤ s.ck.awake then
    let s1 := s.modRun r fun t => t.modFe fun f => { f with restarting := false }
    noteRestarts (disturb r true (disturb r false s1))
  else s

/-- DO_FE_POINT (R97). -/
def execDoFePoint (rq : Req) (args : List String) (s : State) : Host.Outcome State Fault Refusal :=
  done (runLine rq "do" (bodyFePoint rq args) s)
/-- DO_FE_LEADCAL (R92). -/
def execDoFeLeadcal (rq : Req) (args : List String) (s : State) : Host.Outcome State Fault Refusal :=
  done (runLine rq "do" (bodyFeLeadcal rq args) s)
/-- FE_LEADCAL_DONE (R92). -/
def execFeLeadcalDone (run : Run) (_ : Found) (s : State) : Host.Outcome State Fault Refusal := done (feLeadcalDone run s)
/-- FE_RESTART_DONE (R86). -/
def execFeRestartDone (run : Run) (s : State) : Host.Outcome State Fault Refusal := done (feRestartDone run s)

end Sys2Proof.Machine
end

