-- ==== Sys2Proof/Machine/Fluids.lean ====
section
/-! DEFINITION. Density and enthalpy of a run's medium (R152 ... R154): steam and water by IAPWS-IF97, air by its grid, gas
and liquid by the run's tables. Pressures and temperatures are exact fractions, so that nothing is rounded but the results
that R144 lists. -/

namespace Sys2Proof.Machine

/-- A fraction: numerator and denominator. -/
abbrev Frac := Int × Nat

/-- a < b. -/
def Frac.lt (a b : Frac) : Bool := a.1 * b.2 < b.1 * a.2

/-- A whole number as a fraction. -/
def whole (x : Int) : Frac := (x, 1)

/-- Density 0.0001 kg/m³, enthalpy 10⁻⁶ MJ/kg, and the flags `clamp` and `wet`. -/
structure Props where
  rho : Int
  h : Int
  clamp : Bool
  wet : Bool
  deriving DecidableEq, Repr

/-! ## IAPWS-IF97

The coefficients are those of the standard that R152 names; the spec prints none of them (log 8). -/

/-- A term n aⁱ bʲ of a dimensionless Gibbs energy: i, j, and n as mantissa and decimal places. -/
structure Term where
  i : Nat
  j : Int
  mant : Int
  places : Nat
  deriving DecidableEq, Repr

/-- Region 1: exponents of 7.1 − π and of τ − 1.222. -/
def region1 : List Term :=
  [⟨0, -2, 14632971213167, 14⟩, ⟨0, -1, -84548187169114, 14⟩, ⟨0, 0, -37563603672040, 13⟩,
   ⟨0, 1, 33855169168385, 13⟩, ⟨0, 2, -95791963387872, 14⟩, ⟨0, 3, 15772038513228, 14⟩, ⟨0, 4, -16616417199501, 15⟩,
   ⟨0, 5, 81214629983568, 17⟩, ⟨1, -9, 28319080123804, 17⟩, ⟨1, -7, -60706301565874, 17⟩,
   ⟨1, -1, -18990068218419, 15⟩, ⟨1, 0, -32529748770505, 15⟩, ⟨1, 1, -21841717175414, 15⟩,
   ⟨1, 3, -52838357969930, 18⟩, ⟨2, -3, -47184321073267, 17⟩, ⟨2, 0, -30001780793026, 17⟩,
   ⟨2, 1, 47661393906987, 18⟩, ⟨2, 3, -44141845330846, 19⟩, ⟨2, 17, -72694996297594, 29⟩,
   ⟨3, -4, -31679644845054, 18⟩, ⟨3, 0, -28270797985312, 19⟩, ⟨3, 6, -85205128120103, 23⟩,
   ⟨4, -5, -22425281908000, 19⟩, ⟨4, -2, -65171222895601, 20⟩, ⟨4, 10, -14341729937924, 26⟩,
   ⟨5, -8, -40516996860117, 20⟩, ⟨8, -11, -12734301741641, 22⟩, ⟨8, -6, -17424871230634, 23⟩,
   ⟨21, -29, -68762131295531, 32⟩, ⟨23, -31, 14478307828521, 33⟩, ⟨29, -38, 26335781662795, 36⟩,
   ⟨30, -39, -11947622640071, 36⟩, ⟨31, -40, 18228094581404, 37⟩, ⟨32, -41, -93537087292458, 39⟩]

/-- Ideal part of region 2: exponents of τ. -/
def ideal2 : List Term :=
  [⟨0, 0, -96927686500217, 13⟩, ⟨0, 1, 10086655968018, 12⟩, ⟨0, -5, -56087911283020, 16⟩,
   ⟨0, -4, 71452738081455, 15⟩, ⟨0, -3, -40710498223928, 14⟩, ⟨0, -2, 14240819171444, 13⟩,
   ⟨0, -1, -43839511319450, 13⟩, ⟨0, 2, -28408632460772, 14⟩, ⟨0, 3, 21268463753307, 15⟩]

/-- Residual part of region 2: exponents of π and of τ − 0.5. -/
def region2 : List Term :=
  [⟨1, 0, -17731742473213, 16⟩, ⟨1, 1, -17834862292358, 15⟩, ⟨1, 2, -45996013696365, 15⟩,
   ⟨1, 3, -57581259083432, 15⟩, ⟨1, 6, -50325278727930, 15⟩, ⟨2, 1, -33032641670203, 18⟩,
   ⟨2, 2, -18948987516315, 17⟩, ⟨2, 4, -39392777243355, 16⟩, ⟨2, 7, -43797295650573, 15⟩,
   ⟨2, 36, -26674547914087, 18⟩, ⟨3, 0, 20481737692309, 21⟩, ⟨3, 1, 43870667284435, 20⟩,
   ⟨3, 3, -32277677238570, 18⟩, ⟨3, 6, -15033924542148, 16⟩, ⟨3, 35, -40668253562649, 15⟩,
   ⟨4, 1, -78847309559367, 23⟩, ⟨4, 2, 12790717852285, 21⟩, ⟨4, 3, 48225372718507, 20⟩, ⟨5, 7, 22922076337661, 19⟩,
   ⟨6, 3, -16714766451061, 24⟩, ⟨6, 16, -21171472321355, 16⟩, ⟨6, 35, -23895741934104, 12⟩,
   ⟨7, 0, -59059564324270, 31⟩, ⟨7, 11, -12621808899101, 19⟩, ⟨7, 25, -38946842435739, 15⟩,
   ⟨8, 8, 11256211360459, 24⟩, ⟨8, 36, -82311340897998, 13⟩, ⟨9, 13, 19809712802088, 21⟩,
   ⟨10, 4, 10406965210174, 32⟩, ⟨10, 10, -10234747095929, 26⟩, ⟨10, 14, -10018179379511, 22⟩,
   ⟨16, 29, -80882908646985, 24⟩, ⟨16, 50, 10693031879409, 14⟩, ⟨18, 57, -33662250574171, 14⟩,
   ⟨20, 20, 89185845355421, 38⟩, ⟨20, 35, 30629316876232, 26⟩, ⟨20, 48, -42002467698208, 19⟩,
   ⟨21, 21, -59056029685639, 39⟩, ⟨22, 53, 37826947613457, 19⟩, ⟨23, 39, -12768608934681, 28⟩,
   ⟨24, 26, 73087610595061, 42⟩, ⟨24, 40, 55414715350778, 30⟩, ⟨24, 58, -94369707241210, 20⟩]

/-- Ideal part of region 5: exponents of τ. -/
def ideal5 : List Term :=
  [⟨0, 0, -13179983674201, 12⟩, ⟨0, 1, 68540841634434, 13⟩, ⟨0, -3, -24805148933466, 15⟩,
   ⟨0, -2, 36901534980333, 14⟩, ⟨0, -1, -31161318213925, 13⟩, ⟨0, 2, -32961626538917, 14⟩]

/-- Residual part of region 5: exponents of π and of τ. -/
def region5 : List Term :=
  [⟨1, 1, 15736404855259, 16⟩, ⟨1, 2, 90153761673944, 17⟩, ⟨1, 3, -50270077677648, 16⟩, ⟨2, 3, 22440037409485, 19⟩,
   ⟨2, 9, -41163275453471, 19⟩, ⟨3, 7, 37919454822955, 21⟩]

/-- The derivative of a term in a. -/
def Term.derivA (t : Term) : Term := { t with i := t.i - 1, mant := t.mant * t.i }
/-- The derivative of a term in b. -/
def Term.derivB (t : Term) : Term := { t with j := t.j - 1, mant := t.mant * t.j }

/-- Σ n aⁱ bʲ for i up to 34, j from −42 to 58 and at most 42 places, with a and b above 0. -/
def sumTerms (ts : List Term) (a b : Frac) : Frac :=
  ((ts.map fun t => t.mant * 10 ^ (42 - t.places) * (a.1 ^ t.i * a.2 ^ (34 - t.i))
      * (b.1 ^ (t.j + 42).toNat * b.2 ^ (58 - t.j).toNat)).sum,
    10 ^ 42 * a.2 ^ 34 * (b.1.toNat ^ 42 * b.2 ^ 58))

/-- Sum of two fractions. -/
def Frac.add (a b : Frac) : Frac := (a.1 * b.2 + b.1 * a.2, a.2 * b.2)

/-- Absolute temperature in 0.001 K. -/
def kelvin (t : Frac) : Frac := (t.1 + 273150 * t.2, t.2)

/-- Density 0.0001 kg/m³ at the temperature `k` in 0.001 K from dp* ÷ (R k γ_π), p* in kPa and R = 0.461526 kJ/(kg K). -/
def gibbsRho (star : Nat) (k g : Frac) : Int :=
  roundDiv (star * 10 ^ 13 * k.2 * g.2 : Nat) (461526 * k.1 * g.1).toNat

/-- Enthalpy 10⁻⁶ MJ/kg from R T* γ_τ. -/
def gibbsH (star : Nat) (g : Frac) : Int := roundDiv (461526 * star * g.1) (1000 * g.2)

/-- Region 1 at p (0.01 kPa) and t (0.001 °C): density and enthalpy. -/
def if97One (p t : Frac) : Int × Int :=
  let k := kelvin t
  let a : Frac := (11736300 * p.2 - p.1, 1653000 * p.2)
  let b : Frac := (1386000000 * k.2 - 1222 * k.1, 1000 * k.1.toNat)
  let g := sumTerms (region1.map Term.derivA) a b
  (gibbsRho 16530 k (-g.1, g.2), gibbsH 1386 (sumTerms (region1.map Term.derivB) a b))

/-- Region 2 or 5: the ideal and residual parts at π = p ÷ 1 MPa, τ = `star` K ÷ T and the residual's argument `b`. -/
def if97Vapour (ideal residual : List Term) (star : Nat) (p t b : Frac) : Int × Int :=
  let k := kelvin t
  let a : Frac := (p.1, 100000 * p.2)
  let tau : Frac := (star * 1000 * k.2, k.1.toNat)
  (gibbsRho 1000 k (Frac.add (100000 * p.2, p.1.toNat) (sumTerms (residual.map Term.derivA) a b)),
    gibbsH star (Frac.add (sumTerms (ideal.map Term.derivB) (1, 1) tau) (sumTerms (residual.map Term.derivB) a b)))

/-- Region 2. -/
def if97Two (p t : Frac) : Int × Int :=
  let k := kelvin t
  if97Vapour ideal2 region2 540 p t (1080000 * k.2 - k.1, 2 * k.1.toNat)

/-- Region 5. -/
def if97Five (p t : Frac) : Int × Int :=
  let k := kelvin t
  if97Vapour ideal5 region5 1000 p t (1000000 * k.2, k.1.toNat)

/-- Saturation temperature at p (0.01 kPa) in 0.001 °C: the equation of region 4, with its roots taken to 20 decimals
(log 8). -/
def if97Tsat (p : Frac) : Frac :=
  let one : Int := 10 ^ 20
  let x : Int := isqrt (isqrt (p.1.toNat * 10 ^ 75 / p.2))
  let poly := fun (c2 c1 c0 : Int) => c2 * x * x + c1 * x * one + c0 * one * one
  let e := poly (10 ^ 14) (-1707384694009200) 1491510861353000
  let f := poly 116705214527670000 1202082470247000000 (-482326573615910000)
  let g := poly (-72421316703206000000) (-323255503223330000000) 40511340542057000000
  let d := 2 * g * one / (-f - isqrt (f * f - 4 * e * g).toNat)
  let n9 : Int := -23855557567849000000
  let n10 : Int := 65017534844798000000000
  let y := n10 + d
  (1000 * (y - isqrt (y * y - 4 * (n9 * one + n10 * d)).toNat) - 546300 * one, 2 * 10 ^ 20)

/-- The boundary B23 at t, 0.01 kPa. -/
def if97B23 (t : Frac) : Frac :=
  let k := kelvin t
  let d := 1000 * k.2
  (34805185628969 * 10 ^ 5 * (d * d) - 11671859879975 * 10 ^ 3 * (k.1 * d) + 10192970039326 * (k.1 * k.1), 10 ^ 11 * (d * d))

/-! ## Steam and water -/

/-- The lower of a value and an upper limit. -/
def capAt (hi x : Frac) : Frac := if Frac.lt hi x then hi else x

/-- Two fractions of different value. -/
def Frac.ne (a b : Frac) : Bool := Frac.lt a b || Frac.lt b a

/-- Pressure after the rows of Table 7.2 that hold for steam and water, and whether one applied. -/
def clampP97 (steam : Bool) (p t : Frac) : Frac × Bool :=
  let p1 := if Frac.lt p (whole 100) then whole 100 else p
  let p2 := if Frac.lt (whole 800000) t then capAt (whole 5000000) p1 else p1
  let p3 := capAt (whole (if steam then 1652916 else 10000000)) p2
  let p4 := if steam && Frac.lt (whole 350000) t && !Frac.lt (whole 590000) t then capAt (if97B23 t) p3 else p3
  (p4, Frac.ne p4 p)

/-- Steam (R152). -/
def steamProps (p t : Frac) : Props :=
  let (q, c) := clampP97 true p t
  let ts := if97Tsat q
  let wet := Frac.lt t ts
  let x := if wet then if97Two q ts else if Frac.lt (whole 800000) t then if97Five q t else if97Two q t
  ⟨x.1, x.2, c, wet⟩

/-- Water (R152); above 16529.16 kPa(a) the saturation temperature lies above 350 °C. -/
def waterProps (p t : Frac) : Props :=
  let (q, c) := clampP97 false p t
  let top := if Frac.lt (whole 1652916) q then whole 350000 else capAt (whole 350000) (if97Tsat q)
  let t1 := capAt top (if t.1 < 0 then whole 0 else t)
  let x := if97One q t1
  ⟨x.1, x.2, c || Frac.ne t1 t, false⟩

/-! ## Air -/

/-- Density of the dry-air grid at −40 °C + 5 °C × i and 50 kPa × (j + 1): the figure that Table 7.6 prints, the others free
(R153, log 9). -/
def airRho (i j : Nat) : Int := if i = 14 ∧ j = 15 then 92026 else Config.airRho i j

/-- Enthalpy of the dry-air grid: the figure that Table 7.6 prints; at 0 °C and 100 kPa the one that makes the enthalpy at
101.325 kPa(a) zero; the others free (R153, log 9). -/
def airH (i j : Nat) : Int :=
  if i = 14 ∧ j = 15 then 29950
  else if i = 8 ∧ j = 1 then roundDiv (-1325 * Config.airH 8 2) 48675
  else Config.airH i j

/-- Bilinear value of a grid of steps 5000 × 5000 (R153). -/
def bilinear (g : Nat → Nat → Int) (t p : Frac) : Int :=
  let st := 5000 * t.2
  let sp := 5000 * p.2
  let i := t.1.toNat / st
  let j := p.1.toNat / sp
  let u : Int := (t.1.toNat % st : Nat)
  let w : Int := (p.1.toNat % sp : Nat)
  roundDiv ((st - u) * (sp - w) * g i j + u * (sp - w) * g (i + 1) j + (st - u) * w * g i (j + 1)
    + u * w * g (i + 1) (j + 1)) (st * sp)

/-- Dry air (R153). -/
def airProps (p t : Frac) : Props :=
  let t1 := clampInt (-40000 * t.2) (200000 * t.2) t.1
  let p1 := clampInt (5000 * p.2) (400000 * p.2) p.1
  let at_ := fun g => bilinear g (t1 + 40000 * t.2, t.2) (p1 - 5000 * p.2, p.2)
  ⟨at_ airRho, at_ airH, decide (t1 ≠ t.1 ∨ p1 ≠ p.1), false⟩

/-! ## Gas and liquid -/

/-- A table's value at a fraction, with 0 and the flag where it is empty (R154). -/
def tableValue (tab : List (Int × Int)) (empty_ : Frac × Bool) (x : Frac) : Frac × Bool :=
  (lookup (tab.map fun q => (q.1 * x.2, q.2)) x.1).getD empty_

/-- Gas (R154). -/
def gasProps (s : State) (r : Run) (p t : Frac) : Props :=
  let (z, cz) := tableValue s.runs[r].tabZ.live ((10000, 1), false) p
  let (h, ch) := tableValue s.runs[r].tabEnth.live ((0, 1), true) t
  let k := kelvin t
  ⟨roundDiv (p.1 * k.2 * pget s (rp r 0x407) * z.2 * 10 ^ 15) (z.1 * 8314462618 * k.1 * p.2).toNat, roundDiv h.1 h.2,
    cz || ch, false⟩

/-- Liquid (R154). -/
def liquidProps (s : State) (r : Run) (p t : Frac) : Props :=
  let (d, cd) := tableValue s.runs[r].tabDens.live ((0, 1), true) t
  let (h, ch) := tableValue s.runs[r].tabEnth.live ((0, 1), true) t
  let f := 10 ^ 11 * p.2 + pget s (rp r 0x408) * (p.1 - pget s (rp r 0x409) * p.2)
  ⟨roundDiv (d.1 * f) (d.2 * 10 ^ 11 * p.2), roundDiv h.1 h.2, cd || ch, false⟩

/-- Properties of the run's medium at p (0.01 kPa(a)) and t (0.001 °C). -/
def props (s : State) (r : Run) (p t : Frac) : Props :=
  let m := pget s (rp r 0x400)
  if m = 0 then steamProps p t else if m = 1 then waterProps p t else if m = 2 then airProps p t
  else if m = 3 then gasProps s r p t else liquidProps s r p t

end Sys2Proof.Machine
end

