-- ==== Sys2Proof/Machine/Price.lean ====
section
/-! DEFINITION. Blocks (chapter 07): the corrected K-factor, the source of a block, its flags and its quantities; the
commands DO_K_POINT and DO_Q_POINT; the tally counters (R59, R61). -/

namespace Sys2Proof.Machine

/-! ## K-factor -/

/-- Corrected K-factor 0.001 m⁻³ at q (0.001 Hz), and whether the table was clamped (R150). -/
def correctedK (s : State) (r : Run) (q : Int) : Int × Bool :=
  let kf := pget s (rp r 0x401)
  if q = 0 then (kf, false)
  else match lookup s.runs[r].tabK.live q with
    | none => (kf, false)
    | some (c, b) => (roundDiv (kf * (c.2 * 100000 + c.1)) (c.2 * 100000), b)

/-! ## Source and quantities -/

/-- The verifying estimate of a block, 0.001 Hz, and whether it is carried (R147). -/
def estimate (s : State) (b : ClosedBlock) (r : Run) : Option (Nat × Bool) :=
  let fs := b.runs[r].freqs
  if fs ≠ [] then some ((roundDiv (fs.sum : Nat) fs.length).toNat, false)
  else match s.runs[r].qty.carry with
    | some (f, start) =>
      if 1000 * (b.start - start) ≤ max 2000 (s.pw.cad.2.2 + 1000) then some (f, true) else none
    | none => none

/-- The tally agrees with an estimate (R148). -/
def agrees (s : State) (r : Run) (n fv : Nat) : Bool :=
  1000 * ((1000 * n : Int) - fv).natAbs ≤ max (pnat s (rp r 0x404) * fv) 2000000

/-- Source of a block by Table 7.1, orders 2 ... 8. -/
def sourceOf (s : State) (b : ClosedBlock) (r : Run) : Source :=
  let x := b.runs[r]
  let q := s.runs[r].qty
  let kx : Source := if q.pricing.isSome then .k else .x
  if !b.whole then kx
  else if x.disturbed then (if q.good.isSome then .u else .x)
  else if x.loss then kx
  else match estimate s b r with
    | some (fv, _) => if agrees s r x.n fv then .t else .s
    | none => .t

/-- The cause of a U block is order 3 of Table 7.1. -/
def uCause : Nat := 3

/-- What a block or a span is worth, and its flags. -/
structure Worth where
  v : Int
  m : Int
  e : Int
  flags : BitVec 8
  deriving DecidableEq, Repr

/-- A span of `b` blocks with count `n`, priced once with a pricing set (R157, steps 1 and 2). -/
def spanWorth (s : State) (r : Run) (set : Pricing) (n b : Nat) : Worth :=
  let tooMuch : Bool := 8000 * b < n
  let q0 := if tooMuch then 8000 * b else n
  let low : Bool := 0 < n && 100 * n < pnat s (rp r 0x405) * b
  let q := if low then 0 else q0
  let v := roundDiv ((q : Int) * 10 ^ 9) set.kc.toNat
  let m := roundDiv (v * set.rho) 10000
  let e := roundDiv (m * (set.h - pget s (rp r 0x406))) 1000000
  ⟨v, m, e, flagByte tooMuch false false false false low false⟩

/-- The j-th share of a quantity spread over b blocks in whole units: the earliest blocks get one unit more (R157, step
3). -/
def share (total : Int) (b j : Nat) : Int :=
  total.fdiv b + if j < (total.fmod b).toNat then 1 else 0

/-- Mean of the results of a block, or the last `ok` value, or 0; and whether `held` is set by it (R151). The mean is exact:
R144 rounds what follows from it. -/
def blockMean (sum : Int) (n : Nat) (okValue : Option Int) : Frac × Bool :=
  if n = 0 then (whole (okValue.getD 0), true) else ((sum, n), false)

/-- Quantities of a T or S block (R145, R149 ... R154), with its pricing set. The flag `over` also tells of an estimate that
was clamped at 8000 Hz (R149). -/
def measuredWorth (s : State) (b : ClosedBlock) (r : Run) (src : Source) : Worth × Pricing :=
  let x := b.runs[r]
  let est := estimate s b r
  let lowcut := pget s (rp r 0x405)
  let q0 : Int := match src, est with
    | .s, some (fv, _) => fv
    | _, _ => 1000 * (x.n : Int)
  let tooMuch : Bool := 8000000 < q0
  let q1 := if tooMuch then 8000000 else q0
  let low : Bool := 0 < q1 && q1 < 10 * lowcut
  let q := if low then 0 else q1
  let (kc, kClamp) := correctedK s r q
  let v := roundDiv (q * 1000000) kc.toNat
  let (p, hp) := blockMean x.pSum x.pN s.runs[r].fe.press.okValue
  let (t, ht) := blockMean x.tSum x.tN s.runs[r].fe.temp.okValue
  let pr := props s r p t
  let m := roundDiv (v * pr.rho) 10000
  let e := roundDiv (m * (pr.h - pget s (rp r 0x406))) 1000000
  let unver : Bool := est.isNone && decide (lowcut ≤ 100 * (x.n : Int))
  let carried : Bool := match est with
    | some (_, c) => c
    | none => false
  (⟨v, m, e, flagByte (tooMuch || x.topped) unver (x.held || hp || ht) (kClamp || pr.clamp) pr.wet low carried⟩,
    ⟨pr.rho, pr.h, kc⟩)

/-- A block of a source that is no T or S. -/
def otherWorth (s : State) (b : ClosedBlock) (r : Run) (src : Source) : Worth :=
  let q := s.runs[r].qty
  match src with
  | .u => match q.good with
    | some g => ⟨g.1, g.2.1, g.2.2, 0⟩
    | none => ⟨0, 0, 0, 0⟩
  | .k => match q.pricing with
    | some set => spanWorth s r set b.runs[r].n 1
    | none => ⟨0, 0, 0, 0⟩
  | _ => ⟨0, 0, 0, 0⟩

/-- Adds a block to sums (R160). -/
def addSums (b : BlockRec) (x : Sums) : Sums :=
  let c := fun (src : Source) => if b.src = src then 1 else 0
  { v := x.v + b.v, m := x.m + b.m, e := x.e + b.e, tally := x.tally + b.n
    cT := x.cT + c .t, cS := x.cS + c .s, cU := x.cU + c .u, cK := x.cK + c .k, cX := x.cX + c .x
    flags := x.flags ||| b.flags }

/-- Ends a run of U blocks; its ledger note (R156) goes behind the tick's interval records and closes (R227). -/
def endURun (r : Run) (s : State) : State :=
  match s.runs[r].qty.uRun with
  | some (start, len, tally) =>
    let note := leBytes 1 (r.val + 1) ++ leBytes 4 start ++ leBytes 4 len ++ leBytes 1 uCause ++ leBytes 4 tally
    let t := s.modRun r fun t => t.modQty fun q => { q with uRun := none }
    { t with lg := { t.lg with uNotes := t.lg.uNotes ++ [note] } }
  | none => s

/-- Writes the notes of the ended runs of U blocks (R156). -/
def flushURuns (s : State) : State :=
  s.lg.uNotes.foldl (fun t note => moduleNote t 0x01 note) { s with lg := { s.lg with uNotes := [] } }

/-- Prices one block of one run (R145, R146, R156 ... R158). While the clock is unset the block takes X and no interval;
what it would have been worth counts in the unset sums (R77). -/
def priceRun (b : ClosedBlock) (r : Run) (s : State) : State :=
  let n := b.runs[r].n
  let own := sourceOf s b r
  let (w, set) : Worth × Option Pricing :=
    if own = .t ∨ own = .s then let (w, p) := measuredWorth s b r own; (w, some p) else (otherWorth s b r own, none)
  let rec_ : BlockRec := if b.unset then ⟨b.start, .x, 0, 0, 0, n, 0⟩ else ⟨b.start, own, w.v, w.m, w.e, n, w.flags⟩
  let s0 := if rec_.src = .u then s else endURun r s
  let freqs := b.runs[r].freqs
  s0.modRun r fun t => t.modQty fun q => { q with
    last := some rec_
    rhoH := match set with | some p => if b.unset then q.rhoH else some (p.rho, p.h) | none => q.rhoH
    good := match set with | some _ => if b.unset then q.good else some (w.v, w.m, w.e) | none => q.good
    pricing := match set with | some p => if b.unset then q.pricing else some p | none => q.pricing
    carry := if freqs ≠ [] then some ((roundDiv (freqs.sum : Nat) freqs.length).toNat, b.start) else q.carry
    uRun := if rec_.src = .u then match q.uRun with
      | some (a, k, c) => some (a, k + 1, c + n)
      | none => some (b.start, 1, n)
      else q.uRun
    sums := if b.unset then q.sums else addSums rec_ q.sums
    unset := if b.unset then (q.unset.1 + w.m, q.unset.2 + w.e) else q.unset
    totalV := q.totalV + rec_.v, totalM := q.totalM + rec_.m, totalE := q.totalE + rec_.e }

/-- Prices one closed block for every run. -/
def priceBlock (b : ClosedBlock) (s : State) : State := allRuns.foldl (fun t r => priceRun b r t) s

/-! ## Tally counters -/

/-- The level at which a tally comparator is ready again, in 0.01 mV: the threshold less its hysteresis (R59). -/
def rearmLevel (s : State) (r : Run) : Nat := s.runs[r].threshold * (100 - pnat s (rp r 0x42))

/-- TALLY_CROSSING: the lift signal has fallen to `low` since the row before and rises to `millivolts`. A rising crossing
of the threshold counts where the signal had fallen by the hysteresis, and not within 50 µs of the last counted one (R58,
R59). -/
def tallyCrossing (r : Run) (low millivolts atMicros : Nat) (s : State) : State :=
  if s.pw.ms = .cold then s
  else
    let t := s.runs[r]
    let free : Bool := match t.crossed with
      | some c => c + 50 ≤ atMicros
      | none => true
    let ready : Bool := t.tallyArmed || decide (100 * low ≤ rearmLevel s r)
    let rises : Bool := ready && decide (t.threshold < millivolts)
    s.modRun r fun q =>
      if rises && free then { q with tally := q.tally + 1, crossed := some atMicros, tallyArmed := false }
      else { q with tallyArmed := ready && !rises }

/-- A block boundary: all four counters are latched in one cycle, the effective cadence takes effect (R65), and the block
that ends waits for pricing (R61, R143). A block of COLD or of KEEP is covered by the keep records instead (R69, R71). -/
def blockBoundary (s : State) : State :=
  let sec := nowSec s
  let due : Bool := match s.lg.latchAt with
    | some x => x < sec
    | none => true
  if s.pw.ms ≠ .cold ∧ due then
    let blk : ClosedBlock := {
      start := s.lg.latchAt.getD sec
      whole := s.pw.blockWhole && measuring s
      unset := !s.ck.valid || s.ck.partUnset
      runs := Vector.ofFn fun (r : Fin 4) =>
        { s.runs[r].qty.cur with n := (s.runs[r].tally - s.runs[r].latched).toNat } }
    let runs := s.runs.map fun t => { t with
      latched := t.tally, rate := some (t.tally - t.latched).toNat, qty := { t.qty with cur := .zero } }
    let loss := fun (t : RunSt) => { t with qty := { t.qty with
      cur := { t.qty.cur with loss := decide (t.eng.pilot.status = .loss), disturbed := t.fe.restarting } } }
    let gather : Bool := fastOn s && s.lg.latchAt.isSome
    refreshOutputs { s with
      runs := runs.map loss
      pw := { s.pw with blockWhole := measuring s, cad := cadence s }
      ck := { s.ck with partUnset := !s.ck.valid }
      lg := { s.lg with latchAt := some sec
                        closed := if gather then s.lg.closed ++ [blk] else s.lg.closed } }
  else s

/-! ## Tables -/

/-- `do k.point run`n x y (R150). -/
def bodyKPoint (rq : Req) (args : List String) : Body := fun s => do
  match args with
  | [rt, xt, yt] =>
    need ((parseDec xt).isSome && (!numberLike yt || (parseDec yt).isSome)) .badForm
    let r ← runField rt
    let (x, y) ← pointFields rq.tag.isSome 3 3 500 8000000 (-10000) 10000 xt yt
    served s "do"
    let t ← want (editDraft x y s.runs[r].tabK) .taken
    needMetrology s rq.line
    .ok (s.modRun r fun q => { q with tabK := t }, [spaced ["ok do k.point", runText r, natText t.draft.length]])
  | _ => .error .badForm

/-- `do q.point run`n `dens`|`enth`|`z` x y (R154). -/
def bodyQPoint (rq : Req) (args : List String) : Body := fun s => do
  let strict := rq.tag.isSome
  match args with
  | [rt, kt, xt, yt] =>
    need ((parseDec xt).isSome && (!numberLike yt || (parseDec yt).isSome)) .badForm
    let r ← runField rt
    let k ← wordField strict ["dens", "enth", "z"] kt
    let (x, y) ← if k = 0 then pointFields strict 3 4 (-200000) 850000 1 300000000 xt yt
      else if k = 1 then pointFields strict 3 6 (-200000) 850000 (-1000000) 10000000 xt yt
      else pointFields strict 2 4 0 10000000 500 30000 xt yt
    served s "do"
    let q := s.runs[r]
    let t ← want (editDraft x y (if k = 0 then q.tabDens else if k = 1 then q.tabEnth else q.tabZ)) .taken
    needMetrology s rq.line
    .ok (s.modRun r fun q =>
        if k = 0 then { q with tabDens := t } else if k = 1 then { q with tabEnth := t } else { q with tabZ := t },
      [spaced ["ok do q.point", runText r, ["dens", "enth", "z"].getD k "", natText t.draft.length]])
  | _ => .error .badForm

/-- DO_K_POINT (R150). -/
def execDoKPoint (rq : Req) (args : List String) (s : State) : Host.Outcome State Fault Refusal :=
  done (runLine rq "do" (bodyKPoint rq args) s)
/-- DO_Q_POINT (R154). -/
def execDoQPoint (rq : Req) (args : List String) (s : State) : Host.Outcome State Fault Refusal :=
  done (runLine rq "do" (bodyQPoint rq args) s)
/-- TALLY_CROSSING (R59). -/
def execTallyCrossing (run : Run) (rise : Rise) (atMicros : Nat) (s : State) : Host.Outcome State Fault Refusal :=
  .next (tallyCrossing run rise.low rise.millivolts atMicros s)

end Sys2Proof.Machine
end

