-- ==== Sys2Proof/Machine/Reconcile.lean ====
section
/-! DEFINITION. Reconciliation and settlement (chapter 13): interval records as data, outcomes, settled quantities, the
partner table, PAIR, and the interval record itself (R228). -/

namespace Sys2Proof.Machine

/-! ## Interval records -/

/-- The fields of an interval record that reconciliation uses (R228, R275). -/
structure Side where
  m : Int
  e : Int
  blocks : Nat
  flags : BitVec 8
  subs : Nat
  deriving DecidableEq, Repr

/-- An interval record read as data (Table 11.2). -/
structure IntRec where
  run : Nat
  code : Nat
  short : Bool
  flags : BitVec 8
  start : Nat
  cT : Nat
  cS : Nat
  cU : Nat
  cK : Nat
  cX : Nat
  v : Int
  m : Int
  e : Int
  tally : Nat
  deriving DecidableEq, Repr

/-- Length code of an interval in minutes (Table 11.2). -/
def lengthCode (min_ : Nat) : Nat :=
  if min_ = 5 then 0 else if min_ = 10 then 1 else if min_ = 15 then 2 else if min_ = 30 then 3 else 4

/-- The 48 bytes of an interval record (Table 11.2). -/
def intBytes (r : IntRec) : List Byte :=
  [0x01] ++ leBytes 1 (r.run - 1 + 4 * r.code + if r.short then 32 else 0) ++ leBytes 1 r.flags.toNat ++ [0]
  ++ leBytes 4 r.start
  ++ leBytes 8 (r.cT % 4096 + r.cS % 4096 * 2 ^ 12 + r.cU % 4096 * 2 ^ 24 + r.cK % 4096 * 2 ^ 36 + r.cX % 4096 * 2 ^ 48)
  ++ leInt 8 r.v ++ leInt 8 r.m ++ leInt 8 r.e ++ leBytes 8 r.tally

/-- Reads the 48 bytes of an interval record. -/
def readInt (bs : List Byte) : IntRec :=
  let f := fun (i n : Nat) => fromLe ((bs.drop i).take n)
  let g := fun (i : Nat) => fromLeInt ((bs.drop i).take 8)
  let c := f 8 8
  { run := f 1 1 % 4 + 1, code := f 1 1 / 4 % 8, short := f 1 1 / 32 % 2 = 1, flags := BitVec.ofNat 8 (f 2 1)
    start := f 4 4, cT := c % 4096, cS := c / 2 ^ 12 % 4096, cU := c / 2 ^ 24 % 4096, cK := c / 2 ^ 36 % 4096
    cX := c / 2 ^ 48 % 4096, v := g 16, m := g 24, e := g 32, tally := f 40 8 }

/-- Block total of a record (R228). -/
def IntRec.total (r : IntRec) : Nat := r.cT + r.cS + r.cU + r.cK + r.cX

/-- A record as a side of a pair. -/
def IntRec.side (r : IntRec) : Side := ⟨r.m, r.e, r.total, r.flags, r.cU + r.cK + r.cX⟩

/-- A table entry as a side. -/
def Entry.side (t : Entry) : Side := ⟨t.m, t.e, t.blocks, t.flags, t.subs⟩

/-- Indices of the records of an area, oldest first. -/
def recordIndices (s : State) (k : Fin 4) : List Nat :=
  (List.range (recordCount s k)).map fun j => (oldestIndex s k + j) % areaSize k

/-- The own record at an index, from the data of copy A (R275). -/
def intAt (s : State) (i : Nat) : IntRec := readInt (contentAt (goodCopy s) 0 i)

/-- The own record of a run and start: its index, the newest where there are several. -/
def findInt (s : State) (run start : Nat) : Option Nat :=
  (recordIndices s 0).reverse.find? fun i => let r := intAt s i; decide (r.run = run ∧ r.start = start)

/-- Outcome byte of an own record (R229, R274). -/
def outcomeAt (s : State) (i : Nat) : Nat := (fetch blankByte (goodCopy s) (outcomeOff i)).toNat

/-- Writes byte 0 of an outcome entry to both copies (R278). -/
def putOutcome (i byte0 : Nat) (s : State) : State := putBytes s (outcomeOff i) (leBytes 1 byte0)

/-! ## Outcome of a pair -/

/-- The own side is upstream: the session's role, else the configured one (R272). -/
def ownUp (s : State) : Bool :=
  match s.pair.up with
  | some b => b
  | none => pget s 0x8100 = 1

/-- Role `single` (R17). -/
def single_ (s : State) : Bool := pget s 0x8100 = 0

/-- First settlement parameter of a run (R287). -/
def settleBase (run : Nat) : Nat := 0x8200 + 0x10 * (run - 1)

/-- A side is unclean (R275). -/
def uncleanSide (s : State) (run : Nat) (x : Side) : Bool :=
  pnat s (settleBase run + 7) * x.blocks < 100 * x.subs || x.flags.getLsbD 0 || x.flags.getLsbD 4

/-- Expected loss from a quantity (R272). -/
def expectedLoss (s : State) (run blocks : Nat) (energy : Bool) (q : Int) : Int :=
  let b := settleBase run
  let fixed := 1000 * pget s (b + if energy then 6 else 5)
  roundDiv (fixed * roundDiv ((blocks : Int) * 1000000) 3600) 1000000 + roundDiv (pget s (b + 4) * q) 10000

/-- A side's mass or energy. -/
def Side.qty (x : Side) (energy : Bool) : Int := if energy then x.e else x.m

/-- AGREED 1, LOSS 2 or DISPUTED 3 (Table 13.1). -/
def outcomeOf (s : State) (run : Nat) (up down : Side) : Nat :=
  let b := settleBase run
  let energy : Bool := pget s (b + 1) = 1
  let qu := up.qty energy
  let qd := down.qty energy
  let d := qu - qd
  let tau := max (roundDiv (pget s (b + 2) * (max qu.natAbs qd.natAbs : Nat)) 10000) (1000 * pget s (b + 3))
  if d.natAbs ≤ tau then 1
  else if tau < d ∧ d ≤ expectedLoss s run up.blocks energy qu + tau then 2 else 3

/-- The values of a decision: basis code, unclean bit, and upstream and downstream values of mass and of energy. -/
structure Values where
  basis : Nat
  unclean : Bool
  mass : Option (Int × Int)
  energy : Option (Int × Int)
  deriving DecidableEq, Repr

/-- Values from one side, the other formed by the expected loss (R276, steps 2 and 3). -/
def fromOne (s : State) (run : Nat) (up : Bool) (x : Side) : (Int × Int) × (Int × Int) :=
  let f := fun (energy : Bool) =>
    let q := x.qty energy
    let l := expectedLoss s run x.blocks energy q
    if up then (q, q - l) else (q + l, q)
  (f false, f true)

/-- Steps 1 ... 4 of R276 for an outcome code. -/
def valuesOf (s : State) (run code : Nat) (own : Side) (other : Option Side) : Values :=
  let up := ownUp s
  let oneSided := fun (basisUp : Bool) (x : Side) (unc : Bool) =>
    let q := fromOne s run basisUp x
    { basis := if basisUp then 1 else 2, unclean := unc, mass := some q.1, energy := some q.2 : Values }
  match code, other with
  | 3, some p =>
    let (u, d) := if up then (own, p) else (p, own)
    ⟨3, false, some (u.m, d.m), some (u.e, d.e)⟩
  | 1, some p | 2, some p =>
    let (u, d) := if up then (own, p) else (p, own)
    let cu := !uncleanSide s run u
    let cd := !uncleanSide s run d
    if cu && !cd then oneSided true u false
    else if cd && !cu then oneSided false d false
    else ⟨0, !cu, some (u.m, d.m), some (u.e, d.e)⟩
  | _, _ => oneSided up own (uncleanSide s run own)

/-- The run's rule (Table 13.2). -/
def ruleOf (s : State) (run : Nat) (q : Int × Int) : Int :=
  let k := pget s (settleBase run)
  if k = 1 then q.1 else if k = 2 then q.2 else if k = 3 then roundDiv (q.1 + q.2) 2 else min q.1 q.2

/-- A decision: outcome byte, settled mass and energy, and what R277 adds: settled and loss, mass and energy. -/
structure Decision where
  byte0 : Nat
  settled : Option (Int × Int)
  adds : Int × Int × Int × Int
  deriving DecidableEq, Repr

/-- The decision of a pair, or of an own record alone (R273 ... R277). -/
def decisionOf (s : State) (run code : Nat) (own : Side) (other : Option Side) : Decision :=
  if single_ s then
    ⟨4 + (if uncleanSide s run own then 64 else 0), some (own.m, own.e), (own.m, own.e, 0, 0)⟩
  else
    let v := valuesOf s run code own other
    let byte0 := code + 16 * v.basis + (if v.unclean then 64 else 0)
    match v.mass, v.energy with
    | some m, some e =>
      if code = 3 then ⟨byte0, none, (0, 0, 0, 0)⟩
      else
        let sm := ruleOf s run m
        let se := ruleOf s run e
        let l := if code = 1 ∨ code = 2 then (m.1 - m.2, e.1 - e.2) else (0, 0)
        ⟨byte0, some (sm, se), (sm, se, l.1, l.2)⟩
    | _, _ => ⟨byte0, none, (0, 0, 0, 0)⟩

def State.modSettle (s : State) (run : Nat) (f : SettleRun → SettleRun) : State :=
  let i : Fin 4 := ⟨(run - 1) % 4, Nat.mod_lt _ (by decide)⟩
  { s with se := { s.se with runs := s.se.runs.set i.val (f s.se.runs[i]) i.isLt } }

/-- The contribution of an interval already in the totals. -/
def partOf (x : SettleRun) (start : Nat) : Int × Int × Int × Int :=
  match x.parts.find? fun p => p.1 = start with
  | some p => p.2
  | none => (0, 0, 0, 0)

/-- Marks the table entry of an interval decided. -/
def markDecided (run start : Nat) (s : State) : State :=
  { s with se := { s.se with table := s.se.table.map fun t =>
      if t.run = run ∧ t.start = start then { t with decided := true } else t } }

/-- Writes an outcome with its totals, counter and note; an earlier contribution of the interval is removed (R277,
R278). -/
def decideInt (i run start code : Nat) (own : Side) (other : Option Side) (s : State) : State :=
  let d := decisionOf s run code own other
  let s1 := putOutcome i d.byte0 (markDecided run start s)
  let s2 := s1.modSettle run fun x =>
    let o := partOf x start
    { totalM := x.totalM + d.adds.1 - o.1
      totalE := x.totalE + d.adds.2.1 - o.2.1
      lossM := x.lossM + d.adds.2.2.1 - o.2.2.1
      lossE := x.lossE + d.adds.2.2.2 - o.2.2.2
      kept := x.kept
      last := some (start, d.byte0, d.settled.map (·.1), d.settled.map (·.2))
      parts := ((start, d.adds) :: x.parts.filter fun p => p.1 ≠ start).take 8192 }
  if code = 3 then
    noteAll (spaced ["settle disputed run" ++ natText run, secText start])
      { s2 with se := { s2.se with disputed := s2.se.disputed + 1 } }
  else s2

/-- The table entry of an interval. -/
def entryOf (s : State) (run start : Nat) : Option Entry :=
  s.se.table.find? fun t => t.run = run ∧ t.start = start

/-- Decides a pair whose two records are there: EQUIVOCAL after a second, differing partner record, and a mismatch is
ALONE (R271, R273). -/
def decidePair (i : Nat) (own : IntRec) (p : Entry) (s : State) : State :=
  if p.twice then decideInt i own.run own.start 5 own.side none s
  else if own.total = p.blocks then
    let (u, d) := if ownUp s then (own.side, p.side) else (p.side, own.side)
    decideInt i own.run own.start (outcomeOf s own.run u d) own.side (some p.side) s
  else
    decideInt i own.run own.start 4 own.side none { s with se := { s.se with mismatch := s.se.mismatch + 1 } }

/-- An own record has been placed in both copies (R271, R273). -/
def ownPlaced (i : Nat) (s : State) : State :=
  let own := intAt s i
  if single_ s then decideInt i own.run own.start 4 own.side none s
  else match entryOf s own.run own.start with
    | some p => if p.decided then s else decidePair i own p s
    | none => s

/-! ## The partner table -/

/-- Removes the oldest decided entry; none where every entry is undecided (R280). -/
def dropDecided : List Entry → Option (List Entry)
  | [] => none
  | t :: ts => if t.decided then some ts else (dropDecided ts).map (t :: ·)

/-- Counts a late record (R280). -/
def countLate (s : State) : State := { s with se := { s.se with late := s.se.late + 1 } }

/-- A second, differing record of an interval (R281). -/
def equivocal (t : Entry) (tag : List Byte) (s : State) : State :=
  let s1 := moduleNote s 0x16 (leBytes 1 t.run ++ leBytes 4 t.start ++ t.tag.take 4 ++ tag.take 4)
  let day := t.start - t.start % 86400
  let mark := fun (e : Entry) => if e.run = t.run ∧ e.start = t.start then { e with twice := true } else e
  let s2 := { s1 with se := { s1.se with equivocal := s1.se.equivocal + 1, table := s1.se.table.map mark }
                      pair := { s1.pair with foul := if day ∈ s1.pair.foul then s1.pair.foul else day :: s1.pair.foul } }
  let s3 := noteAll (spaced ["settle equivocal run" ++ natText t.run, secText t.start]) s2
  match findInt s3 t.run t.start with
  | some i =>
    if outcomeAt s3 i % 16 = 5 ∧ outcomeAt s3 i ≠ 255 then s3
    else decideInt i t.run t.start 5 (intAt s3 i).side none s3
  | none => s3

/-- Sums of the accepted records of a day (R263). -/
def addDay (r : IntRec) (days : List (Nat × Nat × List (Int × Int))) : List (Nat × Nat × List (Int × Int)) :=
  let day := r.start - r.start % 86400
  let add := fun (xs : List (Int × Int)) => xs.zipIdx.map fun (q, k) => if k = r.run - 1 then (q.1 + r.m, q.2 + r.e) else q
  if days.any fun d => d.1 = day then
    days.map fun d => if d.1 = day then (d.1, d.2.1 + 1, add d.2.2) else d
  else days ++ [(day, 1, add (List.replicate 4 (0, 0)))]

/-- Counts an accepted record in its day, once for each run and start (R263). -/
def Pair.countRecord (r : IntRec) (p : Pair) : Pair :=
  if (r.run, r.start) ∈ p.taken then p
  else { p with days := addDay r p.days, taken := ((r.run, r.start) :: p.taken).take 153600 }

/-- An accepted ivl: 48 bytes and its tag (R262, R271, R280, R281). -/
def acceptIvl (bs : List Byte) (s : State) : State :=
  let r := readInt bs
  let tag := (bs.drop 48).take 8
  match entryOf s r.run r.start with
  | some t => if t.tag = tag then s else equivocal t tag s
  | none =>
    let s1 := { s with pair := s.pair.countRecord r }
    let own := findInt s1 r.run r.start
    let closed : Bool := match own with
      | some i => outcomeAt s1 i ≠ 255
      | none => false
    if closed then countLate s1
    else
      let t : Entry := { run := r.run, start := r.start, tag := tag, m := r.m, e := r.e, blocks := r.total,
                         flags := r.flags, subs := r.cU + r.cK + r.cX, decided := false, twice := false }
      let room := if s1.se.table.length < 8192 then some s1.se.table else dropDecided s1.se.table
      match room with
      | none => countLate s1
      | some ts =>
        let s2 := { s1 with se := { s1.se with table := ts ++ [t] } }
        match own with
        | some i => decidePair i (intAt s2 i) t s2
        | none => s2

/-- Minutes of a length code (R228). -/
def codeMinutes (c : Nat) : Nat := [5, 10, 15, 30, 60].getD c 0

/-- ALONE by the wait, at a daily close (R273), in every role: a `single` module too decides what a paired role left open
(R17). The interval's end follows from the length code of its record. -/
def aloneByWait (s : State) : State :=
  let limit := 86400 * pnat s 0x8180
  (recordIndices s 0).foldl (fun t i =>
    let r := intAt t i
    if outcomeAt t i = 255 ∧ r.start + 60 * codeMinutes r.code + limit ≤ nowSec t ∧ (entryOf t r.run r.start).isNone then
      decideInt i r.run r.start 4 r.side none t
    else t) s

/-! ## PAIR -/

/-- A fingerprint of eight groups of four hexadecimal digits (R234). -/
def fingerprintForm (t : String) : Bool :=
  let cs := t.toList
  cs.length = 39 && cs.zipIdx.all fun (c, i) => if i % 5 = 4 then c = ':' else (hexValue c).isSome

/-- `pair` fingerprint (R284). -/
def bodyPair (rq : Req) (args : List String) : Body := fun s => do
  match args with
  | [t] =>
    need (fingerprintForm t) .badForm
    servedActive s
    let fp := lowerText t
    let known : Bool := s.lg.keys.any fun k => fingerprintText k.1 = fp
    need (known || s.lg.keys.length < 16 || s.pair.fingerprint = some fp) .taken
    needMetrology s rq.line
    if s.pair.fingerprint = some fp then .ok (s, ["ok pair"])
    else
      .ok (auditLine rq.line 0x0E 0 0 0 (crc32c (fp.toList.map fun c => BitVec.ofNat 8 c.toNat)).toNat
        { s with pair := { s.pair with fingerprint := some fp, fresh := !known } }, ["ok pair"])
  | _ => .error .badForm

/-- PAIR (R284). -/
def execPair (rq : Req) (args : List String) (s : State) : Host.Outcome State Fault Refusal :=
  done (runLine rq "pair" (bodyPair rq args) s)

end Sys2Proof.Machine
end

