-- ==== Sys2Proof/Machine/Wire.lean ====
section
/-! DEFINITION. Frames of the tally conversation as sent (R245 ... R261, R268): forms, window, turn, acknowledgement,
retransmission and loss. -/

namespace Sys2Proof.Machine

def State.modPair (s : State) (f : Pair → Pair) : State := { s with pair := f s.pair }

/-- The conversation runs: RUN, SAFE or HELD, and in STOP until its session is closed, in a paired role (R17, R251,
R269). -/
def talking (s : State) : Bool :=
  (s.pw.ms = .run || s.pw.ms = .safe || s.pw.ms = .held || (s.pw.ms = .stop && s.pair.st = .opened)) && !single_ s

/-- The partner line is half-duplex (R260). -/
def halfDuplex (s : State) : Bool := pget s 0x8101 = 1 || pget s 0x8101 = 3

/-- The sequence after a sequence (R246). -/
def seqAfter (n : Nat) : Nat := if n = 65535 then 1 else n + 1

/-- The ack field (R246). -/
def ackField (p : Pair) : Nat := if p.accepted then (if p.expect = 1 then 65535 else p.expect - 1) else 0

/-- This end holds the turn, and the guard behind the ack frame that gave it is over (R260). -/
def holdsTurn (s : State) : Bool := s.pair.turn && decide (s.pair.turnFrom ≤ s.ck.mono)

/-- Retransmission floor f in µs (R258). -/
def rtoFloor (s : State) : Nat := 24200000000 / pnat s 0x8102 + 50000

/-- Wake preamble after 50 ms of silence (R247). -/
def preamble (s : State) : String :=
  if s.pair.txAt + 50 ≤ s.ck.mono then
    String.ofList (List.replicate (max 2 ((15 * pnat s 0x8102 + 99999) / 100000)) '~')
  else ""

/-- A frame without its check (R245). -/
def frameBody (tag : Nat) (verb : String) (ack : Nat) (fields : String) : String :=
  "#" ++ natText tag ++ " " ++ verb ++ " " ++ natText ack ++ (if fields = "" then "" else " " ++ fields)

/-- Puts a frame text on the line; a sender wakes the fast domain for a line pass (R247). -/
def putFrame (text : String) (s : State) : State :=
  wakeLine (s.modPair fun p => { p with sent := p.sent ++ [preamble s ++ text ++ checkField text], txAt := s.ck.mono })

/-- Sends an unsequenced frame (R246). -/
def sendPlain (verb fields : String) (s : State) : State :=
  (putFrame (frameBody s.pair.nextSeq verb (ackField s.pair) fields) s).modPair fun p => { p with unacked := 0 }

/-- Verb of a sequenced kind. -/
def kindVerb (k : Nat) : String := ["tq", "tr", "cosig", "decline", "damage", "ivl", "close", "csig"].getD k "ack"

/-- Order of leaving (R261); an unsequenced nak (8) and a resending (9) that wait for the turn leave
first. -/
def kindRank (k : Nat) : Nat := if 8 ≤ k then 0 else if k ≤ 1 then 1 else if k ≤ 3 then 2 else if k = 4 then 3 else 4

/-- Inserts an offer behind those that leave no later. -/
def insertOffer (o : Offer) : List Offer → List Offer
  | [] => [o]
  | x :: xs => if kindRank o.kind < kindRank x.kind then o :: x :: xs else x :: insertOffer o xs

/-- Clears the window state of a session (R259). -/
def clearWindow (p : Pair) : Pair :=
  { p with out := [], offers := [], nextSeq := 1, expect := 1, accepted := false, unacked := 0, naks := [], tq := none
           thetas := [], turn := false, turnFrom := 0, closeRec := none, waiting := [], damage := [], step := 0, clockNoted := false }

/-- Module note 0011h (Table 12.5). -/
def lossNote (cause : Nat) (s : State) : State := moduleNote s 0x11 (leBytes 1 cause ++ leBytes 8 s.pair.serial)

/-- Cause words of a loss by code (R259). -/
def lossWord (cause : Nat) : String :=
  if cause = 4 then "retry" else if cause = 5 then "silence" else if cause = 6 then "window"
  else if cause = 7 then "proto" else "restart"

/-- The session is lost (R259). -/
def losePair (cause : Nat) (s : State) : State :=
  lossNote cause (noteAll ("pair lost " ++ lossWord cause)
    (s.modPair fun p => { clearWindow p with st := .lost, resync := p.resync + 1 }))

/-- Sends a retained frame again. -/
def resendOne (s : State) (f : OutFrame) : State :=
  (putFrame f.text s).modPair fun p => { p with retrans := p.retrans + 1 }

/-- Sends frame `seq` and every later outstanding frame again; the session is lost where a frame has been sent again
`pair.retry` times (R257 ... R259). -/
def resendFrom (seq : Nat) (s : State) : State :=
  let late := s.pair.out.dropWhile fun f => f.seq ≠ seq
  if late.any (fun f => pnat s 0x8103 ≤ f.resends) then losePair 4 s
  else
    let again := late.foldl resendOne s
    let bump := fun (f : OutFrame) =>
      if late.any (fun g => g.seq = f.seq) then { f with resends := f.resends + 1, sentAt := s.ck.mono } else f
    again.modPair fun p => { p with out := p.out.map bump }

/-- Ties the oldest damage report that has no sequence yet to the frame that carries it (R265). -/
def tieDamage (seq : Nat) : List (Nat × Nat × Nat) → List (Nat × Nat × Nat)
  | [] => []
  | d :: ds => if d.1 = 0 then (seq, d.2) :: ds else d :: tieDamage seq ds

/-- Sends one offer: a nak, a resending, or a sequenced frame with the stamps that it carries (R254, R266). -/
def sendOffer (o : Offer) (s : State) : State :=
  if o.kind = 8 then sendPlain "nak" o.body s
  else if o.kind = 9 then resendFrom (digitsValue o.body.toList) s
  else
    let seq := s.pair.nextSeq
    let body := if o.kind = 0 then msText (nowMs s) else if o.kind = 1 then o.body ++ " " ++ msText (nowMs s) else o.body
    let text := frameBody seq (kindVerb o.kind) (ackField s.pair) body
    let f : OutFrame := { seq := seq, text := text, check := crc16 text, sentAt := s.ck.mono, resends := 0, kind := o.kind }
    (putFrame text s).modPair fun p => { p with
      unacked := 0, nextSeq := seqAfter seq, out := p.out ++ [f]
      tq := if o.kind = 0 then some (nowMs s) else p.tq
      damage := if o.kind = 4 then tieDamage seq p.damage else p.damage }

/-- Sends offers while the window of 8 has room (R254); the stop sequence sends no new one (R269). -/
def sendWindow : Nat → State → State
  | 0, s => s
  | n + 1, s =>
    match s.pair.offers with
    | [] => s
    | o :: os =>
      if (s.pair.out.length < 8 ∧ s.pw.ms ≠ .stop) ∨ 8 ≤ o.kind then sendWindow n (sendOffer o (s.modPair fun p => { p with offers := os }))
      else s

/-- Sends what may leave; in half-duplex the turn's holder ends its turn with an ack frame, and a downstream module with
nothing to send returns it at once (R260, R261). -/
def flushPair (s : State) : State :=
  if s.pair.st ≠ .opened then s
  else if !halfDuplex s then sendWindow 16 s
  else if holdsTurn s then
    let t := sendWindow 8 s
    if t.pair.st ≠ .opened then t
    else if t.pair.offers.length < s.pair.offers.length ∨ s.pair.up = some false then
      (sendPlain "ack" "" t).modPair fun p => { p with turn := false }
    else t
  else s

/-- A resending waits for the turn: one at most, from the oldest frame that any asked for. -/
def queueResend (seq : Nat) (p : Pair) : Pair :=
  let asked := natText seq :: (p.offers.filter fun o => o.kind = 9).map (·.body)
  let first := ((p.out.find? fun f => natText f.seq ∈ asked).map (·.seq)).getD seq
  { p with offers := insertOffer ⟨9, natText first⟩ (p.offers.filter fun o => o.kind ≠ 9) }

/-- Sends frame `seq` and every later one again, in half-duplex once this end holds the turn (R257, R260). -/
def resendTurn (seq : Nat) (s : State) : State :=
  if halfDuplex s && !holdsTurn s then s.modPair (queueResend seq) else resendFrom seq s

/-- Offers a frame (R261); the stop sequence offers none (R269). -/
def offer (kind : Nat) (body : String) (s : State) : State :=
  if s.pair.st = .opened ∧ s.pw.ms ≠ .stop then flushPair (s.modPair fun p => { p with offers := insertOffer ⟨kind, body⟩ p.offers }) else s

/-- The conversation sets a channel's working source to a stored record, from its offset in the copy that is read, and then
the channel's flag 0 (R221). -/
def feedPort (g : Channel) (off : Nat) (s : State) : State :=
  let base := if s.lg.state = .singleB then 0x31000000 else 0x30000000
  if s.pair.st = .opened ∧ s.pw.ms ≠ .stop then
    s.modChan g fun c => { c with src := BitVec.ofNat 32 (base + off), flags := c.flags ||| 1 }
  else s

/-- Offers a stored record, which G0 or G2 moves to the partner transmit port (R221, R262). The frame takes the record's
bytes from the copy that the channel reads and does not wait for the channel: log 26. -/
def offerRecord (g : Channel) (off kind : Nat) (body : String) (s : State) : State := offer kind body (feedPort g off s)

/-- Sends an ack frame where the line is full-duplex (R254). -/
def sendAck (s : State) : State := if halfDuplex s then s else sendPlain "ack" "" s

/-- The naks sent within the last `pair.rto` (R256). -/
def recentNaks (s : State) : List (Nat × Nat) :=
  s.pair.naks.filter fun q => s.ck.mono < q.2 + s.pair.rto.getD 0 / 1000

/-- A nak, at most one for a sequence within `pair.rto` (R255, R256). -/
def sendNak (seq : Nat) (check : String) (s : State) : State :=
  let recent := recentNaks s
  if recent.any fun q => q.1 = seq then s
  else offer 8 (natText seq ++ " " ++ check) (s.modPair fun p => { p with naks := (seq, s.ck.mono) :: recent })

/-- One sample of the round trip, in µs (R258). -/
def sampleRtt (floor r : Nat) (p : Pair) : Pair :=
  let (a, v) : Nat × Nat := match p.rtt with
    | some (a, v) =>
      ((roundDiv (7 * a + r : Nat) 8).toNat, (roundDiv (3 * v + ((a : Int) - r).natAbs : Nat) 4).toNat)
    | none => (r, (roundDiv r 2).toNat)
  { p with rtt := some (a, v), rto := some (max floor (min 60000000 (a + max (4 * v) 20000))) }

/-- Frames up to a sequence, and the rest. -/
def splitAck (a : Nat) : List OutFrame → List OutFrame × List OutFrame
  | [] => ([], [])
  | f :: fs => if f.seq = a then ([f], fs) else let r := splitAck a fs; (f :: r.1, r.2)

/-- Sets bits of the status byte of a record: the outcome entry, or the close slot (R229, R232). -/
def setStatus (k : Fin 4) (i bits : Nat) (s : State) : State :=
  let off := if k = 0 then outcomeOff i + 1 else recOff 1 i + 314
  if k = 0 ∨ k = 1 then
    let b := fetch blankByte (goodCopy s) off
    let b0 : Byte := if k = 1 ∧ b = blankByte then 0 else b
    putBytes s off [b0 ||| BitVec.ofNat 8 bits]
  else s

/-- An acknowledged frame: its sample, and partner told for a damage report (R258, R265). -/
def acked (floor : Nat) (s : State) (f : OutFrame) : State :=
  let s1 := if f.resends = 0 then s.modPair (sampleRtt floor (1000 * (s.ck.mono - f.sentAt))) else s
  if f.kind = 4 then
    match s1.pair.damage.find? fun d => d.1 = f.seq with
    | some (_, c, i) =>
      let k : Fin 4 := ⟨c % 4, Nat.mod_lt _ (by decide)⟩
      setStatus k i 4 (s1.modPair fun p => { p with damage := p.damage.filter fun d => d.1 ≠ f.seq })
    | none => s1
  else s1

/-- An ack field acknowledges the frame it names and all before it; any other is ignored (R254). -/
def takeAck (a : Nat) (s : State) : State :=
  if s.pair.out.any (fun f => f.seq = a) then
    let (got, rest) := splitAck a s.pair.out
    flushPair (got.foldl (acked (rtoFloor s)) (s.modPair fun p => { p with out := rest }))
  else s

end Sys2Proof.Machine
end

