-- ==== Sys2Proof/Machine/Check.lean ====
section
/-! DEFINITION. Checking of chained records and mirror repair (R240 ... R242, R265), and LEDGER_SCRUB. -/

namespace Sys2Proof.Machine

/-- Name of an area (Table 12.2). -/
def areaName (k : Fin 4) : String :=
  match k with | 0 => "interval" | 1 => "close" | 2 => "events" | 3 => "audit"

/-- Writes bytes to one copy (R241): 1 A, 2 B. -/
def putCopy (copy off : Nat) (bs : List Byte) (s : State) : State :=
  { s with
    mem := if copy = 1 then { s.mem with a := storeAll blankByte s.mem.a off bs }
           else { s.mem with b := storeAll blankByte s.mem.b off bs }
    sp := { s.sp with framWrites := countSectors s.sp.framWrites (copy - 1) off bs.length } }

/-- What a record looks like in the two copies. -/
structure Pairing where
  a : List Byte
  b : List Byte
  tagA : List Byte
  tagB : List Byte
  deriving DecidableEq, Repr

/-- Content and tags of a record in both copies. -/
def pairing (s : State) (k : Fin 4) (i : Nat) : Pairing :=
  ⟨contentAt s.mem.a k i, contentAt s.mem.b k i, tagAt s.mem.a k i, tagAt s.mem.b k i⟩

/-- The chain value that the chain goes on from after record `i` (R240, R241): that of a copy whose tag matches, else
of the good copy. -/
def stepValue (s : State) (k : Fin 4) (prev : List Byte) (i : Nat) : List Byte :=
  let p := pairing s k i
  let va := sha256 (prev ++ p.a)
  let vb := sha256 (prev ++ p.b)
  if s.lg.state = .singleB then vb
  else if va.take 8 = p.tagA then va
  else if vb.take 8 = p.tagB ∧ s.lg.state = .ok then vb else va

/-- The full values of a chain that the closes hold: the heads of the interval, event and audit chains as each day ended
(R232). -/
def anchorsOf (s : State) (k : Fin 4) : List (List Byte) :=
  let at_ := fun (off : Nat) => (recordIndices s 1).map fun c => fetchAll blankByte (goodCopy s) (recOff 1 c + off) 32
  match k with | 0 => at_ 80 | 1 => [] | 2 => at_ 112 | 3 => at_ 144

/-- The anchor of record `i`, where a close holds one: its first 8 bytes are the record's tag (R230). -/
def anchorAt (s : State) (k : Fin 4) (anchors : List (List Byte)) (i : Nat) : Option (List Byte) :=
  anchors.find? fun a => a.take 8 = tagAt (goodCopy s) k i

/-- The full chain value ahead of record `i`, from the nearest earlier full value: the base or an anchor (R240). -/
def valueBefore (s : State) (k : Fin 4) (i : Nat) : List Byte :=
  let anchors := anchorsOf s k
  ((recordIndices s k).takeWhile fun j => j ≠ i).foldl
    (fun d j => (anchorAt s k anchors j).getD (stepValue s k d j)) (baseOf s k)

/-- The full chain value of record `i`. -/
def valueAt (s : State) (k : Fin 4) (i : Nat) : List Byte := stepValue s k (valueBefore s k i) i

/-- The message of an own signature over a close's chain value (R233). -/
def closeMessage (c : List Byte) : List Byte := (0x01 : Byte) :: c

/-- A value of a record is confirmed by what follows: the next record's tag, the head, an anchor, or the own signature of a
close (R241, case 5). -/
def confirmed (s : State) (k : Fin 4) (i : Nat) (copy : List Host.Cell) (v : List Byte) : Bool :=
  let last : Bool := (i + 1) % areaSize k = s.lg.chains[k].next
  let next := (i + 1) % areaSize k
  (last && v = headOf s k)
    || decide (v ∈ anchorsOf s k)
    || (!last && (sha256 (v ++ contentAt (goodCopy s) k next)).take 8 = tagAt (goodCopy s) k next)
    || (k = 1 && Config.edVerify s.ident.key (closeMessage v) (fetchAll blankByte copy (recOff 1 i + 184) 64))

/-- Case of Table 11.10, and the copy taken as good in case 5: 1 A, 2 B, 0 none. -/
def caseOf (s : State) (k : Fin 4) (i : Nat) : Nat × Nat :=
  let p := pairing s k i
  let prev := valueBefore s k i
  let va := sha256 (prev ++ p.a)
  let vb := sha256 (prev ++ p.b)
  let okA : Bool := va.take 8 = p.tagA
  let okB : Bool := vb.take 8 = p.tagB
  let blank := fun (x : List Byte) => x.all fun c => c = blankByte
  if s.lg.state ≠ .ok then
    (if (if s.lg.state = .singleB then okB else okA) then (1, 0) else (4, 0))
  else if p.a = p.b then
    (if okA && okB then (1, 0) else if okA then (3, 1) else if okB then (3, 2) else (4, 0))
  else if blank p.a && okB then (6, 2)
  else if blank p.b && okA then (6, 1)
  else if okA then (2, 1)
  else if okB then (2, 2)
  else if confirmed s k i s.mem.a va then (5, 1)
  else if confirmed s k i s.mem.b vb then (5, 2)
  else (5, 0)

/-- The parts of a record with their lengths: the record, and the tag of an interval record. -/
def recordParts (k : Fin 4) (i : Nat) : List (Nat × Nat) :=
  if k = 0 then [(recOff 0 i, 48), (tagOff i, 8)] else [(recOff k i, recSize k)]

/-- Copies a record from the good copy to the other; the tag is the one its data give. -/
def rewrite (k : Fin 4) (i good : Nat) (s : State) : State :=
  let src := if good = 1 then s.mem.a else s.mem.b
  let v := sha256 (valueBefore s k i ++ contentAt src k i)
  let s1 := (recordParts k i).foldl (fun t q => putCopy (3 - good) q.1 (fetchAll blankByte src q.1 q.2) t) s
  putCopy (3 - good) (recTagOff k i) (v.take 8) (putCopy good (recTagOff k i) (v.take 8) s1)

/-- Status byte of a record, where its area has one. -/
def statusOf (s : State) (k : Fin 4) (i : Nat) : Nat :=
  if k = 0 then (fetch blankByte (goodCopy s) (outcomeOff i + 1)).toNat
  else if k = 1 then (fetch blankByte (goodCopy s) (recOff 1 i + 314)).toNat else 0

/-- Payload of module notes 0006h ... 0008h (Table 11.6). -/
def repairPayload (k : Fin 4) (i kase copy : Nat) : List Byte :=
  leBytes 1 (k.val + 1) ++ leBytes 4 i ++ leBytes 1 kase ++ leBytes 1 copy

/-- Tells the partner of damage (R265). -/
def tellDamage (k : Fin 4) (i kase : Nat) (s : State) : State :=
  if s.pair.st = .opened then
    offer 4 (spaced [areaName k, natText i, natText kase])
      (s.modPair fun p => { p with damage := p.damage ++ [(0, k.val, i)] })
  else s

/-- Checks one record and repairs it (R241). A record already marked damaged is not counted again. -/
def checkRecord (k : Fin 4) (i : Nat) (s : State) : State :=
  if !recordExists s k i then s
  else
    let (kase, good) := caseOf s k i
    if kase = 1 then s
    else if kase = 4 ∨ (kase = 5 ∧ good = 0) then
      let bit := if kase = 4 then 1 else 8
      if (k = 0 ∨ k = 1) ∧ statusOf s k i / bit % 2 = 1 ∧ statusOf s k i ≠ 255 then s
      else
        let s1 := setStatus k i bit s
        let s2 := { s1 with lg := { s1.lg with
          checkDamaged := if kase = 4 then s1.lg.checkDamaged + 1 else s1.lg.checkDamaged
          dataDamaged := if kase = 4 then s1.lg.dataDamaged else s1.lg.dataDamaged + 1 } }
        tellDamage k i kase (moduleNote s2 (if kase = 4 then 0x07 else 0x08) (repairPayload k i kase 0))
    else
      let s1 := setStatus k i 2 (rewrite k i good s)
      moduleNote { s1 with lg := { s1.lg with repairs := s1.lg.repairs + 1 } } 0x06 (repairPayload k i kase (3 - good))

/-- LEDGER_SCRUB: RUN, SAFE and HELD in awake time (R240). The newest audit record ends a pass (log 23). -/
def ledgerScrub (k : Fin 4) (i : Nat) (s : State) : State :=
  if s.pw.ms = .run ∨ s.pw.ms = .safe ∨ s.pw.ms = .held then
    let s1 := checkRecord k i s
    if k = 3 ∧ recordExists s 3 i ∧ (i + 1) % areaSize 3 = s.lg.chains[3].next then
      { s1 with lg := { s1.lg with scrubLast := some (nowSec s) } }
    else s1
  else s

/-- LEDGER_SCRUB (R240, R241). -/
def execLedgerScrub (chain : Fin 4) (index : Nat) (s : State) : Host.Outcome State Fault Refusal :=
  done (ledgerScrub chain index s)

end Sys2Proof.Machine
end

