-- ==== Sys2Proof/Machine/Ageing.lean ====
section
/-! DEFINITION. Ageing (R336 ... R339): indicators, predictions, warnings, the thermal indicator and a fresh backup
cell. -/

namespace Sys2Proof.Machine

/-- Position of a trend indicator in the stored trends. -/
def trendSlot (i : Nat) : Option (Fin 9) :=
  if h : i < 8 then some ⟨i, by omega⟩ else if i = 11 then some 8 else none

/-- Position of a counting indicator. -/
def countSlot (i : Nat) : Fin 7 :=
  if i = 8 then 0 else if i = 9 then 1 else if i = 10 then 2 else if i = 12 then 3 else if i = 13 then 4
  else if i = 14 then 5 else 6

/-- Writes to the most-written sector of a copy (Table 16.4). -/
def mostWritten (fw : List (Nat × Nat)) (copy : Nat) : Nat :=
  fw.foldl (fun m q => if q.1 / 4096 = copy then max m q.2 else m) 0

/-- Remaining charge of the backup cell, mAh (Table 16.4). -/
def backupCharge (s : State) : Int :=
  roundDiv ((1920 : Int) * 360000 * 31557600 - (s.sp.charge : Int) * 31557600
    - 24 * 360000 * ((nowSec s - s.sp.backupFitted : Nat) : Int)) (360000 * 31557600)

/-- Value of a counting indicator in units of its resolution (Table 16.4, R340). -/
def countValue (s : State) (i : Nat) : Int :=
  if i = 8 then backupCharge s
  else if i = 9 then s.sp.trips.1 else if i = 10 then s.sp.trips.2
  else if i = 12 then mostWritten s.sp.framWrites 0 else if i = 13 then mostWritten s.sp.framWrites 1
  else if i = 14 then ((s.sp.table.filter fun e => e.kind = 3 ∧ e.st ≠ 3).length : Nat)
  else (s.sp.thermal / 1000000000 : Nat)

/-- Limit of a counting indicator. -/
def countLimit (s : State) (i : Nat) : Int :=
  if i = 8 then 0
  else if i = 9 ∨ i = 10 then (if pget s 0xB011 = 0 then 100000 else 30000)
  else if i = 12 ∨ i = 13 then 1000000000000 else if i = 14 then 64 else 262980

/-- Mean of the day of a trend indicator, where one is formed. -/
def trendToday (s : State) (i : Nat) : Option Int :=
  if i = 11 then (if s.sp.refDay.2 = 0 then none else some (roundDiv s.sp.refDay.1 s.sp.refDay.2))
  else
    let r : Run := ⟨i / 2 % 4, Nat.mod_lt _ (by decide)⟩
    let d := s.runs[r].eng.pilot.day
    let q := if i % 2 = 0 then d.1 else d.2
    if q.2 = 0 then none else some (roundDiv (q.1 : Nat) q.2)

/-- Sums of a least-squares line through y at days x counted from today: n, A, B, C, Y, X with slope B ÷ A (R338). -/
structure Fit where
  n : Int
  a : Int
  b : Int
  c : Int
  y : Int
  x : Int
  deriving DecidableEq, Repr

/-- The fit of daily values. -/
def fitOf (today : Nat) (ys : List (Nat × Int)) : Fit :=
  let n : Int := (ys.length : Nat)
  let q := ys.map fun (d, y) => (y, (d : Int) - today)
  let x := (q.map (·.2)).sum
  let y := (q.map (·.1)).sum
  let xx := (q.map fun p => p.2 * p.2).sum
  let yy := (q.map fun p => p.1 * p.1).sum
  let xy := (q.map fun p => p.1 * p.2).sum
  ⟨n, n * xx - x * x, n * xy - x * y, n * yy - y * y, y, x⟩

/-- The relative uncertainty u is at most `percent` % (R338). -/
def Fit.within (f : Fit) (percent : Int) : Bool :=
  1645 * 1645 * (f.c * f.a - f.b * f.b) * 10000 ≤ percent * percent * 1000000 * (f.n - 2) * (f.b * f.b)

/-- Quotient rounded up. -/
def ceilDiv (a b : Int) : Int := -((-a) / b)

/-- Days until the fitted line reaches a limit, not below 0. -/
def Fit.days (f : Fit) (limit : Int) : Int :=
  let num := limit * f.n * f.a - f.y * f.a + f.b * f.x
  let den := f.n * f.b
  max 0 (if den < 0 then ceilDiv (-num) (-den) else ceilDiv num den)

/-- An indicator whose date is the end of the service life, `beyond`. -/
def beyondRec (s : State) (v lim : Int) (cls : Nat) : AgeRec := ⟨v, lim, some (lifeEnd s), cls, true⟩

/-- An indicator that reaches its limit in `days` from today (R338). -/
def datedRec (s : State) (v lim : Int) (cls : Nat) (days : Int) : AgeRec :=
  let date := (nowSec s / 86400 + days.toNat) * 86400
  if lifeEnd s < date then beyondRec s v lim cls else ⟨v, lim, some date, cls, false⟩

/-- Limit of a trend: the end of the band that it approaches; for the reference its magnitude (Table 16.4, R340). -/
def trendLimit (s : State) (i : Nat) (b : Int) : Int :=
  if i = 11 then (if b < 0 then -200 else 200)
  else 10000 + 100 * (if b < 0 then - pget s 0x5490 else pget s 0x5490)

/-- A trend indicator as evaluated (R336, R338). -/
def trendRec (s : State) (i : Nat) (ys : List (Nat × Int)) : Option AgeRec :=
  match ys with
  | [] => none
  | (_, v) :: _ =>
    let f := fitOf (nowSec s / 86400) ys
    let lim := trendLimit s i f.b
    let shown := if i = 11 then 200 else lim
    if ys.length < 30 then some ⟨v, shown, none, 0, false⟩
    else
      let cls := if 180 ≤ ys.length ∧ f.within 10 then 3 else if 60 ≤ ys.length ∧ f.within 25 then 2 else 1
      if f.b = 0 ∨ f.within 100 = false then some (beyondRec s v shown cls)
      else some (datedRec s v shown cls (f.days lim))

/-- The first day at or after a time. -/
def dayCeil (t : Nat) : Nat := (t + 86399) / 86400 * 86400

/-- A counting indicator as evaluated (R336, R338). -/
def countRec (s : State) (i : Nat) (ys : List Int) : AgeRec :=
  let v := countValue s i
  let lim := countLimit s i
  let cls := if 365 ≤ ys.length then 3 else if 90 ≤ ys.length then 2 else if 30 ≤ ys.length then 1 else 0
  let margin := if i = 8 then v - lim else lim - v
  let oldest := ys.getLast?.getD v
  let rise := if i = 8 then oldest - v else v - oldest
  if i = 14 ∧ s.ident.variant = .n4 then ⟨0, lim, none, 0, false⟩
  else
    let r := if margin ≤ 0 then datedRec s v lim cls 0
      else if rise ≤ 0 then beyondRec s v lim cls
      else datedRec s v lim cls (ceilDiv (margin * ((ys.length - 1 : Nat) : Int)) rise)
    if i = 8 then
      let end_ := dayCeil (s.sp.backupFitted + 15 * 31557600)
      if end_ < r.date.getD end_ then { r with date := some end_, beyond := false } else r
    else r

/-- Word of a confidence class. -/
def className4 (c : Nat) : String := ["none", "weak", "fair", "firm"].getD c "none"

/-- Stores an evaluated indicator and warns once while its date lies within `age.warn` days (R339). -/
def storeAge (i : Fin 16) (a : AgeRec) (s : State) : State :=
  let s1 := { s with sp := { s.sp with ages := s.sp.ages.set i.val (some a) i.isLt } }
  let within : Bool := match a.date with
    | some d => d ≤ nowSec s + 86400 * pnat s 0xB010
    | none => false
  let s2 := { s1 with sp := { s1.sp with warned := s1.sp.warned.set i.val within i.isLt } }
  if within && !s.sp.warned[i] then
    let d := a.date.getD 0
    moduleNote (noteAll (spaced ["age", ageNames.getD i.val "", secText d, className4 a.cls]) s2) 0x21
      (leBytes 1 i.val ++ leBytes 4 d ++ leBytes 1 a.cls)
  else s2

/-- Evaluates one indicator at a daily close (R336). -/
def evaluateAge (i : Fin 16) (s : State) : State :=
  match trendSlot i.val with
  | some j =>
    let ys := match trendToday s i.val with
      | some v => ((nowSec s / 86400, v) :: s.sp.trends[j]).take 365
      | none => s.sp.trends[j]
    let s1 := { s with sp := { s.sp with trends := s.sp.trends.set j.val ys j.isLt } }
    match trendRec s1 i.val ys with
    | some a => storeAge i a s1
    | none => s1
  | none =>
    let j := countSlot i.val
    let ys := (countValue s i.val :: s.sp.counts[j]).take 365
    storeAge i (countRec s i.val ys) { s with sp := { s.sp with counts := s.sp.counts.set j.val ys j.isLt } }

/-- The ageing evaluation of a daily close; the day's means start again (R336). -/
def evaluateAges (s : State) : State :=
  let s1 := (List.finRange 16).foldl (fun t i => evaluateAge i t) s
  { s1 with sp := { s1.sp with refDay := (0, 0) }
            runs := s1.runs.map fun t => t.modPilot fun p => { p with day := ((0, 0), (0, 0)) } }

/-- exp(num ÷ den) × 10¹⁸, by 24 terms at 1/64 of the argument and six squarings (R337; log 24). -/
def expScaled (num den : Int) : Int :=
  let one : Int := 10 ^ 18
  let y := (num * one).tdiv (64 * den)
  let r := (List.range 24).foldl (fun (acc : Int × Int) (k : Nat) =>
    let term := (acc.2 * y).tdiv (one * ((k : Int) + 1))
    (acc.1 + term, term)) (one, one)
  (List.range 6).foldl (fun z _ => (z * z).tdiv one) r.1

/-- Equivalent hours of one minute at a die temperature, 10⁻⁹ h (R337). -/
def thermalMinute (dieTenths : Int) : Nat :=
  let t := 10 * dieTenths + 27315
  let w := if t ≤ 0 then 0 else expScaled (7000000000 * (t - 31315)) (8617 * 31315 * t)
  (roundDiv w (60 * 10 ^ 9)).toNat

/-- THERMAL_ACCUMULATE: every state but COLD (R337). -/
def thermalAccumulate (dieTenths : Int) (s : State) : State :=
  if s.pw.ms = .cold then s
  else { s with sp := { s.sp with thermal := s.sp.thermal + thermalMinute dieTenths } }

/-- `do age.backup fitted` (R339); the fields that name the row are not repeated (log 19). -/
def bodyAgeBackup (rq : Req) (args : List String) : Body := fun s => do
  need (args = []) .badForm
  served s "do"
  need s.sp.test.isNone .taken
  needRole s rq.line .operate
  let s1 := { s with sp := { s.sp with charge := 0, backupFitted := nowSec s, counts := s.sp.counts.set 0 [] } }
  .ok (auditLine rq.line 0x0D 0 0xB013 (1000 * s.sp.backupFitted) (1000 * nowSec s) s1, ["ok do age.backup fitted"])

/-- THERMAL_ACCUMULATE (R337). -/
def execThermalAccumulate (dieTenths : Int) (s : State) : Host.Outcome State Fault Refusal :=
  .next (thermalAccumulate dieTenths s)
/-- DO_AGE_BACKUP_FITTED (R339). -/
def execDoAgeBackupFitted (rq : Req) (args : List String) (s : State) : Host.Outcome State Fault Refusal :=
  done (runLine rq "do" (bodyAgeBackup rq args) s)

end Sys2Proof.Machine
end

