-- ==== Sys2Proof/Machine/Records.lean ====
section
/-! DEFINITION. The ledger's interval records and closes (R20, R71, R76, R157, R160, R161, R228 ... R233, R239): the
quantity pass, keep-period blocks, INTERVAL_BOUNDARY, DAILY_CLOSE and KEEP_BACKLOG_WRITE. -/

namespace Sys2Proof.Machine

/-! ## Interval records -/

/-- Seconds of an interval. -/
def intSeconds (s : State) : Nat := 60 * s.lg.intLen

/-- The first aligned interval start after a time (R160). -/
def nextAligned (s : State) (t : Nat) : Nat := (t / intSeconds s + 1) * intSeconds s

/-- The record of the open interval of a run (R160, R228). -/
def openRecord (s : State) (r : Run) : IntRec :=
  let x := s.runs[r].qty.sums
  { run := r.val + 1, code := lengthCode s.lg.intLen
    short := decide (x.cT + x.cS + x.cU + x.cK + x.cX < intSeconds s), flags := x.flags, start := s.lg.intStart
    cT := x.cT, cS := x.cS, cU := x.cU, cK := x.cK, cX := x.cX, v := x.v, m := x.m, e := x.e, tally := x.tally }

/-- Flags of the day that a record sets (R231). -/
def recordFlags (r : IntRec) : BitVec 8 := dayFlagByte r.short r.cK r.cX

/-- Body of an ivl frame: the record and its tag (Table 12.2). -/
def ivlBody (bytes tag : List Byte) : String := bytesText (bytes ++ tag)

/-- Writes an interval record, its tag and a blank outcome entry, chains it, queues it, offers it and reconciles it
(R20, R227 ... R230, R262, R273). -/
def writeInterval (rec_ : IntRec) (s : State) : State :=
  let i := s.lg.chains[0].next
  let bytes := intBytes rec_
  let d := nextValue s 0 bytes
  let tag := d.take 8
  let s1 := writeChained s 0 d [(recOff 0 i, bytes), (tagOff i, tag), (outcomeOff i, [0xFF, 0, 0, 0, 0, 0, 0, 0])]
  let s2 := ledgerPacket s1 1 (bytes ++ tag)
  let s3 := { s2 with lg := { s2.lg with dayCount := s2.lg.dayCount + 1
                                         dayFlags := s2.lg.dayFlags ||| recordFlags rec_ } }
  ownPlaced i (offerRecord 0 (recOff 0 i) 5 (ivlBody bytes tag) s3)

/-! ## Closes -/

/-- A record of a day carries status bit [0], check-damaged (R231). -/
def dayDamaged (s : State) (day : Nat) : Bool :=
  (recordIndices s 0).any fun i =>
    let t := recordTime s 0 i
    decide (day ≤ t ∧ t < day + 86400) && decide ((fetch blankByte (goodCopy s) (outcomeOff i + 1)).toNat % 2 = 1)

/-- Mass and energy that the running totals of a run hold of later days than `day`: those of the open interval, of the
interval that the backlog leaves standing, and of the intervals priced before the backlog, where they start at or after
the day's end (R231). -/
def laterBlocks (s : State) (r : Run) (day : Nat) : Int × Int :=
  let q := s.runs[r].qty
  let late := fun (t : Nat) => decide (day + 86400 ≤ t)
  let xs := (if late s.lg.intStart then [q.sums] else [])
    ++ (match s.lg.back with | some t => if late t then [q.back] else [] | none => [])
    ++ s.lg.backlog.filterMap fun sp => if late sp.fromSec then sp.sums.map (·[r]) else none
  ((xs.map (·.m)).sum, (xs.map (·.e)).sum)

/-- The 80 bytes of the close of a day (Table 11.3); the totals leave out the blocks of later days (R231). -/
def closeBytes (s : State) (day : Nat) : List Byte :=
  let short : Bool := decide (s.lg.dayCount < 4 * 1440 / s.lg.intLen)
  let flags := s.lg.dayFlags.toNat ||| (if short then 1 else 0) ||| (if dayDamaged s day then 8 else 0)
    ||| (if s.lg.replaced then 16 else 0)
  let totals := allRuns.flatMap fun r =>
    let q := s.runs[r].qty
    let later := laterBlocks s r day
    leInt 8 (q.totalM - later.1) ++ leInt 8 (q.totalE - later.2)
  ([0x02] : List Byte) ++ leBytes 1 (pnat s 0x8100) ++ leBytes 1 flags ++ ([0] : List Byte) ++ leBytes 4 day
    ++ leBytes 4 (s.lg.chains[1].written + 1) ++ leBytes 2 s.lg.dayCount ++ ([0, 0] : List Byte) ++ totals

/-- Body of a csig frame (Table 12.2). -/
def csigBody (number : Nat) (c sig : List Byte) : String := spaced [natText number, bytesText c, bytesText sig]

/-- Slot of a close number, and number of a slot's close. -/
def closeNumber (s : State) (i : Nat) : Nat := fromLe (fetchAll blankByte (goodCopy s) (recOff 1 i + 8) 4)

/-- The close before the last is still signed by this end alone (R282). -/
def noteUnsigned (s : State) : State :=
  let i := (s.lg.chains[1].next + areaSize 1 - 1) % areaSize 1
  if !single_ s && decide (0 < s.lg.chains[1].written) && fetch blankByte (goodCopy s) (recOff 1 i + 312) = 1 then
    noteAll ("settle unsigned " ++ natText (closeNumber s i)) s
  else s

/-- Partner closes that wait for records are declined with `count` (R263). -/
def declineWaiting (s : State) : State :=
  s.pair.waiting.foldl (fun t w => offer 3 (natText w.number ++ " count") t)
    (s.modPair fun p => { p with waiting := [] })

/-- Writes and signs the close of the day that is due (R231 ... R233), and offers it (R263). -/
def closeDay (s0 : State) : State :=
  match s0.lg.day with
  | none => s0
  | some day =>
    let s := noteUnsigned s0
    let i := s.lg.chains[1].next
    let rec_ := closeBytes s day
    let content := rec_ ++ headOf s 0 ++ headOf s 2 ++ headOf s 3
    let d := nextValue s 1 content
    let sig := fit 64 0 (Config.edSign s.ident.key (closeMessage d))
    let slot := content ++ d.take 8 ++ sig ++ List.replicate 64 0xFF ++ [0x01, 0xFF, 0x00, 0x00]
      ++ List.replicate 4 0xFF
    let number := s.lg.chains[1].written + 1
    let s1 := ledgerPacket (writeChained s 1 d [(recOff 1 i, slot)]) 2 slot
    let s2 := { s1 with lg := { s1.lg with day := some (day + 86400), dayCount := 0, dayFlags := 0, replaced := false } }
    offer 7 (csigBody number d sig) (offerRecord 0 (recOff 1 i) 6 (bytesText rec_) s2)

/-- Closes every day that has ended by a time, the skipped ones too (R231), by fuel in days. -/
def closeDays : Nat → Nat → State → State
  | 0, _, s => s
  | n + 1, t, s =>
    match s.lg.day with
    | some day => if day + 86400 ≤ t then closeDays n t (closeDay s) else s
    | none => s

/-- Days that have ended by a time. -/
def daysDue (s : State) (t : Nat) : Nat :=
  match s.lg.day with
  | some day => (t - day) / 86400
  | none => 0

/-- The days that ended before the open interval are closed ahead of its records (R231); then the four records are
written, and the next interval starts at `start` (R160). -/
def closeOpen (start : Nat) (s0 : State) : State :=
  let s := if s0.ck.valid then closeDays (daysDue s0 s0.lg.intStart) s0.lg.intStart s0 else s0
  let s1 := allRuns.foldl (fun t r => writeInterval (openRecord s r) t) s
  { s1 with runs := s1.runs.map fun t => t.modQty fun q => { q with sums := .zero }
            lg := { s1.lg with intStart := start } }

/-! ## Keep-period blocks -/

/-- The pricing sets that price this KEEP: the stop record's after a commanded STOP, else the power-fail record's
(R71). -/
def keepPricing (s : State) : Vector (Option Pricing) 4 :=
  match (if s.pw.byCommand then s.lg.stopRec else s.lg.powerFail) with
  | some p => p.pricing
  | none => Vector.replicate 4 none

/-- The span between two latches: counts modulo 2³² (R61, R157). -/
def latchSpan (p : Vector (Option Pricing) 4) (a b : KeepLatch) : KeepSpan :=
  { fromSec := a.time, toSec := b.time, pricing := p, unknown := false, fresh := a.stepped, gone := 0, sums := none
    counts := Vector.ofFn fun (r : Fin 4) => (b.tallies[r] - a.tallies[r]).toNat }

/-- The spans between consecutive latches; a step of the clock lies in none (R76). -/
def latchSpans (p : Vector (Option Pricing) 4) : List KeepLatch → List KeepSpan
  | a :: b :: r => if b.stepped then latchSpans p (b :: r) else latchSpan p a b :: latchSpans p (b :: r)
  | _ => []

/-- A span of unknown counts (R239, R77). -/
def unknownSpan (a b : Nat) : KeepSpan :=
  { fromSec := a, toSec := b, counts := Vector.replicate 4 0, pricing := Vector.replicate 4 none, unknown := true
    fresh := false, gone := 0, sums := none }

/-- Sum of the shares `a … c − 1` of a quantity spread over b blocks (R157). -/
def shareSum (total : Int) (b a c : Nat) : Int :=
  let rem := (total.fmod b).toNat
  total.fdiv b * ((c - a : Nat) : Int) + ((min c rem - min a rem : Nat) : Int)

/-- Adds blocks `a … c − 1` of a span to a run's open interval and totals (R157, R158, R162). -/
def spanShare (s : State) (sp : KeepSpan) (r : Run) (a c : Nat) (q : QtyRun) : QtyRun :=
  let b := sp.toSec - sp.fromSec
  let n := sp.counts[r]
  let x := q.sums
  match (if sp.unknown then none else sp.pricing[r]) with
  | some set =>
    let w := spanWorth s r set n b
    let v := shareSum w.v b a c
    let m := shareSum w.m b a c
    let e := shareSum w.e b a c
    { q with
      sums := { x with v := x.v + v, m := x.m + m, e := x.e + e, tally := x.tally + (shareSum n b a c).toNat
                       cK := x.cK + (c - a), flags := x.flags ||| w.flags }
      totalV := q.totalV + v, totalM := q.totalM + m, totalE := q.totalE + e }
  | none =>
    let k := if sp.unknown then 0 else (shareSum n b a c).toNat
    { q with sums := { x with tally := x.tally + k, cX := x.cX + (c - a) } }

/-- The blocks of a span, interval by interval: at each aligned boundary the four records are written, and at midnight
the day is closed (R71, R231). By fuel in intervals. -/
def spanBlocks : Nat → KeepSpan → Nat → State → State
  | 0, _, _, s => s
  | n + 1, sp, t, s =>
    if sp.toSec ≤ t then s
    else
      let nb := nextAligned s t
      let stop := min nb sp.toSec
      let a := t - sp.fromSec
      let c := stop - sp.fromSec
      let s1 := { s with runs := Vector.ofFn fun (r : Fin 4) => s.runs[r].modQty (spanShare s sp r a c) }
      let s2 := if stop = nb then
          let t1 := closeOpen nb s1
          if nb % 86400 = 0 then closeDays (daysDue t1 nb) nb t1 else t1
        else s1
      spanBlocks n sp stop s2

/-- Some run holds blocks in the open interval. -/
def intervalHeld (s : State) : Bool :=
  allRuns.any fun r => let x := s.runs[r].qty.sums; decide (0 < x.cT + x.cS + x.cU + x.cK + x.cX)

/-- Two intervals' sums put together (R160). -/
def Sums.plus (a b : Sums) : Sums :=
  { v := a.v + b.v, m := a.m + b.m, e := a.e + b.e, tally := a.tally + b.tally, cT := a.cT + b.cT, cS := a.cS + b.cS
    cU := a.cU + b.cU, cK := a.cK + b.cK, cX := a.cX + b.cX, flags := a.flags ||| b.flags }

/-- Adds sums to the open interval. -/
def State.addSums (s : State) (x : Vector Sums 4) : State :=
  let runs := Vector.ofFn fun (r : Fin 4) => s.runs[r].modQty fun q => { q with sums := q.sums.plus x[r] }
  { s with runs := runs }

/-- Adds the sums of an interval priced before the backlog; one that came to its end is recorded (R71). -/
def writeSums (x : Vector Sums 4) (sp : KeepSpan) (s : State) : State :=
  let s1 := s.addSums x
  if sp.fromSec < sp.toSec then closeOpen sp.toSec s1 else s1

/-- Writes one span into the open interval (R71); one that begins at a stepped time closes that interval short (R76) and
the days that the step skips (R231). -/
def writeSpan (sp : KeepSpan) (s : State) : State :=
  match sp.sums with
  | some x => writeSums x sp s
  | none =>
    let s1 := if sp.fresh ∧ sp.gone = 0 then
        let t := if intervalHeld s then closeOpen sp.fromSec s else { s with lg := { s.lg with intStart := sp.fromSec } }
        closeDays (daysDue t sp.fromSec) sp.fromSec t
      else s
    spanBlocks ((sp.toSec - sp.fromSec) / intSeconds s + 2) sp (sp.fromSec + sp.gone) s1

/-- A quantity note: run, mass in 7 bytes and energy in 8 (Table 11.6). -/
def quantityNote (code : Nat) (r : Run) (m e : Int) (s : State) : State :=
  moduleNote s code (leBytes 1 (r.val + 1) ++ leInt 7 m ++ leInt 8 e)

/-! ### Beyond the interval retention -/

/-- Intervals that end by this time lie beyond the interval retention (R71). -/
def oldCut (s : State) : Nat := (nowSec s - retentionSeconds s) / intSeconds s * intSeconds s

/-- Adds the blocks of a span up to `stop` to the open interval without recording one; days that end are closed (R71,
R231). By fuel in days. -/
def oldBlocks : Nat → KeepSpan → Nat → Nat → State → State
  | 0, _, _, _, s => s
  | n + 1, sp, stop, t, s =>
    if stop ≤ t then s
    else
      let midnight := (t / 86400 + 1) * 86400
      let u := min midnight stop
      let runs := Vector.ofFn fun (r : Fin 4) => s.runs[r].modQty (spanShare s sp r (t - sp.fromSec) (u - sp.fromSec))
      let s1 := { s with runs := runs }
      let s2 := if u = midnight then closeDays (daysDue s1 u) u s1 else s1
      oldBlocks n sp stop u s2

/-- One span's part before `cut`, gathered in the open interval. -/
def gatherOld (cut : Nat) (s : State) (sp : KeepSpan) : State :=
  match sp.sums with
  | some x => s.addSums x
  | none => oldBlocks ((sp.toSec - sp.fromSec) / 86400 + 2) sp (min cut sp.toSec) (sp.fromSec + sp.gone) s

/-- The part of a span that `cut` leaves. -/
def leftOf (cut : Nat) (sp : KeepSpan) : Option KeepSpan :=
  if sp.sums.isNone ∧ cut < sp.toSec then some { sp with gone := cut - sp.fromSec } else none

/-- Everything of the backlog beyond retention, with what the interval it begins in held, as one note per run (R71); the
interval that follows starts at the cut. -/
def writeOld (olds : List KeepSpan) (s : State) : State :=
  let cut := oldCut s
  let s1 := olds.foldl (gatherOld cut) s
  let s2 := allRuns.foldl (fun t r => quantityNote 0x05 r s1.runs[r].qty.sums.m s1.runs[r].qty.sums.e t) s1
  { s2 with
    runs := s2.runs.map fun t => t.modQty fun q => { q with sums := .zero }
    lg := { s2.lg with intStart := max cut s2.lg.intStart, backlog := olds.filterMap (leftOf cut) ++ s2.lg.backlog } }

/-! ### The backlog -/

/-- Exchanges the open interval with the one that the backlog fills. -/
def swapBack (s : State) : State :=
  { s with
    runs := s.runs.map fun t => t.modQty fun q => { q with sums := q.back, back := q.sums }
    lg := { s.lg with intStart := s.lg.back.getD s.lg.intStart, back := some s.lg.intStart } }

/-- At the end of the backlog, the interval that it leaves standing and the open one are one (R71). -/
def joinBack (s : State) : State :=
  match s.lg.back, s.lg.backlog with
  | some start, [] =>
    let held : Bool := allRuns.any fun r => let x := s.runs[r].qty.back; decide (0 < x.cT + x.cS + x.cU + x.cK + x.cX)
    { s with
      runs := s.runs.map fun t => t.modQty fun q => { q with sums := q.sums.plus q.back, back := .zero }
      lg := { s.lg with back := none, intStart := if held then start else s.lg.intStart } }
  | _, _ => s

/-- Takes the oldest spans of the backlog into the open interval: those beyond retention together, else one (R71). -/
def takeSpans (s : State) : State :=
  let olds := s.lg.backlog.takeWhile fun sp => decide (sp.fromSec + sp.gone < oldCut s)
  if olds ≠ [] then writeOld olds { s with lg := { s.lg with backlog := s.lg.backlog.drop olds.length } }
  else match s.lg.backlog with
    | [] => s
    | sp :: rest => writeSpan sp { s with lg := { s.lg with backlog := rest } }

/-- Writes the oldest of the backlog; the open interval waits behind it (R71). -/
def backlogStep (s : State) : State :=
  if s.lg.backlog = [] then s else joinBack (swapBack (takeSpans (swapBack s)))

/-- Writes the whole backlog (R71): interval records that fall due are chained behind it. -/
def drainBacklog (s : State) : State :=
  (List.range (s.lg.backlog.length + 1)).foldl (fun t _ => backlogStep t) s

/-- Spans join the backlog behind what is already priced of the open interval, which begins anew at the last span's
interval (R71). `done` is the end of an open interval that came to its end and is not recorded yet. -/
def pushBacklog (done_ : Option Nat) (spans : List KeepSpan) (s : State) : State :=
  let item : KeepSpan := { fromSec := s.lg.intStart, toSec := done_.getD s.lg.intStart, counts := Vector.replicate 4 0
                           pricing := Vector.replicate 4 none, unknown := false, fresh := false, gone := 0
                           sums := some (s.runs.map (·.qty.sums)) }
  if done_ = none ∧ spans = [] then s
  else { s with
    runs := s.runs.map fun t => t.modQty fun q => { q with sums := .zero }
    lg := { s.lg with
      backlog := s.lg.backlog ++ item :: spans
      back := s.lg.back.orElse fun _ => some s.lg.intStart
      intStart := match spans.getLast? with
        | some sp => sp.toSec / intSeconds s * intSeconds s
        | none => done_.getD s.lg.intStart } }

/-- Closes the open interval behind the backlog; the next one starts at `start` (R71, R160). -/
def closeInterval (start : Nat) (s : State) : State := closeOpen start (drainBacklog s)

/-- KEEP_BACKLOG_WRITE: in RUN, with a valid clock, oldest first (R71, R77). -/
def keepBacklogWrite (s : State) : State :=
  if s.pw.ms = .run ∧ s.ck.valid then backlogStep s else s

/-! ## The quantity pass and the boundaries -/

/-- Prices one block; one at or after the end of the open interval closes that interval first (R143, R160), or leaves its
records to the backlog where the fast domain is about to stop (R68). -/
def pricedIn (stops : Bool) (s : State) (b : ClosedBlock) : State :=
  let start := b.start / intSeconds s * intSeconds s
  let s1 := if s.ck.valid ∧ !b.unset ∧ nextAligned s s.lg.intStart ≤ b.start then
      (if stops then pushBacklog (some start) [] s else closeInterval start s) else s
  priceBlock b s1

/-- Prices the closed blocks, oldest first. -/
def priceClosed (stops : Bool) (s : State) : State :=
  refreshOutputs (s.lg.closed.foldl (pricedIn stops) { s with lg := { s.lg with closed := [] } })

/-- The quantity pass: the closed blocks, oldest first (R143). -/
def quantityPass (s : State) : State := flushURuns (priceClosed false s)

/-- The quantity pass of a domain about to stop: it begins no record write (R68), and the notes of U runs that end in it
wait for the next pass. -/
def lastPass (s : State) : State := priceClosed true s

/-- BLOCK_BOUNDARY: a full ring is priced at once, since the ring holds 64 seconds and every block is priced (R143, R157,
log 78). -/
def blockTick (s : State) : State :=
  let t := blockBoundary s
  if 64 ≤ t.lg.closed.length ∧ fastFree t then quantityPass t else t

/-- A boundary of class B or S has come: the blocks before it are latched and priced as they were measured (R47, R145). -/
def priceBefore (ready : List DueSet) (s : State) : State :=
  if (ready.any fun d => d.cls = .b || d.cls = .s) && fastFree s then quantityPass (blockBoundary s) else s

/-- The cadence that sets of class B or S ask for takes effect at their block boundary (R65). -/
def cadenceAfter (ready : List DueSet) (s : State) : State :=
  if ready.any fun d => d.cls = .b || d.cls = .s then { s with pw := { s.pw with cad := cadence s } } else s

/-- COMMIT_APPLY (R47): every set whose boundary has come, oldest first. -/
def commitApply (s : State) : State :=
  let ready := s.cm.due.filter fun d => d.at_ ≤ s.ck.mono
  let rest := s.cm.due.filter fun d => s.ck.mono < d.at_
  let s1 := priceBefore ready s
  cadenceAfter ready (ready.foldl (fun t d => applyDue d t) { s1 with cm := { s1.cm with due := rest } })

/-- The time goes into ferroelectric memory at every interval boundary (R73). -/
def storeTime (s : State) : State := { s with ck := { s.ck with stored := nowMs s } }

/-- The pricing sets, the running totals and the settlement totals go into ferroelectric memory (R155, R162, R277). -/
def keepSets (s : State) : State :=
  { s with
    runs := s.runs.map fun t => t.modQty fun q => { q with
      kept := q.pricing, keptTotals := (q.totalV, q.totalM, q.totalE) }
    se := { s.se with runs := s.se.runs.map fun x => { x with kept := (x.totalM, x.totalE, x.lossM, x.lossE) } } }

/-- The end of the open interval has come: the blocks up to it are latched, priced and recorded (R20). -/
def intervalRecords (s : State) : State :=
  let b := nowSec s / intSeconds s * intSeconds s
  let s1 := priceClosed false (blockBoundary s)
  if s1.ck.valid ∧ s1.lg.intStart < b then closeInterval b s1 else s1

/-- What follows the records and closes of an interval's end: the ring notes (R227), and what is kept of the time, the
pricing sets and the totals (R73, R155, R162). -/
def afterRecords (s : State) : State := keepSets (storeTime (flushURuns s))

/-- The end of an interval. -/
def intervalEnd (s : State) : State := afterRecords (intervalRecords s)

/-- INTERVAL_BOUNDARY: records in the powered states, the keep record in KEEP (R20, R69, R73). While NRST holds the fast
domain none is written (R25); the first pass after it closes the interval. -/
def intervalBoundary (s : State) : State :=
  let b := nowSec s / intSeconds s * intSeconds s
  if s.pw.ms = .cold then s
  else if s.pw.ms = .keep then
    if (s.lg.keeps.getLast?.map (·.time)).getD s.pw.keepAt < b then storeTime (keepRecord false (blockBoundary s)) else s
  else if s.lg.intStart < b ∧ s.pw.nrst = false then intervalEnd s else s

/-- DAILY_CLOSE: the close of every day that has ended, then ageing, ALONE by the wait and the declines that wait
(R231, R263, R273, R282, R336). -/
def dailyClose (s : State) : State :=
  if fastFree s ∧ s.ck.valid ∧ 0 < daysDue s (nowSec s) then
    let midnight := nowSec s / 86400 * 86400
    let ends : Bool := s.lg.intStart < midnight
    let s1 := if ends then intervalRecords s else drainBacklog (priceClosed false s)
    let s2 := closeDays (daysDue s1 midnight) midnight s1
    declineWaiting (aloneByWait (evaluateAges (if ends then afterRecords s2 else flushURuns s2)))
  else s

/-- BLOCK_BOUNDARY (R61, R65, R143, R289). -/
def execBlockBoundary (s : State) : Host.Outcome State Fault Refusal := done (blockTick s)
/-- INTERVAL_BOUNDARY (R20, R160). -/
def execIntervalBoundary (s : State) : Host.Outcome State Fault Refusal := done (intervalBoundary s)
/-- DAILY_CLOSE (R231). -/
def execDailyClose (s : State) : Host.Outcome State Fault Refusal := done (dailyClose s)
/-- COMMIT_APPLY (R47). -/
def execCommitApply (s : State) : Host.Outcome State Fault Refusal := done (commitApply s)
/-- KEEP_BACKLOG_WRITE (R71). -/
def execKeepBacklogWrite (s : State) : Host.Outcome State Fault Refusal := done (keepBacklogWrite s)

end Sys2Proof.Machine
end

