-- ==== Sys2Proof/Machine/Time.lean ====
section
/-! DEFINITION. The real-time clock (R72 ... R77): TIME, TIME_SET, CLOCK_TRIM, CLOCK_STEP, SLEW_COMPLETE, and what a
millisecond without a command does (log 2). -/

namespace Sys2Proof.Machine

/-- One second in units of 0.1 ns. -/
def secUnits : Nat := 10000000000
/-- One millisecond in units of 0.1 ns. -/
def msUnits : Nat := 10000000

/-- The audit record of a clock step or slew: times in ms (R75, R76, R237). -/
def auditClock (line role : Nat) (old new : Nat) (s : State) : State := audit 0x0B line role 0 0 old new s

/-- Starts a slew, which replaces what remains of an older one (R74). -/
def startSlew (line role : Nat) (d : Int) (s : State) : State :=
  let s1 := { s with ck := { s.ck with slew := d, due := none } }
  auditClock line role (nowMs s) ((s.ck.t + d).toNat / msUnits) s1

/-- Monotonic ms of the next whole second of a clock that stands at `t` (R47). -/
def secondAfter (mono t : Nat) : Nat := mono + (1000 - t / msUnits % 1000)

/-- Sets of class B and S that wait for a whole second wait for that of the stepped clock (R47, R75). -/
def moveDue (t : Nat) (s : State) : List DueSet :=
  s.cm.due.map fun d =>
    if (d.cls = .b ∨ d.cls = .s) ∧ s.ck.mono < d.at_ then { d with at_ := secondAfter s.ck.mono t } else d

/-- Puts the clock at a time: a step ends every slew and every step still due (R74, R75); the present block goes on
(R61), and the sets that are due follow the clock. -/
def putClock (t : Nat) (s : State) : State :=
  { s with ck := { s.ck with t := t, slew := 0, due := none }
           cm := { s.cm with due := moveDue t s }
           lg := { s.lg with latchAt := s.lg.latchAt.map fun _ => t / secUnits } }

/-- Ends the X gap that waits at the end of the backlog: it runs to the start of the unset time (R77). -/
def closeGap (toSec : Nat) : List KeepSpan → List KeepSpan
  | [] => []
  | [x] => if x.unknown && x.toSec = x.fromSec then [{ x with toSec := toSec }] else [x]
  | x :: xs => x :: closeGap toSec xs

/-- The entries of the transitions out of COLD that wait for a valid clock (R23). -/
def writeFromCold (s : State) : State :=
  s.ck.fromCold.foldl (fun t q => audit 0x07 0 0 q.2 q.1 0 0 t) { s with ck := { s.ck with fromCold := [] } }

/-- The clock becomes set (R77): the gap as X intervals, the notes of the unset time, and the first interval from the
set time. The records are written in the order of R227. -/
def becomeSet (t : Nat) (s : State) : State :=
  let now := t / secUnits
  let dur := (s.ck.mono - s.ck.unsetAt) / 1000
  let s1 := putClock t (priceClosed false s)
  let s2 := drainBacklog { s1 with
    ck := { s1.ck with valid := true, partUnset := true }
    lg := { s1.lg with backlog := closeGap (now - dur) s1.lg.backlog
                       day := some (s1.lg.day.getD (now - now % 86400)) } }
  let s3 := if intervalHeld s2 then closeInterval now s2 else { s2 with lg := { s2.lg with intStart := now } }
  let s4 := moduleNote (flushURuns s3) 0x22 (leBytes 4 dur)
  let s5 := allRuns.foldl (fun u r => quantityNote 0x04 r s4.runs[r].qty.unset.1 s4.runs[r].qty.unset.2 u) s4
  let s6 := writeFromCold { s5 with runs := s5.runs.map fun x => x.modQty fun q => { q with unset := (0, 0) } }
  if s6.pw.ms = .keep then
    { s6 with lg := { s6.lg with keeps := [⟨now, s6.runs.map (·.latched), false⟩] } }
  else s6

/-- A step in KEEP: the keep-period blocks end at the old time and go on at the new one (R71, R76). -/
def stepKeeps (old new : Nat) (s : State) : State :=
  let k := fun (t : Nat) (b : Bool) => KeepLatch.mk t (s.runs.map (·.latched)) b
  { s with lg := { s.lg with keeps := s.lg.keeps ++ [k old false, k new true] } }

/-- A forward step at its second: the open interval is closed short, and the next one opens at the stepped time (R75,
R76). While NRST holds the ledger writer, the step waits for its release (log 82). -/
def clockStep (s : State) : State :=
  match s.ck.due with
  | none => s
  | some (sec, d, rem) =>
    if nowSec s < sec ∨ s.pw.nrst = true then s
    else
      let s1 := if s.pw.ms = .keep then blockBoundary s
        else if nowSec s % intSeconds s = 0 then keepSets (storeTime (intervalRecords s))
        else priceClosed false (blockBoundary s)
      let new := s1.ck.t + d * secUnits
      let now := new / secUnits
      let s2 := putClock new s1
      let s3 := if s2.pw.ms = .keep then stepKeeps (nowSec s1) now s2
        else if s2.ck.valid ∧ s2.lg.intStart < nowSec s1 ∧ intervalHeld s2 then closeInterval now s2
        else { s2 with lg := { s2.lg with intStart := if s2.ck.valid then now else s2.lg.intStart } }
      let s4 := flushURuns s3
      auditClock s.ck.dueBy.1 s.ck.dueBy.2 (nowMs s) (nowMs s4)
        { s4 with ck := { s4.ck with slew := rem } }

/-- Keep-period blocks before a backward step, and those of a backlog, stay in the running totals and in the open
interval's sums alone (R76). -/
def foldKeeps (s : State) : State :=
  let k : KeepLatch := ⟨s.lg.latchAt.getD (nowSec s), s.runs.map (·.latched), false⟩
  let spans := s.lg.backlog ++ if s.pw.ms = .keep then latchSpans (keepPricing s) (s.lg.keeps ++ [k]) else []
  let into := fun (r : Fin 4) (q : QtyRun) (sp : KeepSpan) => match sp.sums with
    | some x => { q with sums := q.sums.plus x[r] }
    | none => spanShare s sp r sp.gone (sp.toSec - sp.fromSec) q
  let runs := Vector.ofFn fun (r : Fin 4) => s.runs[r].modQty fun q =>
    spans.foldl (into r) { q with sums := q.sums.plus q.back, back := .zero }
  { s with runs := runs, lg := { s.lg with backlog := [], back := none
                                           keeps := if s.pw.ms = .keep then [] else s.lg.keeps } }

/-- A backward step taken at once, with no interval record in the ledger (R75, R76). -/
def stepBack (line role t : Nat) (s : State) : State :=
  let now := t / secUnits
  let s1 := foldKeeps (if s.pw.ms = .keep then blockBoundary s else quantityPass (blockBoundary s))
  let s2 := allRuns.foldl (fun u r => quantityNote 0x23 r s1.runs[r].qty.sums.m s1.runs[r].qty.sums.e u) s1
  let s3 := putClock t s2
  auditClock line role (nowMs s) (t / msUnits)
    { s3 with
      runs := s3.runs.map fun x => x.modQty fun q => { q with sums := .zero }
      lg := { s3.lg with intStart := now
                         keeps := if s3.pw.ms = .keep then [⟨now, s3.runs.map (·.latched), false⟩] else s3.lg.keeps
                         day := if s3.lg.chains[1].written = 0 then some (now - now % 86400) else s3.lg.day } }

/-- Times of `time set` in ms: 2020-01-01T00:00:00Z … 2099-12-31T23:59:59Z (R75). -/
def clampTime (t : Int) : Nat := (clampInt 0 ((daysFromCivil 2100 1 1 * 86400 - 1) * 1000) t).toNat

/-- `time set` T in ms (R75): the state, the applied time, and `step` or `slew`. -/
def setTime (line role : Nat) (t : Nat) (s : State) : State × Nat × String :=
  let d : Int := ((t * msUnits : Nat) : Int) - s.ck.t
  let s0 := { s with ck := { s.ck with due := none } }
  if s.ck.valid = false then
    (auditClock line role (nowMs s) t (becomeSet (t * msUnits) s0), t, "step")
  else if d.natAbs ≤ secUnits then (startSlew line role d s0, t, "slew")
  else if 0 < d then
    let whole := (roundDiv d secUnits).toNat
    let rem := d - (whole * secUnits : Nat)
    ({ s0 with ck := { s0.ck with due := some (nowSec s + 1, whole, rem), dueBy := (line, role) } }, t, "step")
  else if recordCount s 0 = 0 then (stepBack line role (t * msUnits) s0, t, "step")
  else
    let s1 := { s0 with ck := { s0.ck with slew := - (secUnits : Int) } }
    (auditClock line role t (nowMs s - 1000) s1, nowMs s - 1000, "slew")

def bodyTime (_rq : Req) (args : List String) : Body := fun s => do
  need (args = []) .badForm
  served s "time"
  .ok (s, ["ok time " ++ msText (nowMs s)])

/-- `time set` T; the field is T (log 19). -/
def bodyTimeSet (rq : Req) (args : List String) : Body := fun s => do
  match args with
  | [t] =>
    let ms ← timeField t
    served s "time"
    need (!(s.pair.st = .opened && s.pair.up = some false)) .taken
    needRole s rq.line .metrology
    let r := setTime (lineCode rq.line) (roleCode (s.line rq.line).role) (clampTime ms) s
    .ok (r.1, [spaced ["ok time", msText r.2.1, r.2.2]])
  | _ => .error .badForm

/-- CLOCK_TRIM: what the crystal loses at −0.034 ppm/°C² from 25 °C, with the factory offset, in ppb (R72). -/
def clockTrim (dieTenths : Int) (s : State) : State :=
  if s.pw.ms = .cold then s
  else
    let corr := roundDiv (34 * (dieTenths - 250) * (dieTenths - 250)) 100 + Config.crystalOffset
    { s with ck := { s.ck with temp := some dieTenths, correction := corr } }

/-- Rate correction in ppb: the crystal's, and `clock.trim.user`, positive to run faster (R72). -/
def clockRate (s : State) : Int := s.ck.correction + 100 * pget s 0x300

/-- Units of 1/320 ns that the correction of one second, with what is left of those before, comes to; and the 0.1 ns that
it moves the clock by, in whole cycles of 32.768 kHz, 9765625/32 units each (R72). The part below a cycle, and that below
0.1 ns, is kept. -/
def trimStep (s : State) : Int × Int :=
  let due := s.ck.residue + 320 * clockRate s
  let moved := (due.tdiv 9765625 * 9765625).tdiv 32
  (due - 32 * moved, moved)

/-- SLEW_COMPLETE: the last millisecond's part of a slew is worked off (R74). -/
def slewComplete (s : State) : State :=
  if s.ck.slew.natAbs ≤ 500 then { s with ck := { s.ck with t := (s.ck.t + s.ck.slew).toNat, slew := 0 } } else s

/-- The clock after one millisecond: it works off up to 50 ppm of a slew, and once per second its correction is applied
in crystal cycles (R72, R74); it stands in COLD. -/
def clockAfter (s : State) : Clock :=
  let mono := s.ck.mono + 1
  let aw := if awake s then s.ck.awake + 1 else s.ck.awake
  if s.pw.ms = .cold then { s.ck with mono := mono, awake := aw }
  else
    let part := clampInt (-500) 500 s.ck.slew
    let trim := if mono % 1000 = 0 then trimStep s else (s.ck.residue, 0)
    { s.ck with mono := mono, awake := aw, t := ((s.ck.t + msUnits : Nat) + trim.2 + part).toNat
                slew := s.ck.slew - part, residue := trim.1 }

/-- The quantity stage's pass at a wake, while the fast domain is awake and blocks wait (R143). -/
def wakePass (s : State) : State :=
  if awake s ∧ fastFree s ∧ s.lg.closed ≠ [] then quantityPass s else s

/-- At the end of the guard the holder of the turn sends what may leave, or returns the turn (R260). -/
def turnDue (s : State) : State :=
  if talking s ∧ halfDuplex s ∧ s.pair.turn ∧ s.pair.turnFrom = s.ck.mono then flushPair s else s

/-- One millisecond without a command (log 2): the clock goes on, an awake fast domain prices the blocks that wait
(R143), the turn of a half-duplex partner line comes into force (R260), the completion ring is freed (R217), and `change`
watches report (R54). -/
def idleTick (s : State) : State :=
  flushNotes (changeWatches .service (changeWatches .host (freeRing (turnDue (wakePass { s with ck := clockAfter s })))))

/-- TIME (R41, R75). -/
def execTime (rq : Req) (args : List String) (s : State) : Host.Outcome State Fault Refusal :=
  done (runLine rq "time" (bodyTime rq args) s)
/-- TIME_SET (R75). -/
def execTimeSet (rq : Req) (args : List String) (s : State) : Host.Outcome State Fault Refusal :=
  done (runLine rq "time" (bodyTimeSet rq args) s)
/-- CLOCK_TRIM (R72). -/
def execClockTrim (dieTenths : Int) (s : State) : Host.Outcome State Fault Refusal := .next (clockTrim dieTenths s)
/-- CLOCK_STEP (R75, R76). -/
def execClockStep (s : State) : Host.Outcome State Fault Refusal := done (clockStep s)
/-- SLEW_COMPLETE (R74). -/
def execSlewComplete (s : State) : Host.Outcome State Fault Refusal := .next (slewComplete s)

end Sys2Proof.Machine
end

