-- ==== Sys2Proof/Machine/Partner.lean ====
section
/-! DEFINITION. The tally conversation as received (R248 ... R269, R285): opening, sequenced frames, naks, closes and
co-signatures, the clock exchange and the conversation's timers. -/

namespace Sys2Proof.Machine

/-- A frame with a valid check has been received (R259). -/
def heard (s : State) : State := wakeLine (s.modPair fun p => { p with rxAt := s.ck.mono })

/-- A frame of the open session: its ack field is taken (R246, R254). -/
def heardAck (h : FrameHead) (s : State) : State :=
  if s.pair.st = .opened then takeAck h.ack (heard s) else heard s

/-! ## Opening -/

/-- The want time: the oldest open outcome, or the open interval (R250). -/
def wantTime (s : State) : Nat :=
  match (recordIndices s 0).find? fun i => outcomeAt s i = 255 with
  | some i => recordTime s 0 i
  | none => s.lg.intStart

/-- Sends hello with a fresh nonce (R249, R251). -/
def sendHello (s : State) : State :=
  let n := fit 8 0 (Config.nonce s.pair.drawn)
  let s1 := s.modPair fun p => { p with
    nonce := n, drawn := p.drawn + 1, st := .opening, nextSeq := 1, expect := 1, accepted := false }
  sendPlain "hello" (spaced ["1", natText s.ident.serial, if pget s 0x8100 = 1 then "up" else "down",
    natText s.lg.intLen, msText (1000 * wantTime s), bytesText s.ident.key, bytesText n]) s1

/-- A proof's message (R249). -/
def proofMessage (peer own : List Byte) (serial : Nat) (up : Bool) : List Byte :=
  (0x03 : Byte) :: (peer ++ own ++ leBytes 8 serial ++ leBytes 1 (if up then 1 else 2))

/-- Sends prove over the partner's nonce. -/
def sendProve (up : Bool) (s : State) : State :=
  sendPlain "prove" (bytesText (fit 64 0 (Config.edSign s.ident.key
    (proofMessage s.pair.peerNonce s.pair.nonce s.ident.serial up)))) s

/-- The partner's proof verifies under the key it presented. -/
def proofOk (s : State) (partnerUp : Bool) (sig : List Byte) : Bool :=
  Config.edVerify s.pair.peerKey (proofMessage s.pair.nonce s.pair.peerNonce s.pair.serial partnerUp) sig

/-- Words and cause codes of a refusal (R252, Table 12.5). -/
def refuseWord : RefuseReason → String
  | .version => "version" | .key => "key" | .length => "length"
def refuseCause : RefuseReason → Nat
  | .key => 1 | .length => 2 | .version => 3

/-- This end refuses (R252). -/
def refusePair (r : RefuseReason) (key : List Byte) (serial : Nat) (s : State) : State :=
  let s1 := (sendPlain "refuse" (refuseWord r) s).modPair fun p => { p with
    st := .refused, step := 0, pause := if p.up = some true then s.ck.mono + 60000 else p.pause }
  moduleNote (noteAll (spaced ["pair refused", refuseWord r, fingerprintText key]) s1) 0x11
    (leBytes 1 (refuseCause r) ++ leBytes 8 serial)

/-- First reason for which a hello is refused (Table 12.3, R252). -/
def helloFault (s : State) (f : HelloFields) : Option RefuseReason :=
  if f.version ≠ 1 then some .version
  else if s.pair.fingerprint ≠ some (fingerprintText f.key) then some .key
  else if f.minutes ≠ s.lg.intLen then some .length
  else none

/-- Code of a session role. -/
def sideCode (up : Bool) : Nat := if up then 1 else 2

/-- Resolves the roles of a hello: this end's session role (R253); none between two downstream ends. -/
def resolve (s : State) (f : HelloFields) : Option Bool :=
  if pget s 0x8100 = 1 then (if f.up then some (decide (s.ident.serial < f.serial)) else some true)
  else if f.up then some false else none

/-- Both ends are upstream: the conflict is noted at the first hello that shows it (R253). -/
def noteConflict (f : HelloFields) (up : Bool) (s : State) : State :=
  if pget s 0x8100 = 1 ∧ f.up ∧ ¬ (s.pair.up = some up ∧ s.pair.serial = f.serial) then
    moduleNote (noteAll "pair conflict" s) 0x14 (leBytes 8 f.serial ++ leBytes 1 (sideCode up))
  else s

/-- HELLO (R251 ... R253, R259): none is answered in the stop sequence, where it only ends the session. -/
def helloIn (_h : FrameHead) (f : HelloFields) (s : State) : State :=
  if talking s then
    let s0 := heard (if s.pair.st = .opened then losePair 8 s else s)
    match (if talking s0 then resolve s0 f else none) with
    | none => s0
    | some up =>
      let s1 := (noteConflict f up s0).modPair fun p => { p with up := some up }
      match helloFault s1 f with
      | some r => refusePair r f.key f.serial s1
      | none =>
        let s2 := s1.modPair fun p => { p with
          serial := f.serial, peerKey := f.key, peerNonce := f.nonce, want := f.want / 1000, st := .opening }
        if up then
          if s2.pair.step = 1 then s2.modPair fun p => { p with step := 2 } else s2
        else (sendProve false (sendHello s2)).modPair fun p => { p with step := 3 }
  else s

/-- The ivl and close frames that a session opening offers, in ledger write order, each close behind the records of its
day (R250, R261 ... R263). -/
def openingOffers (s : State) : List (Bool × Nat) :=
  let ivls := (recordIndices s 0).filter fun i => s.pair.want ≤ recordTime s 0 i
  let closes := unsignedCloses s
  let step := fun (acc : List (Bool × Nat) × List Nat) (i : Nat) =>
    let before := acc.2.takeWhile fun c => recordTime s 1 c + 86400 ≤ recordTime s 0 i
    (acc.1 ++ before.map (fun c => (true, c)) ++ [(false, i)], acc.2.drop before.length)
  let r := ivls.foldl step ([], closes)
  r.1 ++ r.2.map fun c => (true, c)

/-- Offers one stored record or close; a record goes out only after it has passed its check (R262). G2 moves the sixteen
records among which it lies (R221). -/
def offerStored (s : State) (q : Bool × Nat) : State :=
  let k : Fin 4 := if q.1 then 1 else 0
  let s1 := checkRecord k q.2 s
  if (caseOf s1 k q.2).1 ≠ 1 then s1
  else if q.1 then
    let body := fetchAll blankByte (goodCopy s1) (recOff 1 q.2) 80
    let sig := fetchAll blankByte (goodCopy s1) (recOff 1 q.2 + 184) 64
    offer 7 (csigBody (closeNumber s1 q.2) (valueAt s1 1 q.2) sig) (offerRecord 0 (recOff 1 q.2) 6 (bytesText body) s1)
  else
    offerRecord 2 (recOff 0 (q.2 / 16 * 16)) 5 (ivlBody (contentAt (goodCopy s1) 0 q.2) (tagAt (goodCopy s1) 0 q.2)) s1

/-- The opening balance of a replacement (R285). -/
def openingBalance (s : State) : State :=
  let (number, totals) : Nat × List (Int × Int) := match s.pair.lastClose with
    | some w => (w.number, w.totals)
    | none => (0, allRuns.map fun r => (s.runs[r].qty.totalM, s.runs[r].qty.totalE))
  let s1 := allRuns.foldl (fun t r =>
    let q := totals.getD r.val (0, 0)
    let note := fun (code : Nat) (x : Int) (u : State) =>
      moduleNote u code (leBytes 1 (r.val + 1) ++ leBytes 4 number ++ leInt 8 x)
    note 0x18 q.2 (note 0x17 q.1 t)) s
  { s1 with lg := { s1.lg with replaced := true }, pair := { s1.pair with fresh := false, lastClose := none } }

/-- A key that PAIR has newly added enters the key table with the first close number under it (R225, R285). -/
def addKey (s : State) : State :=
  if s.lg.keys.any fun q => q.1 = s.pair.peerKey then s
  else
    let s1 := writeDir { s with lg := { s.lg with
      keys := (s.lg.keys ++ [(s.pair.peerKey, s.lg.chains[1].written + 1)]).take 16 } }
    openingBalance (audit 0x0E 3 0 0 0 0 (crc32c s.pair.peerKey).toNat s1)

/-- The session opens (R251, R254, R258, R260, R262, R263, R266). -/
def openPair (s : State) : State :=
  let up : Bool := s.pair.up = some true
  let s1 := s.modPair fun p => { clearWindow p with
    st := .opened, step := 4, rtt := none, rto := some (max 3000000 (rtoFloor s)), turn := halfDuplex s && up }
  let s2 := noteAll (spaced ["pair open", natText s.pair.serial, if up then "upstream" else "downstream"]) s1
  let s3 := addKey (moduleNote s2 0x10 (leBytes 8 s.pair.serial ++ leBytes 1 (sideCode up)))
  let s4 := if up then s3 else offer 0 "" s3
  (openingOffers s4).foldl offerStored s4

/-- PROVE (R249, R251, R252). -/
def proveIn (_h : FrameHead) (sig : List Byte) (s : State) : State :=
  if talking s ∧ s.pair.st = .opening then
    let s0 := heard s
    if s0.pair.up = some true ∧ s0.pair.step = 2 then
      if proofOk s0 false sig then (sendProve true s0).modPair fun p => { p with step := 3 }
      else refusePair .key s0.pair.peerKey s0.pair.serial s0
    else if s0.pair.up = some false ∧ s0.pair.step = 3 then
      if proofOk s0 true sig then openPair (sendPlain "ack" "" s0) else refusePair .key s0.pair.peerKey s0.pair.serial s0
    else s0
  else s

/-- REFUSE (R252). -/
def refuseIn (_h : FrameHead) (r : RefuseReason) (s : State) : State :=
  if talking s ∧ s.pair.st = .opening then
    let s1 := (heard s).modPair fun p => { p with
      st := .refused, step := 0, pause := if p.up ≠ some false then s.ck.mono + 60000 else p.pause }
    moduleNote s1 0x11 (leBytes 1 (refuseCause r) ++ leBytes 8 s1.pair.serial)
  else s

/-- ACK (R251, R254, R260): opens the upstream end, acknowledges, and in half-duplex passes the turn, which may be used
`pair.turn.guard` later. -/
def ackIn (h : FrameHead) (s : State) : State :=
  if talking s then
    let s0 := heardAck h s
    if s0.pair.st = .opening ∧ s0.pair.up = some true ∧ s0.pair.step = 3 ∧ h.ack = 0 then openPair s0
    else if s0.pair.st = .opened ∧ halfDuplex s0 then
      s0.modPair fun p => { p with turn := true, turnFrom := s0.ck.mono + pnat s0 0x8105 }
    else s0
  else s

/-! ## Sequenced frames -/

/-- A sequenced frame by Table 12.4; `body` is what its acceptance does (R254, R255). -/
def sequenced (h : FrameHead) (body : State → State) (s : State) : State :=
  if talking s ∧ s.pair.st = .opened then
    let s1 := heardAck h s
    let e := s1.pair.expect
    let k := (h.tag + 65535 - e) % 65535
    if k = 0 then
      let s2 := body (s1.modPair fun p => { p with
        expect := seqAfter e, accepted := true, unacked := p.unacked + 1
        acceptAt := if p.unacked = 0 then s1.ck.mono else p.acceptAt })
      if 4 ≤ s2.pair.unacked ∧ s2.pair.st = .opened then sendAck s2 else s2
    else if k ≤ 7 then sendNak e "gap" s1
    else if 65527 ≤ k then sendAck s1
    else losePair 6 s1
  else if talking s then heard s else s

/-- A protocol error (R248, R259). -/
def protocolFault (s : State) : State :=
  let s1 := s.modPair fun p => { p with proto := p.proto + 1 }
  if s1.pair.st = .opened then losePair 7 s1 else s1

/-- Answers a partner close: check 1, the day's equivocations, and check 3 where check 2 holds (R263, R281); none while
records are missing. -/
def judgeClose (s : State) (w : PartnerClose) : Option String :=
  let (n, sums) : Nat × List (Int × Int) := match s.pair.days.find? fun d => d.1 = w.day with
    | some d => d.2
    | none => (0, List.replicate 4 (0, 0))
  if !Config.edVerify s.pair.peerKey (closeMessage w.chain) w.sig then some "sig"
  else match s.pair.lastClose with
    | some p =>
      if p.key = w.key ∧ p.number = w.number ∧ p.chain = w.chain then some ""
      else if w.day ∈ s.pair.foul then some "total"
      else if n ≠ w.count then none
      else if p.key ≠ w.key ∨ p.number + 1 ≠ w.number then some ""
      else
        let diff := (w.totals.zip p.totals).map fun (a, b) => (a.1 - b.1, a.2 - b.2)
        if diff = sums then some "" else some "total"
    | none => if w.day ∈ s.pair.foul then some "total" else if n ≠ w.count then none else some ""

/-- Co-signs, declines or keeps a partner close (R263). -/
def answerClose (s : State) (w : PartnerClose) : State :=
  match judgeClose s w with
  | none => s.modPair fun p => { p with waiting := p.waiting ++ [w] }
  | some "" =>
    let sig := fit 64 0 (Config.edSign s.ident.key ((0x02 : Byte) :: w.chain))
    let newer : Bool := match s.pair.lastClose with
      | some p => p.key ≠ w.key || p.number ≤ w.number
      | none => true
    offer 2 (spaced [natText w.number, bytesText sig])
      (s.modPair fun p => { p with lastClose := if newer then some w else p.lastClose })
  | some reason => offer 3 (spaced [natText w.number, reason]) s

/-- The closes that wait are judged again when a record has come (R263). -/
def retryWaiting (s : State) : State :=
  s.pair.waiting.foldl answerClose (s.modPair fun p => { p with waiting := [] })

/-- IVL (R262). -/
def ivlIn (h : FrameHead) (record : List Byte) (s : State) : State :=
  sequenced h (fun t => if record.length = 56 then retryWaiting (acceptIvl record t) else protocolFault t) s

/-- CLOSE (R263): the record waits for its csig. -/
def closeIn (h : FrameHead) (record : List Byte) (s : State) : State :=
  sequenced h (fun t => if record.length = 80 then t.modPair fun p => { p with closeRec := some record }
    else protocolFault t) s

/-- Index of a key in the key table; FFh where it is not there. -/
def keyIndex (s : State) (key : List Byte) : Nat :=
  let i := (s.lg.keys.takeWhile fun q => q.1 ≠ key).length
  if i < s.lg.keys.length then i else 255

/-- A partner close from its record and its csig (Tables 11.3 and 12.2). -/
def partnerClose (s : State) (rec_ chain sig : List Byte) : PartnerClose :=
  let f := fun (i n : Nat) => fromLe ((rec_.drop i).take n)
  let g := fun (i : Nat) => fromLeInt ((rec_.drop i).take 8)
  { number := f 8 4, day := f 4 4, count := f 12 2
    totals := (List.range 4).map fun n => (g (16 + 16 * n), g (24 + 16 * n))
    chain := chain, sig := sig, key := keyIndex s s.pair.peerKey }

/-- CSIG (R263). -/
def csigIn (h : FrameHead) (number : Nat) (chain sig : List Byte) (s : State) : State :=
  sequenced h (fun t =>
    match t.pair.closeRec with
    | some rec_ =>
      let w := partnerClose t rec_ chain sig
      let t1 := t.modPair fun p => { p with closeRec := none }
      if w.number = number then answerClose t1 w else t1
    | none => t) s

/-- Slot of an own close number, where the ring still holds it. -/
def closeSlot (s : State) (number : Nat) : Option Nat :=
  (recordIndices s 1).find? fun i => closeNumber s i = number

/-- Module note 0013h (Table 12.5). -/
def noCosig (number reason : Nat) (s : State) : State := moduleNote s 0x13 (leBytes 4 number ++ leBytes 1 reason)

/-- COSIG (R233, R264): stored only where it verifies. -/
def cosigIn (h : FrameHead) (number : Nat) (sig : List Byte) (s : State) : State :=
  sequenced h (fun t =>
    match closeSlot t number with
    | some i =>
      if Config.edVerify t.pair.peerKey ((0x02 : Byte) :: valueAt t 1 i) sig then
        let t1 := putBytes t (recOff 1 i + 248) (fit 64 0 sig)
        let t2 := putBytes t1 (recOff 1 i + 312) (0x03 :: leBytes 1 (keyIndex t t.pair.peerKey))
        putBytes t2 (recOff 1 i + 316) (leBytes 4 (nowSec t))
      else noCosig number 1 t
    | none => noCosig number 1 t) s

/-- DECLINE (R264). -/
def declineIn (h : FrameHead) (number : Nat) (reason : DeclineReason) (s : State) : State :=
  sequenced h (noCosig number (match reason with | .sig => 1 | .count => 2 | .total => 3)) s

/-- DAMAGE (R265). -/
def damageIn (h : FrameHead) (chain : Fin 4) (index kase : Nat) (s : State) : State :=
  sequenced h (fun t => moduleNote t 0x12 (leBytes 1 (chain.val + 1) ++ leBytes 4 index ++ leBytes 1 kase)) s

/-! ## Clock exchange -/

/-- TQ: the upstream module answers with tr (R266). -/
def tqIn (h : FrameHead) (t1 : Nat) (s : State) : State :=
  sequenced h (fun t =>
    if t.pair.up = some true then offer 1 (spaced [msText t1, msText h.stamp]) t else t) s

/-- The pair of least delay; of equal ones the newest. -/
def bestPair : List (Int × Int) → Option (Int × Int)
  | [] => none
  | q :: qs => match bestPair qs with
    | some b => some (if b.2 < q.2 then b else q)
    | none => some q

/-- What the downstream module does about an offset of `theta2` ÷ 2 ms (R267). -/
def actOnOffset (theta2 : Int) (s : State) : State :=
  if s.ck.valid = false then
    let t := (s.ck.t + theta2 * 5000000).toNat
    auditClock 3 0 (nowMs s) (t / msUnits) (becomeSet t s)
  else if 2000 * pnat s 0x8106 < theta2.natAbs then
    if s.pair.clockNoted then s
    else
      let th := roundDiv theta2 2
      moduleNote (noteAll (spaced ["pair clock", intText th]) (s.modPair fun p => { p with clockNoted := true })) 0x15
        (leInt 4 th)
  else if 4 ≤ theta2.natAbs then startSlew 3 0 (theta2 * 5000000) s
  else s

/-- TR (R266, R267). -/
def trIn (h : FrameHead) (t1 t2 t3 : Nat) (s : State) : State :=
  sequenced h (fun t =>
    if t.pair.up = some false ∧ t.pair.tq = some t1 then
      let theta2 : Int := ((t2 : Int) - t1) + ((t3 : Int) - h.stamp)
      let delta : Int := ((h.stamp : Int) - t1) - ((t3 : Int) - t2)
      let pairs := ((theta2, delta) :: t.pair.thetas).take 8
      match bestPair pairs with
      | some b => actOnOffset b.1 (t.modPair fun p => { p with
          thetas := pairs, offset := roundDiv b.1 2, delay := b.2 })
      | none => t
    else t) s

/-! ## Naks, bye and faults -/

/-- A frame has been sent again in this millisecond: a nak and a timeout of one moment send once (Table 12.7). -/
def justResent (s : State) (f : OutFrame) : Bool := decide (0 < f.resends) && decide (f.sentAt = s.ck.mono)

/-- NAK (R257): classified, counted, and the frame with every later one sent again. -/
def nakIn (h : FrameHead) (seq : Nat) (check : NakCheck) (s : State) : State :=
  if talking s then
    let s1 := heardAck h s
    if s1.pair.st ≠ .opened then s1
    else
      let held := s1.pair.out.find? fun f => f.seq = seq
      let s2 := s1.modPair fun p =>
        match check with
        | .gap => { p with gaps := p.gaps + 1 }
        | .none => { p with dataDmg := p.dataDmg + 1 }
        | .hex c =>
          if (held.map (·.check)) = some c then { p with checkDmg := p.checkDmg + 1 }
          else { p with dataDmg := p.dataDmg + 1 }
      if held.any (justResent s) then s2 else resendTurn seq s2
  else s

/-- BYE (R269). -/
def byeIn (h : FrameHead) (s : State) : State :=
  if talking s then (heardAck h s).modPair fun p => { clearWindow p with st := .idle } else s

/-- The check field of a nak. -/
def nakText (computed : Option (BitVec 16)) : String :=
  match computed with
  | some c => String.ofList (hexChars true 4 c.toNat)
  | none => "none"

/-- FRAME_CHECK_FAIL (R247, R256): the line wakes the fast domain, and in a session a nak goes out. -/
def frameCheckFail (tag : Option Nat) (computed : Option (BitVec 16)) (s : State) : State :=
  if talking s = false then s
  else if s.pair.st = .opened then sendNak (tag.getD s.pair.expect) (nakText computed) (wakeLine s)
  else wakeLine s

/-- PROTOCOL_ERROR (R248). -/
def protocolError (_tag : Option Nat) (s : State) : State := if talking s then protocolFault (heard s) else s

/-! ## Timers

An expiry while the fast domain sleeps starts a line pass (R247). -/

/-- The hello of this opening has been answered (R251). -/
def helloAnswered (s : State) : Bool := s.pair.st = .opening && decide (2 ≤ s.pair.step)

/-- HELLO_RETRY (R251 ... R253): the upstream end, at intervals of 5 s + (serial mod 16) × 250 ms until it is answered. -/
def helloRetry (s : State) : State :=
  if talking s ∧ pget s 0x8100 = 1 ∧ s.pair.up ≠ some false ∧ s.pair.st ≠ .opened ∧ s.pair.pause ≤ s.ck.mono
      ∧ helloAnswered s = false then
    (sendHello s).modPair fun p => { p with
      step := 1, pause := s.ck.mono + 5000 + s.ident.serial % 16 * 250 }
  else s

/-- OPENING_TIMEOUT: a step is not answered within 5 s (R251). -/
def openingTimeout (s : State) : State :=
  if talking s ∧ s.pair.st = .opening ∧ s.pair.txAt + 5000 ≤ s.ck.mono then
    wakeLine (s.modPair fun p => { p with step := 0 })
  else s

/-- RTO_EXPIRY (R258). -/
def rtoExpiry (s : State) : State :=
  match s.pair.out.head? with
  | some f =>
    let rto := s.pair.rto.getD 0
    if talking s ∧ s.pair.st = .opened ∧ 1000 * f.sentAt + rto ≤ 1000 * s.ck.mono then
      wakeLine (resendTurn f.seq (s.modPair fun p => { p with rto := some (min 60000000 (2 * rto)) }))
    else s
  | none => s

/-- ACK_DELAY (R254). -/
def ackDelay (s : State) : State :=
  if talking s ∧ s.pair.st = .opened ∧ 0 < s.pair.unacked ∧ s.pair.acceptAt + 50 ≤ s.ck.mono then sendAck s else s

/-- KEEPALIVE_DUE (R259, R260). -/
def keepaliveDue (s : State) : State :=
  if talking s ∧ s.pair.st = .opened ∧ s.pair.txAt + 1000 * pnat s 0x8104 ≤ s.ck.mono then
    if halfDuplex s then
      if holdsTurn s then (sendPlain "ack" "" s).modPair fun p => { p with turn := false } else s
    else sendPlain "ack" "" s
  else s

/-- SESSION_SILENCE (R259). -/
def sessionSilence (s : State) : State :=
  if talking s ∧ s.pair.st = .opened ∧ s.pair.rxAt + 3000 * pnat s 0x8104 ≤ s.ck.mono then losePair 5 (wakeLine s) else s

/-- TURN_RETAKE (R260). -/
def turnRetake (s : State) : State :=
  if talking s ∧ s.pair.st = .opened ∧ halfDuplex s ∧ s.pair.up = some true ∧ s.pair.turn = false
      ∧ 1000 * s.pair.txAt + s.pair.rto.getD 0 ≤ 1000 * s.ck.mono then
    let s1 := flushPair (s.modPair fun p => { p with turn := true, turnFrom := s.ck.mono })
    if s1.pair.turn then (sendPlain "ack" "" s1).modPair fun p => { p with turn := false } else s1
  else s

/-- SILENT_TIMEOUT (R253): a downstream end that hears nothing for 60 s in RUN. -/
def silentTimeout (s : State) : State :=
  if talking s ∧ s.pw.ms = .run ∧ pget s 0x8100 = 2 ∧ s.pair.st ≠ .opened ∧ s.pair.rxAt + 60000 ≤ s.ck.mono then
    wakeLine (s.modPair fun p => { p with st := .silent })
  else s

/-- TQ_DUE (R266). -/
def tqDue (s : State) : State :=
  let due : Bool := match s.pair.tq with
    | some t => t + 60000 ≤ nowMs s
    | none => true
  if talking s ∧ s.pair.st = .opened ∧ s.pair.up = some false ∧ due then offer 0 "" s else s

/-! ## Meanings -/

/-- HELLO (R251). -/
def execHello (h : FrameHead) (f : HelloFields) (s : State) : Host.Outcome State Fault Refusal := done (helloIn h f s)
/-- PROVE (R249). -/
def execProve (h : FrameHead) (sig : List Byte) (s : State) : Host.Outcome State Fault Refusal := done (proveIn h sig s)
/-- REFUSE (R252). -/
def execRefuse (h : FrameHead) (reason : RefuseReason) (s : State) : Host.Outcome State Fault Refusal :=
  done (refuseIn h reason s)
/-- ACK (R254). -/
def execAck (h : FrameHead) (s : State) : Host.Outcome State Fault Refusal := done (ackIn h s)
/-- NAK (R257). -/
def execNak (h : FrameHead) (seq : Nat) (check : NakCheck) (s : State) : Host.Outcome State Fault Refusal :=
  done (nakIn h seq check s)
/-- BYE (R269). -/
def execBye (h : FrameHead) (s : State) : Host.Outcome State Fault Refusal := done (byeIn h s)
/-- IVL (R262). -/
def execIvl (h : FrameHead) (record : List Byte) (s : State) : Host.Outcome State Fault Refusal :=
  done (ivlIn h record s)
/-- CLOSE (R263). -/
def execClose (h : FrameHead) (record : List Byte) (s : State) : Host.Outcome State Fault Refusal :=
  done (closeIn h record s)
/-- CSIG (R263). -/
def execCsig (h : FrameHead) (number : Nat) (chain sig : List Byte) (s : State) :
    Host.Outcome State Fault Refusal := done (csigIn h number chain sig s)
/-- COSIG (R264). -/
def execCosig (h : FrameHead) (number : Nat) (sig : List Byte) (s : State) : Host.Outcome State Fault Refusal :=
  done (cosigIn h number sig s)
/-- DECLINE (R264). -/
def execDecline (h : FrameHead) (number : Nat) (reason : DeclineReason) (s : State) :
    Host.Outcome State Fault Refusal := done (declineIn h number reason s)
/-- DAMAGE (R265). -/
def execDamage (h : FrameHead) (chain : Fin 4) (index kase : Nat) (s : State) : Host.Outcome State Fault Refusal :=
  done (damageIn h chain index kase s)
/-- TQ (R266). -/
def execTq (h : FrameHead) (t1 : Nat) (s : State) : Host.Outcome State Fault Refusal := done (tqIn h t1 s)
/-- TR (R266, R267). -/
def execTr (h : FrameHead) (t1 t2 t3 : Nat) (s : State) : Host.Outcome State Fault Refusal := done (trIn h t1 t2 t3 s)
/-- FRAME_CHECK_FAIL (R256). -/
def execFrameCheckFail (tag : Option Nat) (computed : Option (BitVec 16)) (s : State) :
    Host.Outcome State Fault Refusal := done (frameCheckFail tag computed s)
/-- PROTOCOL_ERROR (R248). -/
def execProtocolError (tag : Option Nat) (s : State) : Host.Outcome State Fault Refusal := done (protocolError tag s)
/-- HELLO_RETRY (R251). -/
def execHelloRetry (s : State) : Host.Outcome State Fault Refusal := done (helloRetry s)
/-- OPENING_TIMEOUT (R251). -/
def execOpeningTimeout (s : State) : Host.Outcome State Fault Refusal := done (openingTimeout s)
/-- RTO_EXPIRY (R258). -/
def execRtoExpiry (s : State) : Host.Outcome State Fault Refusal := done (rtoExpiry s)
/-- ACK_DELAY (R254). -/
def execAckDelay (s : State) : Host.Outcome State Fault Refusal := done (ackDelay s)
/-- KEEPALIVE_DUE (R259). -/
def execKeepaliveDue (s : State) : Host.Outcome State Fault Refusal := done (keepaliveDue s)
/-- SESSION_SILENCE (R259). -/
def execSessionSilence (s : State) : Host.Outcome State Fault Refusal := done (sessionSilence s)
/-- TURN_RETAKE (R260). -/
def execTurnRetake (s : State) : Host.Outcome State Fault Refusal := done (turnRetake s)
/-- SILENT_TIMEOUT (R253). -/
def execSilentTimeout (s : State) : Host.Outcome State Fault Refusal := done (silentTimeout s)
/-- TQ_DUE (R266). -/
def execTqDue (s : State) : Host.Outcome State Fault Refusal := done (tqDue s)

end Sys2Proof.Machine
end

