-- ==== Sys2Proof/Machine/Engine.lean ====
section
/-! DEFINITION. An engine frame (chapters 05 and 06): the sources and sinks of the matrix with the outputs they drive, the
filter paths, the frequency tracker, the pilot detector and the axes (R81 ... R83, R102 ... R111, R120 ... R141). -/

namespace Sys2Proof.Machine

/-! ## Sources -/

/-- Runs and paths in the order F0 … F7. -/
def fastPaths : List (Run × Bool) := allRuns.flatMap fun r => [(r, false), (r, true)]

/-- Cells 0 … 9 that serve F0 … F7 (R84, R112). -/
def servingCells (s : State) : List Nat :=
  fastPaths.map fun (r, vib) => pnat s (rp r (if vib then 0x202 else 0x200))

/-- Limit of the headroom of a fast cell: 105 % of ±2²³. A cell delivers up to it, beyond the 24 bits of R81 and R103, in its
32-bit word (R81, R83). DEDUCED, log 91. -/
def headLimit : Int := 8808038

/-- A sample at or beyond the headroom limit (R83). -/
def railed (x : Int) : Bool := x ≤ -headLimit || headLimit ≤ x

/-- The sample of a cell as converted: held to the headroom limit; a cell without an input is powered down, and 0 (R83, R84;
the 0 is a DESIGN CHOICE, log 92). -/
def cellSample (serving : List Nat) (f : Frame) (c : Nat) : Int :=
  if c ∈ serving then clampInt (-headLimit) headLimit (f.cells.toList.getD c 0) else 0

/-- Status of a fast input. -/
def fastIn (s : State) (r : Run) (vib : Bool) : InStatus := if vib then s.runs[r].fe.vib else s.runs[r].fe.lift

/-- What the input of a cell delivers: nothing, taken as 0, while its front end restarts; its last value with status ok while
it is open; else its sample (R86, R98; the 0 is a DESIGN CHOICE, log 92). -/
def delivered (s : State) (serving : List Nat) (f : Frame) (c : Nat) : Int :=
  match (fastPaths.zip serving).find? fun q => q.2 = c with
  | some ((r, vib), _) =>
    let fe := s.runs[r].fe
    if fe.restarting then 0
    else if fastIn s r vib = .opened then (if vib then fe.fastOk.2 else fe.fastOk.1).getD 0
    else cellSample serving f c
  | none => 0

/-- The sample of a tone generator (R108, R109): the square begins with its high half-cycle, and its low level is −(2²³ − 1).
DESIGN CHOICE, log 93. -/
def toneSample (s : State) (j : Fin 4) : Int :=
  let wave := if pget s 0x5480 = j.val then 1 else pget s (0x5400 + 0x10 * j.val)
  if wave = 0 then 0 else if wave = 1 then fullSine s.mx.phase[j]
  else if s.mx.phase[j].msb then -top24 else top24

/-- Phase advance of a tone per frame: its frequency in 0.01 Hz against 48 kHz, to nearest (R108; the rounding is a DESIGN
CHOICE, log 93). -/
def toneStep (s : State) (j : Fin 4) : Word :=
  let f := if pget s 0x5480 = j.val then pget s 0x5481 else pget s (0x5401 + 0x10 * j.val)
  BitVec.ofInt 32 (roundDiv (f * 2 ^ 32) 4800000)

/-- The 20 sources of a frame (Table 5.1). -/
def sources (s : State) (serving : List Nat) (f : Frame) : List Int :=
  (List.range 10).map (delivered s serving f) ++ (List.finRange 4).map (toneSample s) ++ s.mx.axes.toList

/-- The axis samples of a frame: each is held for 15 frames (R103). -/
def Matrix.takeAxes (f : Frame) (m : Matrix) : Matrix :=
  { m with axes := if m.axisAge = 0 then f.axes.map fun x => clampInt low24 top24 x else m.axes
           axisAge := (m.axisAge + 1) % 15 }

/-! ## Sinks -/

/-- Sum of gain × source into a sink (R102). -/
def sinkSum (gains : List (Nat × Int)) (src : List Int) (k : Nat) : Int :=
  gains.foldl (fun a g => if g.1 % 32 = k then a + g.2 * src.getD (g.1 / 32) 0 else a) 0

/-- A sink after its saturation, and whether it saturated (R105). -/
def sinkValue (gains : List (Nat × Int)) (src : List Int) (k : Nat) : Int × Bool :=
  saturate24 (roundUpDiv (sinkSum gains src k) 16384)

/-- A 24-bit value at a 16-bit converter, to nearest (R110, R114; the rounding is a DESIGN CHOICE, log 93). -/
def toDac (x : Int) : Int := clampInt (-32768) 32767 (roundUpDiv x 256)

/-- The sinks of a frame and what they drive; the tones advance whether on or off (R102, R105, R108, R110, R114; DESIGN
CHOICE, log 93). -/
def Matrix.drive (steps : Vector Word 4) (outs : Vector (Int × Bool) 18) (m : Matrix) : Matrix :=
  { m with
    sinks := outs.map (·.1)
    sat := Vector.ofFn fun (k : Fin 18) => if outs[k].2 then m.sat[k] + 1 else m.sat[k]
    phase := Vector.ofFn fun (j : Fin 4) => m.phase[j] + steps[j]
    tst := Vector.ofFn fun (n : Fin 4) => toDac (saturate24 (outs[8 + 2 * n.val].1 + outs[9 + 2 * n.val].1)).1
    mon := toDac outs[16].1 }

/-- The raw port takes the samples of the cells that serve F0 … F7, 64 frames at most (Table 10.2). -/
def pushRaw (src : List Int) (serving : List Nat) (raw : List Word) : List Word :=
  let w := raw ++ serving.map fun c => BitVec.ofInt 32 (src.getD c 0)
  w.drop (w.length - 512)

/-! ## Fast inputs -/

/-- Status of a fast input after a sample of its own cell, with its count of good samples and its last value with status ok:
`opened` stands until the pilot returns (R83, R98). -/
def fastStep (x : Int) (st : InStatus) (good : Nat) (ok : Option Int) : InStatus × Nat × Option Int :=
  if st = .opened then (st, good, ok)
  else if railed x then (.clip, 0, ok)
  else if st = .clip ∧ good + 1 < 8 then (.clip, good + 1, ok)
  else (.ok, 8, some x)

/-- The fast inputs of a run over one frame. -/
def fastInputs (serving : List Nat) (f : Frame) (s : State) (r : Run) : State :=
  s.modRun r fun t => t.modFe fun fe =>
    if fe.restarting then fe
    else
      let a := fastStep (cellSample serving f (serving.getD (2 * r.val) 0)) fe.lift fe.fastGood.1 fe.fastOk.1
      let b := fastStep (cellSample serving f (serving.getD (2 * r.val + 1) 0)) fe.vib fe.fastGood.2 fe.fastOk.2
      { fe with lift := a.1, vib := b.1, fastGood := (a.2.1, b.2.1), fastOk := (a.2.2, b.2.2) }

/-- A vibration fit and an averaging of a pilot reference end where an input's status is not `ok` (R113, R140). -/
def checkInputs (r : Run) (s : State) : State :=
  let f := s.runs[r].fe
  let bad := fun (st : InStatus) => failFit r (inStatusName st) (failAvg r (inStatusName st) s)
  if f.restarting then s
  else if f.lift ≠ .ok ∧ f.lift ≠ .idle then bad f.lift
  else if f.vib ≠ .ok ∧ f.vib ≠ .idle then bad f.vib
  else s

/-! ## The stages of a path -/

/-- The DC blocker on an input: x − b to nearest with ties up and saturated, then b moves by (x − b) × 2π fc ÷ fin with
fc in 0.01 Hz; a path that has never run takes x (R126, R133). -/
def blockerStep (corner : Int) (fin : Nat) (freeze : Bool) (b : Option Int) (x : Int) : Option Int × (Int × Bool) :=
  let v := x * 16777216
  let q := b.getD v
  let next := if freeze then q else q + roundUpDiv ((v - q) * corner * 6283185307179586) (fin * 100000000000000000)
  (some next, saturate24 (roundUpDiv (v - q) 16777216))

/-- A sum of products of Q1.17 taps with the inputs, newest first, as a stage output (R133). -/
def firOut (tap : Nat → BitVec 18) (xs : List Int) : Int × Bool :=
  saturate24 (roundUpDiv ((xs.zipIdx.map fun q => (tap q.2).toInt * q.1).sum) 131072)

/-- An output of a path: its value, the clip bit, and the engine clocks from the instant it stands for to the frame of its
last input (R121, R129). -/
structure PathOut where
  value : Int
  clip : Bool
  delay : Nat
  deriving DecidableEq, Repr

/-- Ratio code of a path, outputs per input × 2³² (R128, Table 6.2). -/
def ratioOf (code rate : Nat) : Nat := if code = 3 then rate else 2 ^ 32 / (preset code).1

/-- The decimation of one input by a preset: an output at the first input of a burst, and at each M-th behind it (R127,
Table 6.4). -/
def presetStep (code w : Nat) (x : Int) (flag : Bool) (p : PathSt) : PathSt × Option PathOut :=
  let (m, n, group) := preset code
  let p1 := { p with taps := (x :: p.taps).take n, clips := (flag :: p.clips).take 288 }
  if p.next = 0 then
    let (v, sat) := firOut (Config.presetTap code) p1.taps
    ({ p1 with next := m - 1 },
      some ⟨v, sat || (p1.clips.take (n + w - 1)).any id, clocksPerFrame * group + 512 * (w - 1)⟩)
  else ({ p1 with next := p.next - 1 }, none)

/-- The resampler on one input: pre-averager, phase word, interpolator at the branch nearest to δ (R128). -/
def resampleStep (rc w : Nat) (x : Int) (flag : Bool) (p : PathSt) : PathSt × Option PathOut :=
  let d := preAverage rc
  let taps := (x :: p.taps).take d
  let mean := (saturate24 (roundUpDiv taps.sum d)).1
  let sum := p.ratio.toNat + rc
  let p1 := { p with taps := taps, means := (mean :: p.means).take 24, clips := (flag :: p.clips).take 288
                     ratio := BitVec.ofNat 32 sum }
  if 2 ^ 32 ≤ sum then
    let late := sum - 2 ^ 32
    let branch := min 63 ((128 * late + rc) / (2 * rc))
    let (v, sat) := firOut (Config.branchTap branch) p1.means
    (p1, some ⟨v, sat || (p1.clips.take (d + 22 + w)).any id, late * clocksPerFrame / rc + 512 * (d + 22 + w)⟩)
  else (p1, none)

/-- Decimation of one input (R127, R128). -/
def decimate (code rc w : Nat) (x : Int) (flag : Bool) (p : PathSt) : PathSt × Option PathOut :=
  if code = 3 then resampleStep rc w x flag p else presetStep code w x flag p

/-- A fast path on one input: median, DC blocker, decimation (R125 … R128). -/
def pathStep (s : State) (r : Run) (vib : Bool) (x : Int) (clip : Bool) (p : PathSt) (b : Option Int) :
    PathSt × Option Int × Option PathOut :=
  let base := pathBase r vib
  let w := medianWindow (pnat s base)
  let hist := (x :: p.hist).take w
  let (b1, y, sat) := blockerStep (pget s (base + 1)) 48000 (pget s (base + 2) = 1) b (medianOf hist)
  let (p1, out) := decimate (pnat s (base + 3)) (pnat s (base + 4)) w y (clip || sat) { p with hist := hist }
  (p1, b1, out)

/-! ## The tracker -/

/-- Phase advance of the tracker over one output at a frequency in 0.001 Hz: f × 2²⁴ ÷ fout, to nearest (R135; the rounding is
a DESIGN CHOICE, log 11). -/
def phaseAdvance (freq rate : Nat) : Nat := (roundDiv (freq * 2 ^ 56 : Nat) (48000000 * rate)).toNat

/-- The phase errors of the last 8 tracked cycles as sum of magnitudes and count (R136). -/
def errorSum (t : Tracker) : Nat × Nat := (t.cyc.1 + (t.cycs.map (·.1)).sum, t.cyc.2 + (t.cycs.map (·.2)).sum)

/-- Lock of the tracker: gained below 0.1 cycle of mean error, lost above 0.25 cycle (R136). -/
def lockAfter (locked : Bool) (e : Nat × Nat) : Bool :=
  if locked then e.1 ≤ e.2 * 2 ^ 22 else decide (10 * e.1 < e.2 * 2 ^ 24)

/-- The span after an output of the lift path, which is part of one where it is free of anneal and finds the tracker locked
(R137). -/
def spanStep (free : Bool) (mag : Nat) (phase count : Acc) (t : Tracker) : Tracker :=
  if free && t.locked then
    match t.span, t.going with
    | some w, true => { t with span := some { w with phase1 := phase, count1 := count }, peak := max t.peak mag }
    | _, _ => { t with span := some ⟨phase, phase, count, count⟩, going := true, peak := mag }
  else { t with going := false }

/-- The tracker over one output of the lift path (R135 … R137): mixed with the cosine and sine of its phase, low-passed,
steered with a proportional-integral loop of 5 % of the tracked frequency, at least 0.05 Hz. The loop's figures are free
(log 11). -/
def trackStep (rate : Nat) (count : Acc) (v : Int) (anneal : Bool) (e : EngineRun) : EngineRun :=
  let t := e.track
  let angle := e.phase.toNat % 2 ^ 24 * 256
  let band := max 50 (e.tracked / 20)
  let i := Config.lowPass band rate t.arms.1 (v * cosine40 angle * 2 ^ 24 / one40)
  let q := Config.lowPass band rate t.arms.2 (v * sine40 angle * 2 ^ 24 / one40)
  let err := Config.phaseError i q
  let gain := Config.loopGain band rate
  let integ := t.integ + gain.2 * err / 2 ^ 24
  let freq := (integ + gain.1 * err / 2 ^ 24).toNat
  let step := phaseAdvance freq rate
  let phase := e.phase + BitVec.ofNat 48 step
  let wraps : Bool := decide (e.phase.toNat / 2 ^ 24 ≠ phase.toNat / 2 ^ 24)
  let cyc := if wraps then (err.natAbs, 1) else (t.cyc.1 + err.natAbs, t.cyc.2 + 1)
  let cycs := if wraps then (t.cyc :: t.cycs).take 7 else t.cycs
  let t1 := { t with arms := (i, q), integ := integ, cyc := cyc, cycs := cycs }
  let t2 := { t1 with locked := lockAfter t.locked (errorSum t1), clean := t.clean || !anneal }
  { e with phase := phase, tracked := freq, track := spanStep (!anneal) v.natAbs phase count t2 }

/-- The tracker at the first input of a burst (R136). -/
def Tracker.seed (freq : Nat) : Tracker := { Tracker.reset with integ := freq }

/-- A new window begins (R137). -/
def Tracker.window (t : Tracker) : Tracker := { t with clean := false, span := none, going := false, peak := 0 }

/-! ## Fast paths in a frame -/

/-- Stream of a fast path: bits 0 … 7 of the selection (R189). -/
def fastStream (r : Run) (vib : Bool) : Fin 17 := ⟨2 * r.val + (if vib then 1 else 0), by split <;> omega⟩

/-- An output of the vibration path at the recognisers of its run (R169, R170, R172). -/
def vibOutput (s : State) (r : Run) (o : PathOut) (clock rate : Nat) (anneal : Bool) (c : RecogRun) : RecogRun :=
  let fit : Bool := !anneal && decide (s.runs[r].fe.vib = .ok)
  rmsStep o.value fit (vibPulse s r rate clock o.value fit (hammerStep (pnat s (rp r 0x500)) clock o.value anneal o.clip c))

/-- One input of a fast path, and its output where one arises: the tracker or the recognisers, and the stream (R120 … R138).
A restarting front end delivers no input (R86). -/
def pathFrame (clock : Nat) (outs : Vector (Int × Bool) 18) (clips : List Nat) (s : State) (q : Run × Bool) : State :=
  let (r, vib) := q
  let k := fastStream r vib
  if s.runs[r].fe.restarting then s
  else
    let e := s.runs[r].eng
    let clip : Bool := outs[k.val].2 || s.mx.active.any fun g => decide (g.1 % 32 = k.val) && decide (g.1 / 32 ∈ clips)
    let (p1, b1, out) := pathStep s r vib outs[k.val].1 clip (if vib then e.vib else e.lift)
      (if vib then e.blocker.2 else e.blocker.1)
    let s1 := s.modRun r fun t => t.modEng fun x =>
      if vib then { x with vib := p1, blocker := (x.blocker.1, b1) } else { x with lift := p1, blocker := (b1, x.blocker.2) }
    match out with
    | none => s1
    | some o =>
      let base := pathBase r vib
      let rate := ratioOf (pnat s (base + 3)) (pnat s (base + 4))
      let at_ := clock - o.delay
      let n := if vib then e.vibAnneal else e.liftAnneal
      let anneal : Bool := n ≠ 0
      let word := streamWord o.value anneal o.clip (pget s (base + 2) = 1) (fastIn s r vib = .opened) k.val
      let s2 := s1.modRun r fun t =>
        if vib then { t.modEng fun x => { x with vibAnneal := n - 1 } with recog := vibOutput s r o at_ rate anneal t.recog }
        else t.modEng fun x => trackStep rate s.en.count o.value anneal { x with liftAnneal := n - 1 }
      streamOut k at_ [word] s2

/-! ## Axis paths in a frame -/

/-- The axis stages ahead of the decimation, once per sensor sample (R124): median, and the DC blocker unless its corner is
0.00 (Table 6.5). -/
def axisSample (s : State) (i : Fin 6) : PathSt × Option Int × (Int × Bool) :=
  let p := s.en.axes[i]
  let hist := (s.mx.axes[i] :: p.hist).take (medianWindow (pnat s 0x6F00))
  let p1 := { p with hist := hist }
  if pget s 0x6F01 = 0 then (p1, s.en.axisBlocker[i], (medianOf hist, false))
  else
    let (b, y) := blockerStep (pget s 0x6F01) 3200 false s.en.axisBlocker[i] (medianOf hist)
    (p1, b, y)

/-- The axis paths over one frame: their six outputs arise together (R124, R188). -/
def axisFrame (clock : Nat) (fresh : Bool) (s : State) : State :=
  let code := pnat s 0x6F02
  let w := medianWindow (pnat s 0x6F00)
  let taken := Vector.ofFn fun (i : Fin 6) =>
    if fresh then axisSample s i else (s.en.axes[i], s.en.axisBlocker[i], s.en.axisIn[i])
  let fed := taken.map fun q => presetStep code w q.2.2.1 q.2.2.2 q.1
  let s1 := { s with en := { s.en with
    axes := fed.map (·.1), axisBlocker := taken.map (·.2.1), axisIn := taken.map (·.2.2) } }
  match fed[0].2 with
  | none => s1
  | some o =>
    let anneal : Bool := s.en.axisAnneal ≠ 0
    let at_ := clock - (clocksPerFrame * (preset code).2.2 + 15 * 512 * (w - 1))
    let vals := fed.map fun q => (q.2.getD o)
    let words := (List.finRange 6).map fun i => streamWord vals[i].value anneal vals[i].clip false false (8 + i.val)
    let s2 := { s1 with
      en := { s1.en with axisAnneal := s.en.axisAnneal - 1 }
      ev := if anneal then s1.ev
        else axisFound s (vals.map (·.value)) clock (clocksPerFrame * (preset code).1) s1.ev }
    streamOut 16 at_ words s2

/-! ## The pilot detector -/

/-- Level of the pilot at a run's electrode: its gains into INJ(2n − 1) and INJ(2n), Q2.14 (R110, R139). -/
def pilotGain (s : State) (r : Run) : Int :=
  let j := 10 + pnat s 0x5480
  fetch 0 s.mx.active (j * 32 + 8 + 2 * r.val) + fetch 0 s.mx.active (j * 32 + 9 + 2 * r.val)

/-- The response of a window from its sums with the cosine and the sine, × 10¹⁰: amplitude ÷ pilot level against the factory
nominal coupling in 0.01 %, and its phase against the sine of the generator (R139). No level gives no response. -/
def pilotResponse (s : State) (r : Run) (vib : Bool) (z : Int × Int) : PilotValue :=
  let g := pilotGain s r
  let amp := isqrt (z.1.natAbs ^ 2 + z.2.natAbs ^ 2)
  let den := 192 * 10 ^ 10 * 1280 * g.natAbs * Config.coupling r.val vib
  ⟨if den = 0 then 0 else (roundDiv (20000 * amp * (fastScale s r vib / 1000) : Nat) den).toNat,
   if g < 0 then angleTenths (-z.2) (-z.1) else angleTenths z.2 z.1⟩

/-- The pilot detector over one frame: sums of 192 samples of the run's cells with the cosine and sine of the pilot
generator's phase, ahead of the matrix (R111, R139). A restarting front end delivers no sample (R86). -/
def pilotFrame (serving : List Nat) (f : Frame) (s : State) (r : Run) : State :=
  if s.runs[r].fe.restarting then s
  else
    let ph := (s.mx.phase.toList.getD (pnat s 0x5480) 0).toNat
    let c := cosine40 ph / 10 ^ 30
    let n := sine40 ph / 10 ^ 30
    let add := fun (z : Int × Int) (k : Nat) =>
      let x := cellSample serving f (serving.getD k 0)
      (z.1 + x * c, z.2 + x * n)
    s.modRun r fun t => t.modPilot fun p =>
      let a := add p.sums.1 (2 * r.val)
      let b := add p.sums.2 (2 * r.val + 1)
      if p.n + 1 < 192 then { p with sums := (a, b), n := p.n + 1 }
      else { p with
        sums := ((0, 0), (0, 0)), n := 0, disturbed := false
        results := p.results ++ [(pilotResponse s r false a, pilotResponse s r true b, p.disturbed)] }

/-! ## The frame -/

/-- One engine frame that begins at engine clock `clock` (R102 … R108, R120): the banks exchange, the sources are taken, the
sinks and what they drive are formed, then the slots run in order. -/
def engineFrame (clock : Nat) (f : Frame) (s : State) : State :=
  let fresh : Bool := s.mx.axisAge = 0
  let s0 := { s with mx := s.mx.boundary.takeAxes f }
  let serving := servingCells s0
  let s1 := allRuns.foldl (fastInputs serving f) s0
  let src := sources s1 serving f
  let clips := (List.range 10).filter fun c => railed (src.getD c 0)
  let outs := Vector.ofFn fun (k : Fin 18) => sinkValue s1.mx.active src k.val
  let s2 := allRuns.foldl (pilotFrame serving f) s1
  let s3 := { s2 with
    mx := s2.mx.drive (Vector.ofFn fun j => toneStep s2 j) outs
    ga := { s2.ga with raw := pushRaw src serving s2.ga.raw } }
  let s4 := axisFrame clock fresh (fastPaths.foldl (pathFrame clock outs clips) s3)
  let s5 := allRuns.foldl (fun t r => checkInputs r (t.modRecog r fun c => recogFrame t r c)) s4
  { s5 with en := { s5.en with count := s5.en.count + 1024 } }

end Sys2Proof.Machine
end

