-- ==== Sys2Proof/Machine/Burst.lean ====
section
/-! DEFINITION. Bursts (R62 ... R65, R91, R136 ... R141): their beginning and end, the burst estimate and the pilot's
judgement; DO_PILOT_REF, DO_MATRIX_VIBFIT and the annunciator. -/

namespace Sys2Proof.Machine

/-! ## The burst -/

/-- Frequency the tracker starts a burst with, 0.001 Hz (R136). -/
def seedFreq (s : State) (r : Run) : Nat :=
  match s.runs[r].eng.okFreq with
  | some (f, t) =>
    if s.ck.mono < t + 60000 then f else 1000 * s.runs[r].rate.getD 100
  | none => 1000 * s.runs[r].rate.getD 100

/-- The first input of a burst: no measurement state is kept across the gap but the DC-blocker estimates, every path anneals,
a lead phase is due (R62, R91, R131, R136, R139, R173, R174). -/
def startBurst (s : State) : State :=
  let runs := Vector.ofFn fun (r : Fin 4) =>
    let t := s.runs[r]
    let x := ((t.modFe fun f => { f with
        temp := f.temp.startSpan (slowSettle s r true), press := f.press.startSpan (slowSettle s r false)
        leadDue := true, leadFirst := none }).modEng fun e => { e with
        liftAnneal := pathSettle s r false, vibAnneal := pathSettle s r true, lift := .reset, vib := .reset
        tracked := seedFreq s r, track := .seed (seedFreq s r) }).modPilot fun p => { p with
        disturbed := true, sums := ((0, 0), (0, 0)), n := 0 }
    { x with recog := x.recog.wake }
  { s with
    runs := runs, ev := s.ev.wake, mx := { s.mx with axisAge := 0 }
    en := { s.en with axes := Vector.replicate 6 .reset, axisAnneal := axisSettle s, leadSec := nowSec s } }

/-- The burst watchdog starts: every armed input owes a tap result by wake + 5 ms (Table 15.3, 24h). -/
def startWatchdog (s : State) : State :=
  let inputs : List (Run × Bool) := allRuns.flatMap fun r => [(r, false), (r, true)]
  { s with sf := { s.sf with wakeAt := s.ck.mono, tapDue := inputs.filter fun q => armed s q.1 q.2 } }

/-- The lead phases of a whole second in continuous cadence (R91). -/
def leadSecond (s : State) : State :=
  if s.pw.cad.1 ∧ s.en.leadSec ≠ nowSec s then
    { s with runs := s.runs.map fun t => t.modFe fun f => { f with leadDue := true }
             en := { s.en with leadSec := nowSec s } }
  else s

/-- A wake instant: continuous cadence, or a whole multiple of the effective period from 00:00:00Z (R63, R64). -/
def wakeInstant (s : State) : Bool :=
  let c := s.pw.cad
  c.1 || decide (nowMs s % 86400000 % c.2.2 = 0)

/-- A burst that has begun goes on: in continuous cadence, or before its length has passed (R62, R65). -/
def burstRuns (s : State) : Bool := s.pw.pass = .burst && (s.pw.cad.1 || decide (s.ck.mono < s.pw.burstTo))

/-- Monotonic ms at which a burst that begins now ends: one burst length on, or in continuous cadence with the second
(R62, R137). -/
def burstEndAt (s : State) : Nat := if s.pw.cad.1 then nextSecond s else s.ck.mono + pnat s 0x201

/-- Engine clock since 2020 of the first frame that BURST_WAKE brings: behind the PLL lock where the burst begins with it
(R62, R121). -/
def frameClock (s : State) : Nat := nowMs s * clocksPerMs + if burstRuns s then 0 else Config.lockClocks.val

/-- BURST_WAKE: the quantity pass, the slow conversions and the frames of the burst (R62, R143). The frames and conversions
of the command follow one another from the instant it stands at. -/
def burstWake (b : Burst) (s : State) : State :=
  if measuring s ∧ wakeInstant s then
    let clock := frameClock s
    let s0 := if burstRuns s then s
      else startBurst (startWatchdog { s with pw := { s.pw with pass := .burst, burstTo := burstEndAt s } })
    let s1 := leadSecond (quantityPass s0)
    let s2 := allRuns.foldl (fun t r => b.conv[r].zipIdx.foldl
      (fun u c => convertRun r c.1 (clock + clocksPerMs * (c.2 + 1)) u) t) s1
    refreshOutputs (b.frames.zipIdx.foldl (fun u f => engineFrame (clock + clocksPerFrame * f.2) f.1 u) s2)
  else s

/-- Upper limit of the verifiable frequency, 0.001 Hz (R138). -/
def freqLimit (s : State) (r : Run) : Nat :=
  let b := pathBase r false
  let code := pnat s (b + 3)
  let edge := if code = 0 then 2400000 else if code = 1 then 4800000 else if code = 2 then 9600000
    else (roundDiv (pnat s (b + 4) * 19200000 : Nat) (2 ^ 32)).toNat
  min 8000000 edge

/-- Phase of the window in 2⁻²⁴ cycle and its clocks (R134, R137). -/
def windowOf (w : Span) : Nat × Nat := ((w.phase1 - w.phase0).toNat, (w.count1 - w.count0).toNat)

/-- `f` = dphi ÷ 2²⁴ × 49152000 ÷ dc, 0.001 Hz (R137). -/
def windowFreq (dphi dc : Nat) : Nat := (roundDiv (dphi * 49152000000 : Nat) (2 ^ 24 * dc)).toNat

/-- Status and value of the burst estimate in the order of R138. -/
def estimateOf (s : State) (r : Run) : FreqStatus × Option Nat :=
  let e := s.runs[r].eng
  if s.runs[r].fe.restarting then (.idle, e.freq)
  else if e.track.clean = false then (.anneal, e.freq)
  else match e.track.span with
    | none => (.nolock, e.freq)
    | some w =>
      let (dphi, dc) := windowOf w
      if freqLimit s r < e.tracked then (.range, some (freqLimit s r))
      else if e.tracked < 500 then (.range, some 500)
      else if dphi < 4 * 2 ^ 24 then (.short, if dc = 0 then e.freq else some (windowFreq dphi dc))
      else (.ok, if dc = 0 then e.freq else some (windowFreq dphi dc))

/-- Peak of the lift path output in the window, 0.001 pC (R137). -/
def windowPeak (s : State) (r : Run) : Nat :=
  (roundDiv (s.runs[r].eng.track.peak * (fastScale s r false / 1000) : Nat) 8388608).toNat

/-- A run at the end of a burst, or of a second in continuous cadence; the next window begins (R60, R137, R138, R147). -/
def endRun (s : State) (r : Run) : RunSt :=
  let x := s.runs[r]
  let (st, f) := estimateOf s r
  let window := if x.fe.restarting then none else x.eng.track.span
  let y := x.modEng fun e => { e with
    status := st, freq := f
    cycles := match window with
      | some w => some (roundDiv ((windowOf w).1 * 1000 : Nat) (2 ^ 24)).toNat
      | none => e.cycles
    amp := if window.isSome then some (windowPeak s r) else e.amp
    count := match window with | some w => w.count1 | none => e.count
    okFreq := match st, f with | .ok, some v => some (v, s.ck.mono) | _, _ => e.okFreq
    track := e.track.window }
  let z := match st, f with
    | .ok, some v => y.modCur fun b => { b with freqs := b.freqs ++ [v] }
    | .range, some v => if v = 8000000 then y.modCur fun b => { b with topped := true } else y
    | _, _ => y
  if window.isSome ∧ measuring s ∧ pget s (rp r 0x40) = 1 then
    { z with threshold := (clampInt 1 250 (roundDiv (pget s (rp r 0x43) * windowPeak s r) 100000)).toNat }
  else z

/-- What the fast domain does after a burst: it runs on in continuous cadence, ends a line pass that is under way, or
sleeps (R57, R62, R65). -/
def passAfterBurst (s : State) : Pass :=
  if s.pw.cad.1 && measuring s then .burst else if linesQuiet s then .asleep else .line

/-- The matrix at rest: it runs only while the fast domain is awake; MON rests at 0 V between bursts (R102, R114), and so do
the electrodes (DESIGN CHOICE, log 93). -/
def Matrix.rest (m : Matrix) : Matrix :=
  { m with sinks := Vector.replicate 18 0, tst := Vector.replicate 4 0, mon := 0 }

/-- The last output of an awake span: packets close short, hammers end, the matrix rests (R114, R169, R189). -/
def closeBurst (s : State) : State :=
  let s1 := flushStreams s
  { s1 with mx := s1.mx.rest, runs := s1.runs.map fun t => { t with recog := endHammer t.recog } }

/-- The rotation vector is zeroed every 10 s in continuous cadence (R173). -/
def turnSecond (s : State) : State :=
  if nowSec s % 10 = 0 then { s with ev := { s.ev with rotVec := Vector.replicate 3 0, rot := some 0 } } else s

/-- BURST_END: one burst length after the wake, or with the second in continuous cadence (R60, R62, R138). -/
def burstEnd (s : State) : State :=
  if s.pw.pass = .burst ∧ s.pw.burstTo ≤ s.ck.mono then
    let s1 := { s with runs := Vector.ofFn fun (r : Fin 4) => endRun s r }
    let s2 := if passAfterBurst s = .burst then turnSecond s1 else closeBurst s1
    refreshOutputs { s2 with pw := { s2.pw with pass := passAfterBurst s, burstTo := burstEndAt s } }
  else s

/-! ## The pilot -/

/-- An element's response is in band (R141). -/
def inBand (s : State) (v : PilotValue) (ref : Option PilotValue) : Bool :=
  match relGain v ref, relPhase v ref with
  | some g, some p => (g - 10000).natAbs ≤ 100 * pnat s 0x5490 && p.natAbs ≤ 10 * pnat s 0x5491
  | _, _ => 1000 ≤ v.gain

/-- Status after a judged result. -/
def judgedStatus (p : Pilot) : PilotStatus :=
  let base : PilotStatus := if p.refLift.isSome && p.refVib.isSome then .ok else .unref
  if 2 ≤ p.badLift ∨ 2 ≤ p.badVib then .loss
  else if p.status = .loss ∧ p.good < 8 then .loss else base

/-- Adds a gain to a day's sum (Table 16.4). -/
def addDayGain (g : Option Int) (x : Nat × Nat) : Nat × Nat :=
  match g with
  | some v => (x.1 + v.toNat, x.2 + 1)
  | none => x

/-- A judged result (R141). -/
def judgePilot (s : State) (lift vib : PilotValue) (p : Pilot) : Pilot :=
  let okL := inBand s lift p.refLift
  let okV := inBand s vib p.refVib
  let q := { p with
    badLift := if okL then 0 else p.badLift + 1
    badVib := if okV then 0 else p.badVib + 1
    good := if okL && okV then p.good + 1 else 0
    day := (addDayGain (relGain lift p.refLift) p.day.1, addDayGain (relGain vib p.refVib) p.day.2) }
  { q with status := judgedStatus q }

/-- Adds a result to a reference average (R140). -/
def addAvg (lift vib : PilotValue) (a : PilotAvg) : PilotAvg :=
  if a.n < 250 then
    { a with n := a.n + 1, liftGain := a.liftGain + lift.gain, liftPhase := a.liftPhase + lift.phase
             vibGain := a.vibGain + vib.gain, vibPhase := a.vibPhase + vib.phase }
  else a

/-- Status of a fast input after a judged result: open at loss of its element's response, and open no more once the pilot
status has left `loss` (R98, R141). DEDUCED, log 94. -/
def openAfter (bad : Nat) (p : PilotStatus) (st : InStatus) : InStatus :=
  if 2 ≤ bad then .opened else if st = .opened ∧ p ≠ .loss then .ok else st

/-- PILOT_RESULT: the oldest window that has ended (R139 ... R141). -/
def pilotResult (r : Run) (s : State) : State :=
  let p := s.runs[r].eng.pilot
  match p.results with
  | [] => s
  | (lift, vib, cut) :: rest =>
    let p1 := { p with lift := some lift, vib := some vib, results := rest }
    if measuring s = false then s
    else if cut then
      s.modRun r fun t => t.modPilot fun _ => { p1 with status := if p.status = .idle then .anneal else p.status }
    else
      let p2 := judgePilot s lift vib p1
      let s1 := (s.modRun r fun t => t.modPilot fun _ => { p2 with avg := p2.avg.map (addAvg lift vib) }).modRun r
        fun t => (t.modCur fun b => { b with loss := b.loss || decide (p2.status = .loss) }).modFe fun f => { f with
          lift := openAfter p2.badLift p2.status f.lift, vib := openAfter p2.badVib p2.status f.vib }
      checkInputs r
        (if p2.status = .loss ∧ p.status ≠ .loss then raiseEvent (0x44 + r.val) (r.val + 1) 0 0 7 0 s1 else s1)

/-- `do pilot.ref run`n (R140). -/
def bodyPilotRef (rq : Req) (args : List String) : Body := fun s => do
  match args with
  | [rt] =>
    let r ← runField rt
    served s "do"
    needMetrology s rq.line
    let a : PilotAvg := ⟨0, 0, 0, 0, 0, lineCode rq.line, (s.line rq.line).role, none⟩
    .ok (s.modRun r fun t => t.modPilot fun p => { p with avg := some a },
      ["ok do pilot.ref " ++ runText r ++ " started"])
  | _ => .error .badForm

/-- PILOT_REF_DONE: the averages become the reference (R140). -/
def pilotRefDone (r : Run) (s : State) : State :=
  let p := s.runs[r].eng.pilot
  match p.avg with
  | some a =>
    if a.n < 250 then s
    else
      let mean := fun (x : Int) => roundDiv x 250
      let l : PilotValue := ⟨(mean a.liftGain).toNat, mean a.liftPhase⟩
      let v : PilotValue := ⟨(mean a.vibGain).toNat, mean a.vibPhase⟩
      let s1 := s.modRun r fun t => t.modPilot fun q => { q with refLift := some l, refVib := some v, avg := none }
      let old := match p.refLift with | some x => x.gain | none => 0
      noteAll (spaced ["pilot.ref", runText r, "stored"])
        (audit 0x0D a.line (roleCode a.role) 0 (rp r 0x320) old l.gain s1)
  | none => s

/-! ## Vibration fit -/

/-- `do matrix.vibfit run`n s (R113). -/
def bodyVibfit (rq : Req) (args : List String) : Body := fun s => do
  match args with
  | [rt, st] =>
    need (parseDec st).isSome .badForm
    let r ← runField rt
    let n ← countField 1 300 st
    served s "do"
    needRole s rq.line .operate
    .ok ({ s with mx := { s.mx with fits := s.mx.fits.set r.val (some (n, s.ck.awake)) r.isLt } },
      ["ok do matrix.vibfit " ++ runText r ++ " started"])
  | _ => .error .badForm

/-- 100 log₁₀(a ÷ b) ≥ k − ½, for a and b above 0. -/
def decibelAtLeast (a b : Nat) (k : Int) : Bool :=
  let e := 2 * k - 1
  if 0 ≤ e then b ^ 200 * 10 ^ e.natAbs ≤ a ^ 200 else b ^ 200 ≤ a ^ 200 * 10 ^ e.natAbs

/-- 10 log₁₀(a ÷ b) in 0.1 dB, to nearest (R113): the largest step between −300.0 and +300.0 dB. -/
def decibelTenths (a b : Nat) : Int := invertFrom (decibelAtLeast a b) 13 (-3000) 3000

/-- VIBFIT_DONE, once the seconds asked for have passed awake: the weight and the reduction (R113). With no vibration at all
the spec gives no weight, and with no residual no reduction (log 13). -/
def vibfitDone (r : Run) (o : VibfitOutcome) (s : State) : State :=
  match s.mx.fits[r], o with
  | some (n, from_), .done lv vv ll =>
    if s.ck.awake < from_ + 1000 * n then s
    else
    let w := if vv ≤ 0 then Config.freeValue (128 * s.ck.mono + r.val)
      else clampInt (-32768) 32767 (roundDiv (-lv * 16384) vv.toNat)
    let num := ll * 268435456
    let rest := num + 2 * w * lv * 16384 + w * w * vv
    let db := if num ≤ 0 ∨ rest ≤ 0 then Config.freeValue (128 * s.ck.mono + 4 + r.val)
      else decibelTenths num.toNat rest.toNat
    noteAll (spaced ["vibfit", runText r, "weight", valueText .gain w, "reduction", decText 1 db])
      { s with mx := { s.mx with fits := s.mx.fits.set r.val none r.isLt } }
  | some _, .fail => if measuring s then checkInputs r s else failFit r "stop" s
  | none, _ => s

/-! ## The annunciator -/

/-- Priority of a pattern (Table 5.2). -/
def beepRank (code : Nat) : Nat := code + 1

/-- Length of a pattern in ms; none where it plays until stopped. -/
def beepLength (code : Nat) : Option Nat :=
  if code = 0 then some 20 else if code = 1 then some 180 else if code = 5 then some 60000 else none

/-- A pattern sounds at a time in ms since it began (Table 5.2). -/
def beepOn (code t : Nat) : Bool :=
  match code with
  | 0 => t < 20
  | 1 => t < 60 || (120 ≤ t && t < 180)
  | 2 => t % 1000 < 200
  | 3 => t % 500 < 250
  | 4 => t % 2000 < 1000
  | _ => t % 2000 < 1000 && t % 200 < 100

/-- What BZR carries (R115). -/
inductive Bzr where
  /-- The square wave of 3276.8 Hz at `beep.level`: high or low. -/
  | tone (high : Bool)
  /-- The matrix sink. -/
  | sink (x : Int)
  /-- A pause of a pattern, or a pattern that runs silently. -/
  | silent
  /-- No pattern plays and the fast domain sleeps: the stage has no power. -/
  | off
  deriving DecidableEq, Repr

/-- BZR: the pattern that plays, silent while muted except a `find` requested from a line; else the matrix sink, which works
only while the fast domain is awake (R115, R117). -/
def bzr (s : State) : Bzr :=
  match s.mx.beep with
  | some (code, fromLine, t) =>
    if beepOn code (s.ck.mono - t) ∧ (pget s 0x5500 = 0 ∨ (code = 5 ∧ fromLine)) then .tone (pget s 0x5501 = 1) else .silent
  | none => if awake s then .sink s.mx.sinks[17] else .off

/-- A request for a pattern, and whether it plays (R116). A machine's request does not replace the equal one that a line made
in the same millisecond, since the line's comes behind the machines'. -/
def requestBeep (code : Nat) (fromLine : Bool) (s : State) : State × Bool :=
  let wins : Bool := match s.mx.beep with
    | some (b, line, t) =>
      decide (beepRank b < beepRank code) || (b = code && !(line && !fromLine && t = s.ck.mono))
    | none => true
  if wins then ({ s with mx := { s.mx with beep := some (code, fromLine, s.ck.mono) } }, true) else (s, false)

/-- `do beep` name (R116). -/
def bodyBeep (rq : Req) (args : List String) : Body := fun s => do
  match args with
  | [name] =>
    let code ← wordField rq.tag.isSome beepNames name
    served s "do"
    needRole s rq.line .operate
    let r := requestBeep code true s
    .ok (r.1, ["ok do beep " ++ if r.2 then beepNames.getD code "" else "dropped"])
  | _ => .error .badForm

/-- `do beep stop` (R116); the row has no further field (log 19). -/
def bodyBeepStop (rq : Req) (args : List String) : Body := fun s => do
  need (args = []) .badForm
  served s "do"
  needRole s rq.line .operate
  .ok ({ s with mx := { s.mx with beep := none } }, ["ok do beep stop"])

/-- BEEP_PATTERN_END (R115). -/
def beepPatternEnd (s : State) : State :=
  match s.mx.beep with
  | some (code, _, t) =>
    match beepLength code with
    | some n => if t + n ≤ s.ck.mono then { s with mx := { s.mx with beep := none } } else s
    | none => s
  | none => s

/-! ## Meanings -/

/-- BURST_WAKE (R62). -/
def execBurstWake (b : Burst) (s : State) : Host.Outcome State Fault Refusal := done (burstWake b s)
/-- BURST_END (R138). -/
def execBurstEnd (_ : Found) (s : State) : Host.Outcome State Fault Refusal := done (burstEnd s)
/-- PILOT_RESULT (R141). -/
def execPilotResult (run : Run) (_ _ : Found) (s : State) : Host.Outcome State Fault Refusal := done (pilotResult run s)
/-- DO_PILOT_REF (R140). -/
def execDoPilotRef (rq : Req) (args : List String) (s : State) : Host.Outcome State Fault Refusal :=
  done (runLine rq "do" (bodyPilotRef rq args) s)
/-- PILOT_REF_DONE (R140). -/
def execPilotRefDone (run : Run) (s : State) : Host.Outcome State Fault Refusal := done (pilotRefDone run s)
/-- DO_MATRIX_VIBFIT (R113). -/
def execDoMatrixVibfit (rq : Req) (args : List String) (s : State) : Host.Outcome State Fault Refusal :=
  done (runLine rq "do" (bodyVibfit rq args) s)
/-- VIBFIT_DONE (R113). -/
def execVibfitDone (run : Run) (o : VibfitOutcome) (s : State) : Host.Outcome State Fault Refusal :=
  done (vibfitDone run o s)
/-- DO_BEEP (R116). -/
def execDoBeep (rq : Req) (args : List String) (s : State) : Host.Outcome State Fault Refusal :=
  done (runLine rq "do" (bodyBeep rq args) s)
/-- DO_BEEP_STOP (R116). -/
def execDoBeepStop (rq : Req) (args : List String) (s : State) : Host.Outcome State Fault Refusal :=
  done (runLine rq "do" (bodyBeepStop rq args) s)
/-- BEEP_PATTERN_END (R115). -/
def execBeepPatternEnd (s : State) : Host.Outcome State Fault Refusal := .next (beepPatternEnd s)

end Sys2Proof.Machine
end

