-- ==== Sys2Proof/Machine/EventEng.lean ====
section
/-! DEFINITION. The event engine (chapter 08): the tick, LEVEL, the state machines and their actions, where events go,
the recognisers, and the commands that edit programs. -/

namespace Sys2Proof.Machine

/-! ## Where events go -/

/-- Name of an event (Table 8.1). -/
def eventName (code : Nat) : String :=
  let runN := fun (b : String) => b ++ ".run" ++ natText (code % 4 + 1)
  if code < 0x14 then runN "hammer"
  else if code = 0x14 then "knock.single" else if code = 0x15 then "knock.double"
  else if code < 0x1C then runN "cadence.on" else if code < 0x20 then runN "cadence.off"
  else if code = 0x20 then "release.fall" else if code < 0x28 then runN "release"
  else if code = 0x28 then "turn.rot" else if code = 0x29 then "turn.tilt"
  else if code < 0x38 then "level.l" ++ natText (code % 8 + 1) ++ ".on"
  else if code < 0x40 then "level.l" ++ natText (code % 8 + 1) ++ ".off"
  else if code = 0x40 then "seal.open" else if code = 0x41 then "seal.close"
  else if code = 0x42 then "keep.knock" else if code = 0x43 then "keep.seal"
  else if code < 0x48 then runN "pilot.loss"
  else if code = 0x48 then "state.run" else if code = 0x49 then "state.safe"
  else "post.m" ++ natText ((code - 0x80) / 8) ++ "." ++ natText (code % 8)

/-- Word 1 of an event packet (Table 8.8). -/
def eventWord (ms : Nat) (e : Event) : Nat :=
  ms * 2 ^ 22 + e.code % 256 * 2 ^ 14 + e.run % 8 * 2 ^ 11 + e.origin % 8 * 2 ^ 8 + e.inst % 256

/-- The ring record of an event (Table 11.5). -/
def eventRecord (e : Event) (s : State) : State :=
  appendRing s 1 e.code (leBytes 4 (eventWord 0 { e with code := 0 }) ++ leInt 4 e.v1 ++ leInt 4 e.v2)

/-- The event's packet; an event that finds the buffer of 64 packets full is lost (R183). -/
def eventPacket (e : Event) (s : State) : State :=
  if 64 ≤ (s.qu.waiters.filter fun w => w.origin = 1).length then { s with ev := { s.ev with lost := s.ev.lost + 1 } }
  else packet s 1 0 [BitVec.ofNat 32 (nowSec s), BitVec.ofNat 32 (eventWord (nowMs s % 1000) e),
    BitVec.ofInt 32 e.v1, BitVec.ofInt 32 e.v2]

/-- `note event` on each line that asks for it (R183). -/
def eventNote (e : Event) (s : State) : State :=
  let text := spaced ["event", eventName e.code, natText e.run, intText e.v1, intText e.v2]
  let s1 := if pget s 0x6008 = 1 then noteTo .host text s else s
  if pget s 0x6009 = 1 then noteTo .service text s1 else s1

/-- The records of the events suppressed so far (R183). -/
def flushRates (s : State) : State :=
  let limit := pnat s 0x600A
  let s1 := s.ev.rates.foldl (fun t q =>
    if limit < q.2 then appendRing t 2 q.1 (leBytes 4 (q.2 - limit)) else t) s
  { s1 with ev := { s1.ev with rateSec := nowSec s, rates := [] } }

/-- The records of suppressed events of a second that has ended (R183). -/
def closeRates (s : State) : State := if s.ev.rateSec = nowSec s then s else flushRates s

/-- The three steps of an event in its tick, at most `event.rate` of one code per second (R183). -/
def publish (s : State) (e : Event) : State :=
  let n := fetch 0 s.ev.rates e.code + 1
  let s1 := { s with ev := { s.ev with rates := store 0 s.ev.rates e.code n } }
  if n ≤ pnat s 0x600A then eventNote e (eventPacket e (eventRecord e s1)) else s1

/-! ## LEVEL -/

/-- A LEVEL instance over one tick, and the event it raises (R175). -/
def levelStep (s : State) (i : Fin 8) : LevelSt × Option Event :=
  let b := 0x6100 + 0x10 * i.val
  let x := s.ev.levels[i]
  let dir := pget s (b + 1)
  if dir = 0 then (⟨false, 0⟩, none)
  else if !sourceOk s (pnat s b) then (x, none)
  else match info (pnat s b) with
    | none => (x, none)
    | some p =>
      match valueRat s p, numOf s p with
      | some (num, den), some raw =>
        let thr := pget s (b + 2)
        let hyst := pget s (b + 3)
        let v := num * 1000
        let opposite : Bool :=
          if dir = 1 then (if x.on then decide (v ≤ (thr - hyst) * den) else decide (thr * den < v))
          else (if x.on then decide ((thr + hyst) * den ≤ v) else decide (v < thr * den))
        if !opposite then ({ x with dwell := 0 }, none)
        else if x.dwell < pnat s (b + 4) then ({ x with dwell := x.dwell + 1 }, none)
        else
          let code := (if x.on then 0x38 else 0x30) + i.val
          (⟨!x.on, 0⟩, some ⟨code, 0, raw, roundDiv (thr * den) 1000, 4, i.val + 1⟩)
      | _, _ => (x, none)

/-! ## State machines -/

/-- Field of a word: n bits from bit k. -/
def bits (w : Word) (k n : Nat) : Nat := w.toNat / 2 ^ k % 2 ^ n

/-- A condition of Table 8.3 on the event set and the state at the tick's first step. -/
def condition (s : State) (set : List Event) (m : StMachine) (cond op : Nat) : Bool :=
  if cond = 1 then true
  else if cond = 2 then set.any fun e => e.code = op
  else if cond = 3 then set.any fun e => e.code / 4 = op / 4
  else if cond = 4 then m.expired[0]
  else if cond = 5 then m.expired[1]
  else if cond = 6 then op ≤ m.cnt
  else if cond = 7 then m.cnt < op
  else if cond = 8 then (if h : 1 ≤ op ∧ op ≤ 8 then s.ev.levels[op - 1].on else false)
  else if cond = 9 then (if h : 1 ≤ op ∧ op ≤ 4 then s.io.di[op - 1].high else false)
  else if cond = 10 then (if h : 1 ≤ op ∧ op ≤ 4 then !s.io.di[op - 1].high else false)
  else if cond = 11 then decide (stateCode s.pw.ms = op)
  else false

/-- The first slot of the current state whose condition holds (R164, R177). -/
def chooseSlot (s : State) (set : List Event) (i : Fin 8) : Option Word :=
  let m := s.ev.machines[i]
  if pget s (0x6200 + 0x10 * i.val) = 0 then none
  else ((List.range 4).map fun k => fetch 0 m.live (m.st * 4 + k)).find? fun w =>
    bits w 31 1 = 1 && condition s set m (bits w 22 4) (bits w 14 8)

/-- Sets a flag of a channel (R180, R209). -/
def setFlag (g : Channel) (flag : Nat) (s : State) : State :=
  s.modChan g fun c => { c with flags := c.flags ||| (1#32 <<< (flag % 32)) }

/-- A pulse of the event engine on output x for a width in ms (R180, R298). -/
def eventPulse (x : Fin 4) (width : Nat) (s : State) : State :=
  if pget s (0x9200 + 0x10 * x.val) = 2 ∧ measuring s then
    s.modPo x fun p => { p with onUntil := some (s.ck.mono + width) }
  else s

/-- Counter after an action of opcode 9h (Table 8.4). -/
def counterAction (w : Word) (cnt : Nat) : Nat :=
  let k := bits w 0 2
  if k = 0 then 0 else if k = 1 then min 255 (cnt + 1) else if k = 2 then cnt - 1 else bits w 8 8

/-- One action word of machine i (Table 8.4). -/
def doAction (i : Fin 8) (s : State) (w : Word) : State :=
  let m := s.ev.machines[i]
  let timer : Fin 2 := if bits w 24 1 = 1 then 1 else 0
  match bits w 28 4 with
  | 1 => { s with ev := { s.ev with posts := s.ev.posts
      ++ [⟨0x80 + 8 * i.val + bits w 0 3, 0, m.cnt, m.st, 5, i.val⟩] } }
  | 2 => appendRing s 3 (bits w 0 16) (leBytes 1 i.val ++ leBytes 1 m.st ++ leBytes 1 m.cnt)
  | 3 => eventPulse ⟨bits w 16 2, Nat.mod_lt _ (by decide)⟩ (bits w 0 16) s
  | 4 => if i = 0 then s.modMachine i fun x => { x with demand := some x.st, demandAt := some s.ck.mono } else s
  | 5 => setFlag ⟨bits w 8 3, Nat.mod_lt _ (by decide)⟩ (bits w 0 5) s
  | 6 =>
    if bits w 8 1 = 0 then (requestBeep (min 5 (bits w 0 4)) false s).1
    else match s.mx.beep with
      | some b => if bits w 0 4 = 15 ∨ bits w 0 4 = b.1 then { s with mx := { s.mx with beep := none } } else s
      | none => s
  | 7 =>
    let ms := bits w 0 20 * (if bits w 23 1 = 1 then 1000 else 1)
    s.modMachine i fun x => { x with timers := x.timers.set timer.val (some (s.ck.mono + ms)) timer.isLt }
  | 8 => s.modMachine i fun x => { x with timers := x.timers.set timer.val none timer.isLt }
  | 9 => s.modMachine i fun x => { x with cnt := counterAction w x.cnt }
  | _ => s

/-- Takes a transition and executes its action words (R164, R177 ... R179). -/
def takeTransition (s : State) (q : Fin 8 × Word) : State :=
  let next := bits q.2 26 5
  let s1 := s.modMachine q.1 fun m => { m with
    st := next, expired := Vector.replicate 2 false
    demand := if m.demand = some m.st ∧ next ≠ m.st then none else m.demand }
  let acts := (List.range (bits q.2 5 3)).filterMap fun k =>
    if bits q.2 8 6 + k < 64 then some (fetch 0 s.ev.machines[q.1].live (128 + bits q.2 8 6 + k)) else none
  acts.foldl (doAction q.1) s1

/-- Resets and adoptions that wait for the tick (R182). -/
def adoptMachine (s : State) (i : Fin 8) : State :=
  let m := s.ev.machines[i]
  if m.adoptNext then s.modMachine i fun x => { x.clear with live := x.draft, adoptNext := false }
  else if m.resetNext then s.modMachine i StMachine.clear
  else s

/-- The fast domain runs ticks, one per millisecond (R164, R181, R198). -/
def ticking (s : State) : Bool :=
  measuring s && (s.pw.pass = .burst || s.pw.pass = .line || s.pw.pass = .event) && decide (s.ev.tickAt ≠ some s.ck.mono)

/-- What follows an event pass: the drain pass that it broke into, a line pass that is under way, or sleep (R57, R181,
R198). -/
def passAfterEvent (s : State) : Pass :=
  if s.qu.lingerFlag && decide (fillOf s.qu ≠ 0) && decide (s.ck.mono < s.qu.drainAt + 20) then .drain
  else if linesQuiet s then .asleep else .line

/-- An event pass over one tick: it ends at one that finds nothing, not before the second, and after 10 ms (R181). -/
def passTick (idle : Bool) (s : State) : State :=
  let (from_, n) := s.ev.passRun
  if s.pw.pass ≠ .event then s
  else if (idle && 1 ≤ n) || from_ + 10 ≤ s.ck.mono then { s with pw := { s.pw with pass := passAfterEvent s } }
  else { s with ev := { s.ev with passRun := (from_, n + 1) } }

/-- The audit entries of the resets that a tick from state `s` made, behind the tick's ring records (R182, R227). -/
def auditResets (s t : State) : State :=
  ((List.finRange 8).filter fun i => s.ev.machines[i].adoptNext || s.ev.machines[i].resetNext).foldl
    (fun u i => auditReset i u) t

/-- EVENT_TICK (R164). -/
def eventTick (s : State) : State :=
  if ticking s then
    let s0 := (List.finRange 8).foldl adoptMachine (closeRates s)
    let lv := Vector.ofFn fun (i : Fin 8) => levelStep s0 i
    let set := s0.ev.raised ++ lv.toList.filterMap (·.2) ++ s0.ev.posts
    let s1 := { s0 with ev := { s0.ev with
      raised := [], posts := [], levels := lv.map (·.1), tickAt := some s.ck.mono } }
    let chosen := (List.finRange 8).filterMap fun i => (chooseSlot s1 set i).map fun w => (i, w)
    let s2 := set.foldl publish s1
    passTick (set = [] && chosen = []) (auditResets s (chosen.foldl takeTransition s2))
  else s

/-- Wakes the fast domain for an event pass; a drain pass, which runs no tick, gives way to it (R181, R198). -/
def wakeEvent (s : State) : State :=
  if measuring s ∧ (s.pw.pass = .asleep ∨ s.pw.pass = .drain) then
    { s with pw := { s.pw with pass := .event }, ev := { s.ev with passRun := (s.ck.mono, 0) } }
  else s

/-- SM_TIMER_EXPIRY (R181). -/
def smTimerExpiry (i : Fin 8) (k : Fin 2) (s : State) : State :=
  match s.ev.machines[i].timers[k] with
  | some t =>
    if t ≤ s.ck.mono then
      wakeEvent (s.modMachine i fun m => { m with timers := m.timers.set k.val none k.isLt
                                                  expired := m.expired.set k.val true k.isLt })
    else s
  | none => s

/-! ## Recognisers -/

/-- A knock of the recogniser, peak in 0.01 g (R168). -/
def recogniseKnock (peak : Nat) (s : State) : State :=
  if measuring s then
    let dead : Bool := match s.ev.knockAt with
      | some t => decide (s.ck.mono < t + pnat s 0x6003)
      | none => false
    if dead then s
    else
      let s1 := wakeEvent { s with ev := { s.ev with knockAt := some s.ck.mono } }
      match s1.ev.knock with
      | some (t, first) =>
        let gap := s1.ck.mono - t
        if gap < pnat s 0x6001 then s1
        else if gap ≤ pnat s 0x6002 then
          raiseEvent 0x15 0 gap peak 0 0 { s1 with ev := { s1.ev with knock := none } }
        else raiseEvent 0x14 0 first 0 0 0 { s1 with ev := { s1.ev with knock := some (s1.ck.mono, peak) } }
      | none => { s1 with ev := { s1.ev with knock := some (s1.ck.mono, peak) } }
  else s

/-- KNOCK: a level above `knock.threshold` is a knock of the recogniser and of comparator KC, which counts in every state
but COLD (Table 3.1, R69, R168). -/
def knockAction (peak : Nat) (s : State) : State :=
  if s.pw.ms = .cold ∨ (peak : Int) ≤ 10 * pget s 0x6000 then s
  else
    let s1 := { s with pw := { s.pw with kcTotal := s.pw.kcTotal + 1, kcFlag := true } }
    if s.pw.ms = .keep then
      { s1 with pw := { s1.pw with kcCount := s1.pw.kcCount + 1
                                   kcFirst := s1.pw.kcFirst.orElse fun _ => some (nowSec s) } }
    else recogniseKnock peak s1

/-- KNOCK_DOUBLE_MAX_RUN_OUT (R168). -/
def knockRunOut (s : State) : State :=
  match s.ev.knock with
  | some (t, peak) =>
    if measuring s ∧ t + pnat s 0x6002 ≤ s.ck.mono then
      raiseEvent 0x14 0 peak 0 0 0 (wakeEvent { s with ev := { s.ev with knock := none } })
    else s
  | none => s

/-- A hammer that begins at a time in µs lies outside the dead time of the last one raised (R169). -/
def hammerFree (s : State) (r : Run) (began : Nat) : Bool :=
  match s.runs[r].recog.hammer with
  | some t => decide (t + 1000 * pnat s (rp r 0x501) ≤ began)
  | none => true

/-- HAMMER: the oldest hammer that has ended on the run's vibration path (R169). -/
def hammerAction (r : Run) (s : State) : State :=
  match s.runs[r].recog.hammers with
  | [] => s
  | (began, peak, micros) :: rest =>
    if measuring s && hammerFree s r began then
      raiseEvent (0x10 + r.val) (r.val + 1) peak micros 0 0
        (s.modRecog r fun c => { c with hammers := rest, hammer := some began })
    else s.modRecog r fun c => { c with hammers := rest }

/-- Regularity in 0.1 %: standard deviation ÷ mean of intervals, to nearest (R170). -/
def regularity (xs : List Nat) : Nat :=
  let n := xs.length
  let sum := xs.sum
  let dev := (xs.map fun (x : Nat) => ((n : Int) * x - sum).natAbs ^ 2).sum
  (invertFrom (fun k => (((2 * k - 1) * (sum : Int)).toNat) ^ 2 * n ≤ 4000000 * dev) 12 0 3000).toNat


/-- cadence.off with the last figures (Table 8.1). -/
def cadenceOff (r : Run) (s : State) : State :=
  if s.runs[r].recog.cadOn then
    let v := s.runs[r].recog.cadence.getD (0, 0)
    raiseEvent (0x1C + r.val) (r.val + 1) v.1 v.2 1 0 (s.modRecog r fun c => { c with cadOn := false })
  else s

/-- A CADENCE instance takes what it has found (R170): an interval that is discarded breaks the train, as one out of range
does. -/
def cadenceTakes (r : Run) (e : CadenceInput) (s : State) : State :=
  if measuring s ∧ pget s (rp r 0x510) ≠ 0 then
    match e with
    | .interval _ false => s.modRecog r fun c => { c with ivls := [] }
    | .interval x true =>
      if x < 1000 * pnat s (rp r 0x512) ∨ 1000 * pnat s (rp r 0x513) < x then
        (cadenceOff r s).modRecog r fun c => { c with ivls := [] }
      else
        let xs := (x :: s.runs[r].recog.ivls).take 8
        let s1 := s.modRecog r fun c => { c with ivls := xs }
        if xs.length < 8 then s1
        else
          let p := (roundDiv (xs.sum : Nat) 8).toNat
          let g := regularity xs
          let band := 10 * pnat s (rp r 0x514)
          let s2 := s1.modRecog r fun c => { c with cadence := some (p, g) }
          if s2.runs[r].recog.cadOn = false ∧ g ≤ band then
            raiseEvent (0x18 + r.val) (r.val + 1) p g 1 0 (s2.modRecog r fun c => { c with cadOn := true })
          else if 2 * band < g then cadenceOff r s2
          else s2
    | .noPulse => (cadenceOff r s).modRecog r fun c => { c with ivls := [] }
  else s

/-- CADENCE: the oldest find of the instance (R170). -/
def cadenceAction (r : Run) (s : State) : State :=
  match s.runs[r].recog.beats with
  | [] => s
  | e :: rest => cadenceTakes r e (s.modRecog r fun c => { c with beats := rest })

/-- RELEASE_FALL: the oldest fall found (R171). -/
def releaseFall (s : State) : State :=
  match s.ev.falls with
  | [] => s
  | (below, lowest) :: rest =>
    let s1 := { s with ev := { s.ev with falls := rest } }
    if measuring s then raiseEvent 0x20 0 below lowest 2 0 { s1 with ev := { s1.ev with fallAt := s.ck.mono } } else s1

/-- 0.1 % of the vibration range's full scale, 10⁻⁶ pC (R172). -/
def releaseFloor (s : State) (r : Run) : Nat := 2000 * 10 ^ pnat s (rp r 0x203)

/-- RELEASE takes the RMS of one second of awake time, 10⁻⁶ pC (R172). -/
def releaseTakes (r : Run) (rms : Nat) (judged : Bool) (s : State) : State :=
  if measuring s ∧ judged then
    let c := s.runs[r].recog
    let high : Bool := c.relRef ≤ 2 * rms
    let fires : Bool := decide (100 * rms < pnat s (rp r 0x520) * c.relRef) && c.relHigh
      && decide (releaseFloor s r < c.relRef)
    let ref := if high then ((c.relRef : Int) + roundDiv ((rms : Int) - c.relRef) 60).toNat else c.relRef
    let s1 := s.modRecog r fun x => { x with relRef := ref, relHigh := high }
    if fires then
      raiseEvent (0x24 + r.val) (r.val + 1) (roundDiv (rms * 1000 : Nat) c.relRef) (roundDiv c.relRef 1000) 2 0 s1
    else s1
  else s

/-- RELEASE: the oldest window that has ended (R172). -/
def releaseAction (r : Run) (s : State) : State :=
  match s.runs[r].recog.windows with
  | [] => s
  | (rms, judged) :: rest => releaseTakes r rms judged (s.modRecog r fun c => { c with windows := rest })

/-- TURN_ROT: the oldest rotation found, 0.1° (R173). -/
def turnRot (s : State) : State :=
  match s.ev.turns with
  | [] => s
  | tenths :: rest =>
    let s1 := { s with ev := { s.ev with turns := rest } }
    if measuring s then raiseEvent 0x28 0 tenths 0 3 0 s1 else s1

/-- Angle between the vector of the last wake and the stored reference, 0.1° (R174). -/
def tiltTenths (a b : Vector Int 3) : Nat :=
  angleBetween ((List.finRange 3).map fun i => a[i] * b[i]).sum (norm2 a) (norm2 b)

/-- The tilt test on an angle in 0.1° (R174). -/
def tiltTakes (tenths : Nat) (s : State) : State :=
  if measuring s then
    let thr := pnat s 0x6030
    let s1 := { s with ev := { s.ev with
      tilt := some tenths
      tiltArmed := if 10 * tenths < 8 * thr then true else if thr < tenths then false else s.ev.tiltArmed } }
    if s.ev.tiltArmed ∧ thr < tenths then raiseEvent 0x29 0 tenths 0 3 0 s1 else s1
  else s

/-- TURN_TILT: the vector of the last wake against the reference; no test without one, or while the axis paths carry no
gravity (R174). -/
def turnTilt (s : State) : State :=
  if s.ev.tiltDue then
    let s1 := { s with ev := { s.ev with tiltDue := false } }
    match s.ev.tiltVec, s.ev.tiltRef with
    | some a, some b => if pget s 0x6F01 = 0 then tiltTakes (tiltTenths a b) s1 else s1
    | _, _ => s1
  else s

/-- `do turn.ref` (R174): the vector of the last wake, or, where no wake has had one, of the next (DESIGN CHOICE,
log 95). -/
def bodyTurnRef (rq : Req) (args : List String) : Body := fun s => do
  need (args = []) .badForm
  served s "do"
  needMetrology s rq.line
  .ok (auditLine rq.line 0x0D 0 0x6032 0 0 { s with ev := { s.ev with
      tiltRef := s.ev.tiltVec.orElse fun _ => s.ev.tiltRef, tiltWait := s.ev.tiltVec.isNone, tiltArmed := true } },
    ["ok do turn.ref"])

/-! ## Programs -/

/-- A transition word as stored (R177). -/
def storedTrans (w : Nat) : Word :=
  let cond := w / 2 ^ 22 % 16
  BitVec.ofNat 32 (w % 2 ^ 32 - w % 32 - if 12 ≤ cond then cond * 2 ^ 22 else 0)

/-- An action word as stored in machine i (R178, Table 8.4). -/
def storedAct (i : Fin 8) (w : Nat) : Word :=
  let f := fun (k n : Nat) => w / 2 ^ k % 2 ^ n
  let op := f 28 4
  let rest : Nat :=
    if op = 1 then f 0 3
    else if op = 2 then f 0 16
    else if op = 3 then f 16 2 * 2 ^ 16 + max 1 (f 0 16)
    else if op = 5 then f 8 3 * 2 ^ 8 + f 0 5
    else if op = 6 then f 8 1 * 2 ^ 8 + if f 8 1 = 0 then min 5 (f 0 4) else f 0 4
    else if op = 7 then f 23 2 * 2 ^ 23 + max 1 (f 0 20)
    else if op = 8 then f 24 1 * 2 ^ 24
    else if op = 9 then f 0 2 + if f 0 2 = 3 then f 8 8 * 2 ^ 8 else 0
    else 0
  if op = 0 ∨ 10 ≤ op ∨ (op = 4 ∧ i ≠ 0) then 0 else BitVec.ofNat 32 (op * 2 ^ 28 + rest)

/-- Seal of a machine's program (R182). -/
def smSeal (i : Fin 8) : Seal := if i = 0 then .s else .m

/-- The word that names a machine. -/
def machineText (i : Fin 8) : String := "m" ++ natText i.val

/-- A word of 32 bits from a hexadecimal field. -/
def wordOf (t : String) : Except Reason Nat := do
  let n ← hexField t
  .ok (min n (2 ^ 32 - 1))

/-- `do sm.word m`N s t word (R182). -/
def bodySmWord (rq : Req) (args : List String) : Body := fun s => do
  match args with
  | [mt, st, tt, wt] =>
    need ((parseDec st).isSome && (parseDec tt).isSome && (parseHex wt).isSome) .badForm
    let i ← machineField mt
    let a ← countField 0 31 st
    let b ← countField 0 3 tt
    let w ← wordOf wt
    served s "do"
    need (sealOk s rq.line (smSeal i)) .noRole
    let v := storedTrans w
    .ok (s.modMachine i fun m => { m with draft := store 0 m.draft (a * 4 + b) v },
      [spaced ["ok do sm.word", machineText i, natText a, natText b, hexText 8 v.toNat]])
  | _ => .error .badForm

/-- `do sm.act m`N i word (R182). -/
def bodySmAct (rq : Req) (args : List String) : Body := fun s => do
  match args with
  | [mt, it, wt] =>
    need ((parseDec it).isSome && (parseHex wt).isSome) .badForm
    let i ← machineField mt
    let a ← countField 0 63 it
    let w ← wordOf wt
    served s "do"
    need (sealOk s rq.line (smSeal i)) .noRole
    let v := storedAct i w
    .ok (s.modMachine i fun m => { m with draft := store 0 m.draft (128 + a) v },
      [spaced ["ok do sm.act", machineText i, natText a, hexText 8 v.toNat]])
  | _ => .error .badForm

/-- `do sm.factory m`N (R182). -/
def bodySmFactory (rq : Req) (args : List String) : Body := fun s => do
  match args with
  | [mt] =>
    let i ← machineField mt
    served s "do"
    need (sealOk s rq.line (smSeal i)) .noRole
    .ok (s.modMachine i fun m => { m with draft := shippedProgram i.val }, ["ok do sm.factory " ++ machineText i])
  | _ => .error .badForm

/-- `do sm.reset m`N (R182). -/
def bodySmReset (rq : Req) (args : List String) : Body := fun s => do
  match args with
  | [mt] =>
    let i ← machineField mt
    served s "do"
    need (sealOk s rq.line (smSeal i)) .noRole
    .ok (s.modMachine i fun m => { m with resetNext := true }, ["ok do sm.reset " ++ machineText i])
  | _ => .error .badForm

/-! ## Meanings -/

/-- EVENT_TICK (R164). -/
def execEventTick (s : State) : Host.Outcome State Fault Refusal := done (eventTick s)
/-- SM_TIMER_EXPIRY (R181). -/
def execSmTimerExpiry (m : Fin 8) (timer : Fin 2) (s : State) : Host.Outcome State Fault Refusal :=
  .next (smTimerExpiry m timer s)
/-- KNOCK (R168). -/
def execKnock (peakCentiG : Nat) (s : State) : Host.Outcome State Fault Refusal := .next (knockAction peakCentiG s)
/-- KNOCK_DOUBLE_MAX_RUN_OUT (R168). -/
def execKnockDoubleMaxRunOut (s : State) : Host.Outcome State Fault Refusal := .next (knockRunOut s)
/-- HAMMER (R169). -/
def execHammer (run : Run) (_ _ : Found) (s : State) : Host.Outcome State Fault Refusal := .next (hammerAction run s)
/-- CADENCE (R170). -/
def execCadence (run : Run) (_ : Found) (s : State) : Host.Outcome State Fault Refusal := .next (cadenceAction run s)
/-- RELEASE_FALL (R171). -/
def execReleaseFall (_ _ : Found) (s : State) : Host.Outcome State Fault Refusal := .next (releaseFall s)
/-- RELEASE (R172). -/
def execRelease (run : Run) (_ _ : Found) (s : State) : Host.Outcome State Fault Refusal := .next (releaseAction run s)
/-- TURN_ROT (R173). -/
def execTurnRot (_ : Found) (s : State) : Host.Outcome State Fault Refusal := .next (turnRot s)
/-- TURN_TILT (R174). -/
def execTurnTilt (_ : Found) (s : State) : Host.Outcome State Fault Refusal := .next (turnTilt s)
/-- DO_TURN_REF (R174). -/
def execDoTurnRef (rq : Req) (args : List String) (s : State) : Host.Outcome State Fault Refusal :=
  done (runLine rq "do" (bodyTurnRef rq args) s)
/-- DO_SM_WORD (R182). -/
def execDoSmWord (rq : Req) (args : List String) (s : State) : Host.Outcome State Fault Refusal :=
  done (runLine rq "do" (bodySmWord rq args) s)
/-- DO_SM_ACT (R182). -/
def execDoSmAct (rq : Req) (args : List String) (s : State) : Host.Outcome State Fault Refusal :=
  done (runLine rq "do" (bodySmAct rq args) s)
/-- DO_SM_FACTORY (R182). -/
def execDoSmFactory (rq : Req) (args : List String) (s : State) : Host.Outcome State Fault Refusal :=
  done (runLine rq "do" (bodySmFactory rq args) s)
/-- DO_SM_RESET (R182). -/
def execDoSmReset (rq : Req) (args : List String) (s : State) : Host.Outcome State Fault Refusal :=
  done (runLine rq "do" (bodySmReset rq args) s)

end Sys2Proof.Machine
end

