-- ==== Sys2Proof/Machine/Drive.lean ====
section
/-! DEFINITION. The demand limiter, forces, read-back, pulses and valve feedback (R288 ... R302). -/

namespace Sys2Proof.Machine

/-! ## Valve feedback -/

/-- An input of a function serves output x and is high: its feedback time in ms (R299, R300). -/
def switchHigh (s : State) (x : Fin 4) (fn : Int) : Option Nat :=
  ((List.finRange 4).find? fun d =>
    let b := 0x9300 + 0x10 * d.val
    decide (pget s b = fn ∧ pget s (b + 1) = x.val + 1) && s.io.di[d].high).map fun d =>
      1000 * pnat s (0x9303 + 0x10 * d.val)

/-- The contradiction between the switches and the output: cause and persistence in ms (R300). -/
def valveFault (s : State) (x : Fin 4) : Option (Nat × Nat) :=
  if pget s (coBase x + 0x20) = 0 then none
  else
    let u := codePosition s x s.io.co[x].code
    match switchHigh s x 3, switchHigh s x 2 with
    | some _, some _ => some (3, 0)
    | some t, none => if 5000000 < u then some (1, t) else none
    | none, some t => if u < 95000000 then some (2, t) else none
    | none, none => none

/-- Word of a valve cause. -/
def valveWord (cause : Nat) : String := if cause = 1 then "closed" else if cause = 2 then "open" else "both"

/-- Watches the valve of output x: a contradiction starts its time, and a discrepancy is noted once (R300). -/
def valveCheck (x : Fin 4) (s : State) : State :=
  match valveFault s x with
  | none => s.modCo x fun c => { c with valve := 0, valveFrom := none }
  | some (cause, persist) =>
    let since := match s.io.co[x].valveFrom with
      | some (k, t) => if k = cause then t else s.ck.mono
      | none => s.ck.mono
    let s1 := s.modCo x fun c => { c with valveFrom := some (cause, since) }
    if s.io.co[x].valve = 0 ∧ since + persist ≤ s.ck.mono then
      moduleNote (noteAll (spaced ["valve co" ++ natText (x.val + 1), valveWord cause])
        (s1.modCo x fun c => { c with valve := cause })) 0x19 (leBytes 1 (x.val + 1) ++ leBytes 1 cause)
    else s1

/-- All valves. -/
def valveChecks (s : State) : State := (List.finRange 4).foldl (fun t x => valveCheck x t) s

/-! ## The demand limiter -/

/-- First invalid condition of R292: 1 frequency, 2 pilot, 3 pressure, 4 temperature, 0 no density and enthalpy yet;
and the rate where it is valid: 0.001 kg/h or 0.001 MJ/h. -/
def controlRate (s : State) (r : Run) (energy : Bool) (f : Nat) : Except Nat Int :=
  let t := s.runs[r]
  let e := t.eng
  let stopped : Bool := e.status = .nolock && (match t.qty.last with
    | some b => decide (100 * b.n < pnat s (rp r 0x405))
    | none => false)
  if e.status ≠ .ok ∧ e.status ≠ .short ∧ e.status ≠ .range ∧ stopped = false then .error 1
  else if stopped then .ok 0
  else if e.pilot.status = .loss then .error 2
  else if shownStatus s r t.fe.press.status ≠ .ok then .error 3
  else if shownStatus s r t.fe.temp.status ≠ .ok then .error 4
  else match t.qty.rhoH with
    | none => .error 0
    | some (rho, h) =>
      let kc := (correctedK s r f).1
      .ok (if energy then roundDiv ((f : Int) * rho * 360 * (h - pget s (rp r 0x406))) (kc * 1000000).toNat
        else roundDiv ((f : Int) * rho * 360) kc.toNat)

/-- A position of 0.1 % steps in 10⁻⁶ %. -/
def tenthPercent (v : Int) : Int := v * 100000

/-- Limits of u (R293). -/
def limMin (s : State) (x : Fin 4) : Int := tenthPercent (pget s (coBase x + 0x34))
def limMax (s : State) (x : Fin 4) : Int := tenthPercent (pget s (coBase x + 0x35))

/-- Moves `old` toward `target` by at most slew × Ts (R293). -/
def slewed (s : State) (x : Fin 4) (old target : Int) : Int :=
  let d := 10000 * pget s (coBase x + 0x36)
  clampInt (old - d) (old + d) target

/-- One valid update of a limiter that holds its output (R293). -/
def limiterRun (s : State) (x : Fin 4) (r : Int) (c : Co) : Co :=
  let b := coBase x
  let ceil := pget s (b + 0x31)
  let p := limiterP s x r
  let i1 := c.i + roundDiv (pget s (b + 0x32) * (ceil - r) * 1000000) (ceil * pget s (b + 0x33)).toNat
  let i2 := if limMax s x < p + i1 then limMax s x - p else i1
  let i3 := if p + i2 < limMin s x then limMin s x - p else i2
  { c with i := i3, u := slewed s x c.u (p + i3), lim := .run, invalid := 0 }

/-- The limiter takes the position that the present current represents (R294). -/
def takeOver (s : State) (x : Fin 4) (r : Int) (c : Co) : Co :=
  let u := clampInt (limMin s x) (limMax s x) (codePosition s x c.code)
  { c with u := u, i := u - limiterP s x r, takeOver := false, lim := .run, invalid := 0 }

/-- An invalid update (R295); the flag tells an entry into `fail`. -/
def limiterInvalid (s : State) (x : Fin 4) (c : Co) : Co × Bool :=
  let b := coBase x
  let n := c.invalid + 1
  if 10 * pnat s (b + 0x37) < n ∧ pget s (b + 0x38) = 1 then
    ({ c with invalid := n, lim := .fail, rate := none, u := slewed s x c.u (tenthPercent (pget s (b + 0x39))) },
      decide (c.lim ≠ .fail))
  else ({ c with invalid := n, lim := .hold, rate := none }, false)

/-- Orders 1 … 3 of Table 14.2 hold the output. -/
def outputHeld (s : State) (x : Fin 4) : Bool := s.pw.ms ≠ .run || s.io.co[x].force.isSome

/-- The run of output x. -/
def coEng (s : State) (x : Fin 4) : EngineRun := s.runs[x].eng

/-- The tracker frequency over the last 100 ms, 0.001 Hz: phase and count since the last update (R137, R292). At a first
update, and where no clock has passed, it is the tracked frequency: DESIGN CHOICE, log 20. -/
def limiterFreq (s : State) (x : Fin 4) : Nat :=
  match s.io.co[x].mark with
  | some (t, phase, count) =>
    let dc := (s.en.count - count).toNat
    if s.ck.mono ≤ t + 101 ∧ 0 < dc then windowFreq ((coEng s x).phase - phase).toNat dc else (coEng s x).tracked
  | none => (coEng s x).tracked

/-- LIMITER_UPDATE: on the tenths of a second in continuous awake time (R292 ... R295, R301). -/
def limiterUpdate (x : Fin 4) (s0 : State) : State :=
  if measuring s0 ∧ pget s0 (coBase x + 0x20) = 3 ∧ s0.pw.pass = .burst ∧ nowMs s0 % 100 = 0 then
    let s := s0.modCo x fun c => { c with mark := some (s0.ck.mono, (coEng s0 x).phase, s0.en.count) }
    let energy : Bool := pget s (coBase x + 0x30) = 1
    let c := s.io.co[x]
    match controlRate s x energy (limiterFreq s0 x) with
    | .ok r =>
      let c1 := { c with rate := some r }
      let c2 := if outputHeld s x then { takeOver s x r c1 with takeOver := true, lim := c.lim }
        else if c.takeOver ∨ c.lim = .hold ∨ c.lim = .fail then takeOver s x r c1
        else limiterRun s x r c1
      valveCheck x (refreshCo x (s.modCo x fun _ => c2))
    | .error cause =>
      if outputHeld s x then refreshCo x (s.modCo x fun y => { y with rate := none })
      else
        let q := limiterInvalid s x c
        let s1 := refreshCo x (s.modCo x fun _ => q.1)
        let s2 := if q.2 then
            moduleNote (noteAll ("lim co" ++ natText (x.val + 1) ++ " fail") s1) 0x1A
              (leBytes 1 (x.val + 1) ++ leBytes 1 cause)
          else s1
        valveCheck x s2
  else s0

/-! ## Forces and read-back -/

/-- The name of a current output. -/
def coText (x : Fin 4) : String := "co" ++ natText (x.val + 1)

/-- `do co.force co`x mA s (R302). -/
def bodyCoForce (rq : Req) (args : List String) : Body := fun s => do
  match args with
  | [ct, mt, st] =>
    need ((parseDec mt).isSome && (parseDec st).isSome) .badForm
    let x ← coField ct
    let ua ← decField 3 3600 21500 mt
    let sec ← countField 1 600 st
    served s "do"
    need (s.pw.ms = .run) .badState
    needRole s rq.line .operate
    let s1 := s.modCo x fun c => { c with force := some (maCode ua 1000, s.ck.mono + 1000 * sec) }
    .ok (refreshCo x (auditLine rq.line 0x0D 0 (coBase x + 0x26) 0 ua s1),
      [spaced ["ok do co.force", coText x, decText 3 ua, natText sec]])
  | _ => .error .badForm

/-- `do co.force co`x `end` (R302); the field is the output (log 19). -/
def bodyCoForceEnd (rq : Req) (args : List String) : Body := fun s => do
  match args with
  | [ct] =>
    let x ← coField ct
    served s "do"
    need (s.pw.ms = .run) .badState
    needRole s rq.line .operate
    .ok (endForce (lineCode rq.line) (roleCode (s.line rq.line).role) x s,
      [spaced ["ok do co.force", coText x, "end"]])
  | _ => .error .badForm

/-- FORCE_EXPIRY (R302). -/
def forceExpiry (x : Fin 4) (s : State) : State :=
  match s.io.co[x].force with
  | some f => if f.2 ≤ s.ck.mono then endForce 0 0 x s else s
  | none => s

/-- A read-back is below 50 % of a commanded current above 1 mA (R290). -/
def readsOpen (s : State) (x : Fin 4) (microAmp : Nat) : Bool :=
  let want := codeMicroAmp s.io.co[x].code
  decide (1000 < want) && decide (2 * microAmp < want)

/-- CO_READBACK: a read-back that has stood on its side of the limit for 100 ms of awake time (R290). -/
def coReadback (x : Fin 4) (microAmp stood : Nat) (s : State) : State :=
  if measuring s ∧ 100 ≤ stood then
    let bad := readsOpen s x microAmp
    refreshCo x (s.modCo x fun c => { c with loopOpen := bad })
  else s

/-! ## Pulses -/

/-- A pulse may start: the last one and its gap are over (R297). -/
def pulseFree (s : State) (x : Fin 4) : Bool := decide (s.io.po[x].free ≤ s.ck.mono)

/-- A backlog of output x has not been noted within the last minute (R297). -/
def backlogDue (s : State) (x : Fin 4) : Bool :=
  match s.io.po[x].noted with
  | some t => t + 60000 ≤ s.ck.mono
  | none => true

/-- Pending beyond 10 s of the maximum rate is noted once per minute (R297). -/
def noteBacklog (x : Fin 4) (s : State) : State :=
  let n := poPending s x
  if 5000 < n * pnat s (0x9204 + 0x10 * x.val) ∧ backlogDue s x then
    noteAll (spaced ["po" ++ natText (x.val + 1), "backlog", natText n])
      (s.modPo x fun p => { p with noted := some s.ck.mono })
  else s

/-- PULSE_ISSUE: RUN and SAFE, mode `total`, with pulses pending (R296 ... R298). -/
def pulseIssue (x : Fin 4) (s : State) : State :=
  if measuring s ∧ pget s (0x9200 + 0x10 * x.val) = 1 ∧ 0 < poPending s x ∧ pulseFree s x then
    let s1 := noteBacklog x s
    let w := pnat s (0x9204 + 0x10 * x.val)
    s1.modPo x fun p => { p with issued := p.issued + 1, onUntil := some (s.ck.mono + w), free := s.ck.mono + 2 * w }
  else s

/-- LIMITER_UPDATE (R293). -/
def execLimiterUpdate (x : Fin 4) (_ : Found) (s : State) : Host.Outcome State Fault Refusal := done (limiterUpdate x s)
/-- DO_CO_FORCE (R302). -/
def execDoCoForce (rq : Req) (args : List String) (s : State) : Host.Outcome State Fault Refusal :=
  done (runLine rq "do" (bodyCoForce rq args) s)
/-- DO_CO_FORCE_END (R302). -/
def execDoCoForceEnd (rq : Req) (args : List String) (s : State) : Host.Outcome State Fault Refusal :=
  done (runLine rq "do" (bodyCoForceEnd rq args) s)
/-- FORCE_EXPIRY (R302). -/
def execForceExpiry (x : Fin 4) (s : State) : Host.Outcome State Fault Refusal := done (forceExpiry x s)
/-- CO_READBACK (R290). -/
def execCoReadback (x : Fin 4) (back : Readback) (s : State) : Host.Outcome State Fault Refusal :=
  .next (coReadback x back.microAmp back.stood s)
/-- PULSE_ISSUE (R297). -/
def execPulseIssue (x : Fin 4) (s : State) : Host.Outcome State Fault Refusal := done (pulseIssue x s)
/-- VALVE_DISCREPANCY (R299, R300): the inputs are sampled in every state but COLD and KEEP on the backup cell. -/
def execValveDiscrepancy (x : Fin 4) (s : State) : Host.Outcome State Fault Refusal :=
  done (if s.pw.supply && s.pw.ms ≠ .cold then valveCheck x s else s)

end Sys2Proof.Machine
end

