-- ==== Sys2Proof/Machine/SafeFn.lean ====
section
/-! DEFINITION. The line-isolation safety function (R304 ... R318) and the sampled inputs (R299, R315, R358). -/

namespace Sys2Proof.Machine

def State.modSafe (s : State) (f : Safe → Safe) : State := { s with sf := f s.sf }

/-- A cause of Table 15.1 that has arisen: its run (0 for none), value and limit. -/
structure Fired where
  code : Nat
  run : Nat
  value : Int
  limit : Int
  deriving DecidableEq, Repr

/-- First safety parameter of a run. -/
def safeBase (r : Run) : Nat := 0xA100 + 0x10 * r.val

/-- Limit and band of a judged input (R304, R316). -/
def tapLimit (s : State) (r : Run) (temp : Bool) : Int := pget s (safeBase r + if temp then 4 else 2)
def tapBand (s : State) (r : Run) (temp : Bool) : Int := pget s (safeBase r + if temp then 5 else 3)

/-- Judgement of an input; an input that is not armed holds none. -/
def judgedOf (s : State) (r : Run) (temp : Bool) : Judged :=
  if armed s r temp then (if temp then s.sf.temp[r] else s.sf.press[r]) else ⟨0, []⟩

/-- A result of status ok or range is judged by its value; another status is none of the limit's (R304). -/
def judgeTap (s : State) (t : Tap) : State × Option Fired :=
  let j := judgedOf s t.run t.temp
  let lim := tapLimit s t.run t.temp
  let counts : Bool := t.status = .ok || t.status = .range
  let count := if counts then (if lim ≤ t.value then j.count + 1 else 0) else j.count
  let fresh := j.recent.filter fun q => s.ck.mono < q.1 + 1000
  let recent := if t.status = .ok then (s.ck.mono, decide (t.value ≤ lim - tapBand s t.run t.temp)) :: fresh else fresh
  let j1 : Judged := ⟨count, recent⟩
  let s1 := s.modSafe fun f =>
    if t.temp then { f with temp := f.temp.set t.run.val j1 t.run.isLt }
    else { f with press := f.press.set t.run.val j1 t.run.isLt }
  let tooMuch : Bool := counts && decide (lim ≤ t.value) && decide (pnat s 0xA005 ≤ count)
  (s1, if tooMuch ∧ armed s t.run t.temp then
      some ⟨(if t.temp then 5 else 1) + t.run.val, t.run.val + 1, t.value, lim⟩ else none)

/-- Judges the tap results in order. -/
def judgeTaps (s : State) : State × List Fired :=
  s.sf.taps.foldl (fun acc t =>
    let q := judgeTap acc.1 t
    (q.1, acc.2 ++ q.2.toList)) (s.modSafe fun f => { f with taps := [] }, [])

/-- The demand line of M0 under `safety.m0.arm` (Table 15.1, 09h). -/
def m0Demand (s : State) : List Fired :=
  if s.ev.machines[0].demand.isSome && decide (pget s 0xA006 = 1) then [⟨9, 0, 0, 0⟩] else []

/-- Diagnostics of one armed input by its status in awake time (Table 15.3: 29h, 2Ah, 2Bh, 2Dh). -/
def inputDiag (s : State) (r : Run) (temp : Bool) : List Nat :=
  let fe := s.runs[r].fe
  let x := if temp then fe.temp else fe.press
  let st := x.status
  let stuck := alternating s r temp && stuckPolarity (slowScale s r temp) x.convs
  if armed s r temp then
    (if st = .clip ∨ stuck then [0x29] else [])
    ++ (if st = .opened ∨ st = .short ∨ st = .lead then [if temp then 0x2A else 0x2B] else [])
    ++ (if s.pw.pass = .burst ∧ (st = .idle ∨ fe.restarting = true) then [0x2D] else [])
  else []

/-- The burst watchdog: an armed input has given no tap result by its wake + 5 ms (Table 15.3, 24h). -/
def watchdogDiag (s : State) : List Nat :=
  if s.sf.wakeAt + 5 ≤ s.ck.mono ∧ s.sf.tapDue.any (fun q => armed s q.1 q.2) then [0x24] else []

/-- Diagnostics that the module's own state shows (Table 15.3). -/
def ownDiags (s : State) : List Nat :=
  watchdogDiag s
  ++ allRuns.flatMap (fun r => inputDiag s r false ++ inputDiag s r true)
  ++ (if pget s 0xA006 = 1 ∧ allRuns.any (fun r => s.runs[r].eng.pilot.status = .loss) then [0x2C] else [])

/-- Codes in rising order, once each. -/
def insertCode (c : Nat) : List Nat → List Nat
  | [] => [c]
  | x :: xs => if c = x then x :: xs else if c < x then c :: x :: xs else x :: insertCode c xs

def codeSet (cs : List Nat) : List Nat := cs.foldl (fun l c => insertCode c l) []

/-- Codes that stand until the next START (R311). -/
def stickyCodes : List Nat := [0x20, 0x21, 0x22, 0x2E]

/-- A cause with its diagnostic detail, which the spec does not state (Table 15.4, log 13). -/
def diagFired (s : State) (code : Nat) : Fired :=
  ⟨code, 0, Config.freeValue (128 * s.ck.mono + 2 * code), Config.freeValue (128 * s.ck.mono + 2 * code + 1)⟩

/-- First cause of each code, in code order. -/
def orderFired (fs : List Fired) : List Fired :=
  (codeSet (fs.map (·.code))).filterMap fun c => fs.find? fun f => f.code = c

/-- The note of a cause (R312): `safety demand` with its word, run, value and limit, or `safety fault` with its code. -/
def firedText (f : Fired) : String :=
  if f.code ≤ 4 then spaced ["safety demand press run" ++ natText f.run, decText 2 f.value, decText 2 f.limit]
  else if f.code ≤ 8 then spaced ["safety demand temp run" ++ natText f.run, decText 3 f.value, decText 3 f.limit]
  else if f.code = 9 then "safety demand m0 - - -"
  else "safety fault " ++ hexText 2 f.code

/-- Module note of a cause (R312, R313, Table 15.4). -/
def recordFired (number : Nat) (f : Fired) (s : State) : State :=
  moduleNote s number (leBytes 1 f.code ++ leBytes 1 f.run ++ leInt 4 f.value ++ leInt 4 f.limit)

/-- Note of causes (R312). -/
def sayFired (fs : List Fired) (s : State) : State := fs.foldl (fun t f => noteAll (firedText f) t) s

/-- Adds causes to a SAFE, each once, with their module notes (R313), and gives those that were new. -/
def addCauses (fs : List Fired) (s : State) : State × List Fired :=
  fs.foldl (fun q f =>
    if f.code ∈ q.1.sf.causes then q
    else (recordFired 0x1C f (q.1.modSafe fun x => { x with causes := insertCode f.code x.causes }), q.2 ++ [f])) (s, [])

/-- Further causes in a SAFE that stands (R313). -/
def furtherCauses (fs : List Fired) (s : State) : State :=
  let q := addCauses fs s
  sayFired q.2 q.1

/-- Enters SAFE on its first cause (R304, R312): latch, coils, outputs, notes, and the ledger's in the order of R227: the
ring notes ahead of the transition's audit entry. The time to open mirror contacts is open within 1 ms and the 20 ms of
R314 (log 13). -/
def enterSafe (f : Fired) (rest : List Fired) (s : State) : State :=
  let trip : Nat := (Config.freeValue (128 * s.ck.mono + 8)).toNat % 22
  let s1 := s.modSafe fun x => { x with
    latch := true, causes := [f.code], since := nowSec s, tripMs := if x.coil then some trip else x.tripMs }
  let q := addCauses rest (recordFired 0x1B f s1)
  sayFired (f :: q.2) (moveTo .safe 0 0 .safety q.1)

/-- The latest transition was caused in this millisecond, with a rank of R26. -/
def sameTick (s : State) (rank : Nat) : Bool := s.pw.lastCause = (rank, s.ck.mono)

/-- The latch is set beside a supply loss of the same millisecond, on the causes found (R26). -/
def latchAtLoss (causes : List Nat) (s : State) : State :=
  if causes = [] then s
  else s.modSafe fun x => { x with latch := true, causes := codeSet (x.causes ++ causes), atLoss := [] }

/-- A supply loss of this millisecond waits in the queue (log 2). -/
def lossWaits (s : State) : Bool := s.pw.supply && s.pending.any fun i => i = .supplyLoss

/-- What causes do in the module's state (R26, R304, R313): beside a supply loss of the same millisecond they set the
latch alone, as the module takes the loss. -/
def actOnCauses (fs : List Fired) (s : State) : State :=
  match fs with
  | [] => s
  | f :: rest =>
    let codes := fs.map (·.code)
    match s.pw.ms with
    | .run => if lossWaits s then s.modSafe fun x => { x with atLoss := codeSet (x.atLoss ++ codes) } else enterSafe f rest s
    | .safe => furtherCauses fs s
    | .stop | .start | .held => (fs.filter fun q => q.code ≤ 8).foldl (fun t q => noteAll (firedText q) t) s
    | .keep | .cold => if sameTick s 1 then latchAtLoss codes s else s

/-- SAFETY_JUDGEMENT with the diagnostics that the hardware reports (R304, R307, R310, R311). -/
def safetyJudgement (given : List Nat) (s : State) : State :=
  let q := judgeTaps s
  let s1 := q.1
  let hw := given.filter fun c => decide (0x20 ≤ c ∧ c ≤ 0x2E)
  let active : Bool := measuring s1 || sameTick s1 1
  let diags := if active then codeSet (hw ++ s1.sf.sticky ++ ownDiags s1) else []
  let s2 := s1.modSafe fun f => { f with
    standing := diags
    sticky := if active then codeSet (f.sticky ++ hw.filter fun c => c ∈ stickyCodes) else f.sticky }
  actOnCauses (orderFired (q.2 ++ m0Demand s2 ++ diags.map (diagFired s2))) s2

/-- WELDED_CONTACT (R314): code 2Eh, and the contact reads `welded`. -/
def weldedContact (relay : Relay) (s : State) : State :=
  if fastOn s || sameTick s 1 then
    let s1 := s.modSafe fun f => { f with
      welded := match relay with | .a => (true, f.welded.2) | .b => (f.welded.1, true)
      sticky := codeSet (0x2E :: f.sticky), standing := codeSet (0x2E :: f.standing)
      tripMs := if s.pw.ms = .safe then none else f.tripMs }
    if measuring s1 || sameTick s1 1 then actOnCauses [diagFired s1 0x2E] s1 else s1
  else s

/-- EVALUATOR_RESTART (R311): a failed self-check keeps the cause standing. -/
def evaluatorRestart (passed : Bool) (s : State) : State :=
  if passed ∨ (fastOn s = false ∧ sameTick s 1 = false) then s
  else
    let code := if 0x21 ∈ s.sf.sticky ∧ 0x20 ∉ s.sf.sticky then 0x21 else 0x20
    let s1 := s.modSafe fun f => { f with sticky := codeSet (code :: f.sticky), standing := codeSet (code :: f.standing) }
    if measuring s1 || sameTick s1 1 then actOnCauses [diagFired s1 code] s1 else s1

/-! ## Reset -/

/-- Ten ok results of an armed input within the last second, each at or below limit minus band (R316). -/
def inputClear (s : State) (r : Run) (temp : Bool) : Bool :=
  if armed s r temp then
    let xs := (judgedOf s r temp).recent.filter fun q => s.ck.mono < q.1 + 1000
    decide (10 ≤ xs.length) && xs.all (·.2)
  else true

/-- M0 has placed a demand within the last second (R316). -/
def freshDemand (s : State) : Bool :=
  decide (pget s 0xA006 = 1) && match s.ev.machines[0].demandAt with
    | some t => decide (s.ck.mono < t + 1000)
    | none => false

/-- The conditions of R316. -/
def resetOk (s : State) : Bool :=
  allRuns.all (fun r => inputClear s r false && inputClear s r true)
    && s.sf.standing = [] && s.sf.sticky = [] && !freshDemand s && s.cm.wait.isNone

/-- The first standing cause (R316). -/
def firstCause (s : State) : Nat := s.sf.causes.headD 0

/-- A reset request in SAFE from a source of Table 15.4, with line and role for the audit: whether it was accepted. -/
def resetRequest (source line role : Nat) (s : State) : State × Bool :=
  if resetOk s then
    let s0 := moduleNote s 0x1D (leBytes 1 source ++ leBytes 4 (nowSec s - s.sf.since))
    let s1 := if pget s 0xA006 = 1 then resetMachine 0 s0 else s0
    let s2 := autoChannels (moveTo .run line role .reset (s1.modSafe fun f => { f with latch := false, causes := [] }))
    (noteAll "safety reset" s2, true)
  else
    (noteAll ("safety refused " ++ hexText 2 (firstCause s))
      (moduleNote s 0x1E (leBytes 1 source ++ leBytes 1 (firstCause s))), false)

/-- `do safety.reset` (R315, R316). -/
def bodySafetyReset (rq : Req) (args : List String) : Body := fun s => do
  need (args = []) .badForm
  served s "do"
  need (s.pw.ms = .safe) .badState
  need (pget s 0xA004 = 1) .noRole
  needRole s rq.line .operate
  let q := resetRequest (lineCode rq.line + 1) (lineCode rq.line) (roleCode (s.line rq.line).role) s
  .ok (q.1, [if q.2 then "ok do safety.reset" else "no state"])

/-! ## Confirmation -/

/-- Confirms the waiting set: it is scheduled, noted and audited (R317, R318). -/
def confirmSet (w : WaitSet) (s : State) : State :=
  let s1 := { s with cm := { s.cm with wait := none } }
  let s2 := schedule w.set.members (some w.line) s1
  let s3 := if w.set.cls = .i then noteCommit (some w.line) w.set.members.length s2 else s2
  let after := w.set.members.foldl (fun p m => pStore p m.param m.value) s3.cm.params
  let crc := safetyCrc { s3 with cm := { s3.cm with params := after } }
  audit 0x10 (lineCode w.line) (roleCode (s.line w.line).role) 1 0 0 crc.toNat
    (moduleNote s3 0x1F (leBytes 1 1 ++ leBytes 1 w.set.members.length ++ leBytes 4 crc.toNat))

/-- `do safety.confirm` code (R318). -/
def bodySafetyConfirm (rq : Req) (args : List String) : Body := fun s => do
  match args with
  | [ct] =>
    let code ← if ct.toList.length = 4 then want (parseNat ct) .badForm else .error .badForm
    served s "do"
    match s.cm.wait with
    | none => .error .badState
    | some w =>
      need (w.line = rq.line) .taken
      if w.deadline ≤ s.ck.mono then .ok (dropWait 2 s, ["no state"])
      else if code ≠ w.code then
        let s1 := if 3 ≤ w.wrong + 1 then dropWait 3 s
          else { s with cm := { s.cm with wait := some { w with wrong := w.wrong + 1 } } }
        .ok (s1, ["no word"])
      else
        need (sealOk s rq.line .s) .noRole
        .ok (confirmSet w s, ["ok do safety.confirm " ++ natText w.set.members.length])
  | _ => .error .badForm

/-- SAFETY_CONFIRM_TIMEOUT (R318). -/
def confirmTimeout (s : State) : State :=
  match s.cm.wait with
  | some w => if w.deadline ≤ s.ck.mono then dropWait 2 s else s
  | none => s

/-! ## Sampled inputs -/

/-- The inputs are sampled: every state with supply (R299, R358). -/
def sampled (s : State) : Bool := s.pw.supply && s.pw.ms ≠ .cold

/-- A new debounced state of DIx: the trip reset on a falling edge of the reset input, and the valve watch (R299, R300,
R315). -/
def diEdge (x : Fin 4) (high : Bool) (s : State) : State :=
  let old := s.io.di[x]
  let len := s.ck.mono - old.since
  if old.high = high then s
  else
    let s1 := s.modDi x fun _ => ⟨high, s.ck.mono⟩
    let s2 := if high = false ∧ pget s 0xA003 = x.val + 1 ∧ 500 ≤ len ∧ len ≤ 10000 ∧ s.pw.ms = .safe then
        (resetRequest 1 0 0 s1).1 else s1
    if s2.pw.ms = .run ∨ s2.pw.ms = .safe then valveChecks s2 else s2

/-- Time in ms for which a level must stand to become an input's state (R299, R358). -/
def debounceOf (s : State) (pin : DigitalPin) : Nat :=
  match pin with
  | .di x => pnat s (0x9302 + 0x10 * x.val)
  | .safeKey => 20

/-- DI_CHANGE: a level that has stood for `stood` ms (R299, R358). -/
def diChange (pin : DigitalPin) (high : Bool) (stood : Nat) (s : State) : State :=
  if sampled s ∧ debounceOf s pin ≤ stood then
    match pin with
    | .di x => diEdge x high s
    | .safeKey => { s with pw := { s.pw with safeKey := high } }
  else s

/-- SAFETY_JUDGEMENT (R304, R307). -/
def execSafetyJudgement (standing : List Nat) (s : State) : Host.Outcome State Fault Refusal :=
  done (safetyJudgement standing s)
/-- WELDED_CONTACT (R314). -/
def execWeldedContact (relay : Relay) (s : State) : Host.Outcome State Fault Refusal := done (weldedContact relay s)
/-- EVALUATOR_RESTART (R311). -/
def execEvaluatorRestart (passed : Bool) (s : State) : Host.Outcome State Fault Refusal :=
  done (evaluatorRestart passed s)
/-- DO_SAFETY_RESET (R316). -/
def execDoSafetyReset (rq : Req) (args : List String) (s : State) : Host.Outcome State Fault Refusal :=
  done (runLine rq "do" (bodySafetyReset rq args) s)
/-- DO_SAFETY_CONFIRM (R318). -/
def execDoSafetyConfirm (rq : Req) (args : List String) (s : State) : Host.Outcome State Fault Refusal :=
  done (runLine rq "do" (bodySafetyConfirm rq args) s)
/-- SAFETY_CONFIRM_TIMEOUT (R318). -/
def execSafetyConfirmTimeout (s : State) : Host.Outcome State Fault Refusal := done (confirmTimeout s)
/-- DI_CHANGE (R299). -/
def execDiChange (pin : DigitalPin) (level : DiLevel) (s : State) : Host.Outcome State Fault Refusal :=
  done (diChange pin level.high level.stood s)

end Sys2Proof.Machine
end

