-- ==== Sys2Proof/Machine/SelfTest.lean ====
section
/-! DEFINITION. The self-test, its records, repairs and fuses (R242, R326 ... R335). -/

namespace Sys2Proof.Machine

/-- Items by code (Table 16.1). -/
def itemNames : List String := ["leads", "cells", "ref", "outputs", "cellar", "fram", "lines", "seal"]

/-- Item mask of a whole self-test; PZM-4N does not run item 4 (R326). -/
def allItems (s : State) : Nat := if s.ident.variant = .n4 then 0xEF else 0xFF

/-- An item lies in a mask. -/
def inMask (mask item : Nat) : Bool := mask / 2 ^ item % 2 = 1

/-! ## Cells and classes -/

/-- A unit 1 … 19 is a fast cell (R330). -/
def fastUnit (unit : Nat) : Bool := unit ≤ 10
/-- Code of a cell unit in its kind, and the unit of a code. -/
def unitCode (unit : Nat) : Int := if fastUnit unit then (unit : Int) - 1 else (unit : Int) - 11
def codeUnit (fast : Bool) (code : Int) : Nat := if fast then code.toNat + 1 else code.toNat + 11

/-- Name of a cell unit. -/
def unitName (unit : Nat) : String := if fastUnit unit then "c" ++ natText unit else "s" ++ natText (unit - 10)

/-- The parameter that assigns a cell to an input, where one does. -/
def cellInput (s : State) (unit : Nat) : Option Nat :=
  (cellParams (fastUnit unit)).find? fun p => pget s p = unitCode unit

/-- The input that a cell parameter assigns is judged by the safety function (R327). -/
def inputArmed (s : State) (param : Nat) : Bool :=
  match runOffset param with
  | some (r, o) => (o = 0x210 && armed s r true) || (o = 0x220 && armed s r false)
  | none => false

/-- A cell serves an armed input. -/
def cellArmed (s : State) (unit : Nat) : Bool :=
  match cellInput s unit with
  | some p => inputArmed s p
  | none => false

/-- A lead belongs to an armed input (R327, R330). -/
def leadArmed (s : State) (subject : Nat) : Bool :=
  let lead := subject % 256
  allRuns.any fun r => decide (subject / 256 = r.val + 1) &&
    ((decide (3 ≤ lead ∧ lead ≤ 5) && armed s r false) || (decide (6 ≤ lead ∧ lead ≤ 7) && armed s r true))

/-- Any slow input is armed. -/
def slowArmed (s : State) : Bool := allRuns.any fun r => armed s r true || armed s r false

/-- Both ferroelectric memories failed. -/
def bothFram (fs : List Failure) : Bool :=
  fs.any (fun f => f.item = 5 && f.subject = 1) && fs.any fun f => f.item = 5 && f.subject = 2

/-- Class of a failure (R327). Subject 1 of `ref` stands for a deviation beyond ±1 % (log 25). -/
def failClass (s : State) (fs : List Failure) (f : Failure) : Nat :=
  if f.item = 0 then (if leadArmed s f.subject then 1 else 3)
  else if f.item = 1 then (if cellArmed s f.subject then 1 else 2)
  else if f.item = 2 then (if f.subject = 1 ∧ slowArmed s then 1 else 3)
  else if f.item = 3 then (if 9 ≤ f.subject ∧ f.subject ≤ 12 then 1 else 3)
  else if f.item = 4 then (if f.fault = 8 ∨ 0x8000 ≤ f.subject then 3 else 2)
  else if f.item = 5 then (if bothFram fs then 1 else 3)
  else 3

/-- Rows whose corrected-error count has reached the limit (R327, R333), as failures. -/
def limitRows (s : State) (mask : Nat) : List Failure :=
  if inMask mask 4 then
    (s.sp.rowErrors.filter fun q => decide (pnat s 0xB001 ≤ q.2)).map fun q => ⟨4, 10, q.1⟩
  else []

/-- What a run of some items has found. -/
def foundIn (s : State) (mask : Nat) (fs : List Failure) : List Failure :=
  fs.filter (fun f => inMask mask f.item) ++ limitRows s mask

/-! ## Result records -/

/-- Verdict of judged failures (R330): 3 held, 2 reported, 1 repaired, 0 pass. -/
def verdictOf (xs : List (Failure × Nat × Nat)) : Nat :=
  if xs.any (fun x => x.2.1 = 1) then 3
  else if xs.any (fun x => x.2.1 = 3 || (x.2.1 = 2 && (x.2.2 = 0 || x.2.2 = 4))) then 2
  else if xs = [] then 0 else 1

/-- Names of the verdicts. -/
def verdictNames : List String := ["pass", "repaired", "reported", "held", "abandoned"]

/-- Mask of the items that failed. -/
def failedMask (xs : List (Failure × Nat × Nat)) : Nat :=
  ((List.range 8).filter fun i => xs.any fun x => x.1.item = i).foldl (fun m i => m + 2 ^ i) 0

/-- The 64 bytes of a result record (Table 16.3). -/
def resultBytes (t : TestResult) : List Byte :=
  let entry := fun (x : Failure × Nat × Nat) =>
    leBytes 1 x.1.item ++ leBytes 1 x.1.fault ++ leBytes 2 x.1.subject ++ leBytes 1 x.2.1 ++ leBytes 1 x.2.2
  leBytes 1 7 ++ leBytes 1 t.occasion ++ leBytes 1 t.verdict ++ leBytes 1 (min 255 t.count) ++ leBytes 4 t.time
    ++ leBytes 2 t.itemsRun ++ leBytes 2 t.itemsFailed ++ leBytes 2 t.millis ++ leBytes 2 0
    ++ fit 48 0 ((t.failures.take 8).flatMap entry)

/-- Writes a result record: the last 16 are kept; packet with subject 07h and module note 0020h (R330). -/
def recordTest (occasion verdict mask millis : Nat) (xs : List (Failure × Nat × Nat)) (s : State) : State :=
  let t : TestResult := { occasion := occasion, verdict := verdict, count := xs.length, time := nowSec s, itemsRun := mask
                          itemsFailed := failedMask xs, millis := millis, failures := xs }
  let s1 := { s with lg := { s.lg with results := (t :: s.lg.results).take 16 } }
  moduleNote (ledgerPacket s1 7 (resultBytes t)) 0x20
    (leBytes 1 occasion ++ leBytes 1 verdict ++ leBytes 2 (failedMask xs))

/-- Supply loss or NRST abandons a commanded test (R329). -/
def abandonTest (s : State) : State :=
  match s.sp.test with
  | some t => recordTest 4 4 t.items 0 [] { s with sp := { s.sp with test := none } }
  | none => s

/-- Supply loss or NRST abandons the test of a start or a stop (R80, R329, Table 16.3). -/
def abandonSequence (s : State) : State :=
  if s.pw.ms = .stop then recordTest 3 4 (allItems s) 0 [] s
  else if s.pw.ms = .start ∧ s.pw.startKind ≠ .quick then
    recordTest (if s.pw.startKind = .cold then 1 else 2) 4 (allItems s) 0 [] s
  else s

/-! ## Copies -/

/-- Module note 0009h: copy, and 1 degraded or 0 restored (R242, log 25). -/
def copyNote (copy st : Nat) (s : State) : State := moduleNote s 9 (leBytes 1 copy ++ leBytes 1 st)

/-- Judges the two copies after item 5 (R242): a failed copy is degraded; a degraded copy that passes is rebuilt. -/
def judgeCopies (mask : Nat) (fs : List Failure) (s : State) : State :=
  let bad := fun (n : Nat) => fs.any fun f => f.item = 5 && f.subject = n
  if inMask mask 5 = false ∨ bothFram fs then s
  else match s.lg.state with
    | .ok =>
      if bad 1 then copyNote 1 1 { s with lg := { s.lg with state := .singleB } }
      else if bad 2 then copyNote 2 1 { s with lg := { s.lg with state := .singleA } }
      else s
    | .singleB =>
      if bad 1 then s
      else copyNote 1 0 { s with mem := { s.mem with a := s.mem.b }, lg := { s.lg with state := .ok } }
    | .singleA =>
      if bad 2 then s
      else copyNote 2 0 { s with mem := { s.mem with b := s.mem.a }, lg := { s.lg with state := .ok } }

/-! ## Repairs -/

/-- A live soft or burnt entry of a unit. -/
def liveEntry (e : Repair) (row : Bool) (unit : Nat) : Bool :=
  e.st ≠ 3 && (if row then e.kind = 3 else e.kind ≠ 3) && e.failed = unit

/-- A fuse maps a unit (R335). -/
def fused (s : State) (row : Bool) (unit : Nat) : Bool :=
  s.sp.fuses.any fun f => f.1 = (if row then 2 else 1) && f.2.1 = unit

/-- Index of the oldest cleared entry. -/
def oldestCleared (es : List Repair) : Option Nat :=
  (es.zipIdx.foldl (fun (best : Option (Nat × Nat)) q =>
    if q.1.st = 3 then match best with
      | some b => if q.1.time < b.1 then some (q.1.time, q.2) else best
      | none => some (q.1.time, q.2)
    else best) none).map (·.2)

/-- Enters a soft repair: in the unit's own soft entry, a new one, or the oldest cleared one (R334). -/
def enterRepair (kind failed spare : Nat) (s : State) : Option State :=
  let e : Repair := { kind := kind, st := 1, failed := failed, spare := spare, time := nowSec s, fuse := none }
  let es := s.sp.table
  let put := fun (t : List Repair) => some { s with sp := { s.sp with table := t } }
  match es.findIdx? fun x => x.st = 1 && liveEntry x (kind = 3) failed with
  | some i => put (es.set i e)
  | none =>
    if es.length < 96 then put (es ++ [e])
    else match oldestCleared es with
      | some i => put (es.set i e)
      | none => none

/-- Kind of a cell's entry. -/
def cellEntry (unit : Nat) : Nat := if fastUnit unit then 1 else 2

/-- Codes of the free cells of a kind that passed (R332). -/
def passedFree (s : State) (fast : Bool) : List Int :=
  let used := (cellParams fast).map (pget s)
  (soundCells s fast).filter fun c => c ∉ used && codeUnit fast c ∉ s.sp.failedCells

/-- Spare rows that passed and are unused (R333). -/
def freeRows (s : State) : List Nat :=
  ((List.range 64).map (1024 + ·)).filter fun k =>
    k ∉ s.sp.failedRows && !(s.sp.table.any fun e => e.kind = 3 && e.st ≠ 3 && e.spare = k)
      && !(s.sp.fuses.any fun f => f.1 = 2 && f.2.2 = k)

/-- Remaps a row to the lowest spare row; its error count is zeroed (R333). -/
def remapRow (row : Nat) (s : State) : Option State :=
  match freeRows s with
  | [] => none
  | k :: _ => (enterRepair 3 row k s).map fun t =>
      { t with sp := { t.sp with rowErrors := store 0 t.sp.rowErrors row 0 } }

/-- Rows that a START would have to remap (R331). -/
def rowsNeeded (s : State) (fs : List Failure) : List Nat :=
  codeSet ((fs.filter fun f => f.item = 4 && f.fault ≠ 8 && f.subject < 1024).filterMap fun f =>
    if fused s true f.subject ∨ s.sp.table.any (fun e => liveEntry e true f.subject && e.spare ∉ s.sp.failedRows)
    then none else some f.subject)

/-- The cellar falls back to the chute (R192, R331): a bus fault, too few spare rows, or rows left unrepaired. -/
def cellarFallsBack (s : State) (fs : List Failure) : Bool :=
  let need_ := rowsNeeded s fs
  fs.any (fun f => f.item = 4 && (f.fault = 8 || 0x8000 ≤ f.subject))
    || decide ((freeRows s).length < need_.length) || (decide (pget s 0xB000 = 0) && need_ ≠ [])

/-- Repairs one cell failure at START: the state and the action of R330. -/
def repairCell (unit : Nat) (s : State) : State × Nat :=
  if fused s false unit then (s, 2)
  else match cellInput s unit with
    | none =>
      match enterRepair (cellEntry unit) unit 0 s with
      | some t => (t, 6)
      | none => (s, 0)
    | some p =>
      if pget s 0xB000 = 0 then (s, 0)
      else match nearest false (unitCode unit) 1 (passedFree s (fastUnit unit)) with
        | none => (s, 0)
        | some c =>
          match enterRepair (cellEntry unit) unit (codeUnit (fastUnit unit) c) s with
          | some t => (applyMembers [⟨p, c, 0, .view⟩] t, 1)
          | none => (s, 0)

/-- An unarmed input on a failed cell finds no free cell that passed: its failure is class 3 (Table 16.7). -/
def strandedCell (unit : Nat) (s : State) : Bool :=
  !fused s false unit && (cellInput s unit).isSome && decide (pget s 0xB000 ≠ 0)
    && (passedFree s (fastUnit unit)).isEmpty

/-- Treats one failure at the end of the self-test of a START (R331): action and state. -/
def repairStep (fs : List Failure) (fallback : Bool) (acc : State × List (Failure × Nat × Nat)) (f : Failure) :
    State × List (Failure × Nat × Nat) :=
  let s := acc.1
  let cls := failClass s fs f
  let out := fun (q : State × Nat) => (q.1, acc.2 ++ [(f, cls, q.2)])
  if cls = 1 then out (s, 3)
  else if f.item = 1 ∧ strandedCell f.subject s then (s, acc.2 ++ [(f, 3, 0)])
  else if f.item = 1 then out (repairCell f.subject s)
  else if f.item = 4 ∧ fallback then out (s, 4)
  else if f.item = 4 then
    if fused s true f.subject then out (s, 2)
    else if f.subject ∈ rowsNeeded s fs then out (match remapRow f.subject s with
      | some t => (t, 1)
      | none => (s, 0))
    else if 1024 ≤ f.subject then out (s, 6)
    else out (s, 1)
  else if f.item = 5 then out (s, 5)
  else out (s, 0)

/-- Notes which units failed the last test of their item. -/
def noteFailed (mask : Nat) (fs : List Failure) (s : State) : State :=
  { s with sp := { s.sp with
      failedCells := if inMask mask 1 then (fs.filter fun f => f.item = 1).map (·.subject) else s.sp.failedCells
      failedRows := if inMask mask 4 then
          (fs.filter fun f => f.item = 4 && 1024 ≤ f.subject && f.subject < 1088).map (·.subject)
        else s.sp.failedRows } }

/-- A stored `queue.stream.words` above 64 is stored as 64 in chute mode (R201, Table 9.5), with an entry on no line. -/
def chuteWords (s : State) : State :=
  if chute s ∧ 64 < pget s 0x7004 then storeMember ⟨0x7004, 64, 0, .view⟩ s else s

/-- SELF_TEST_OUTCOME of a cold or warm start (R331): the state, and whether a class 1 failure stands. -/
def startOutcome (r : TestRun) (s : State) : State × Bool :=
  let mask := allItems s
  let fs := foundIn s mask r.failures
  let s1 := noteFailed mask fs s
  let back : Bool := cellarFallsBack s1 fs
  let q := fs.foldl (repairStep fs back) (s1, [])
  let contact := fun (n : Nat) => fs.any fun f => f.item = 3 && f.subject = n
  let s2 := { q.1 with qu := { q.1.qu with chuteSelftest := back && s.ident.variant = .s4 }
                       sf := { q.1.sf with
                         welded := (contact 11, contact 12)
                         sticky := if contact 11 ∨ contact 12 then [0x2E] else [] } }
  let s3 := chuteWords (judgeCopies mask fs s2)
  (recordTest (if s.pw.startKind = .cold then 1 else 2) (verdictOf q.2) mask r.millis q.2 s3,
    q.2.any fun x => x.2.1 = 1)

/-- Classes of failures outside a START, where nothing is repaired (R328). -/
def classed (s : State) (fs : List Failure) : List (Failure × Nat × Nat) := fs.map fun f => (f, failClass s fs f, 0)

/-- The shutdown self-test (R328): the state, and whether it found nothing. -/
def stopOutcome (r : TestRun) (s : State) : State × Bool :=
  let mask := allItems s
  let fs := foundIn s mask r.failures
  let xs := classed s fs
  (recordTest 3 (verdictOf xs) mask r.millis xs (judgeCopies mask fs (noteFailed mask fs s)), fs = [])

/-! ## TEST -/

/-- The queue as the zero-fill leaves it: empty, counters zeroed but the ECC counters (R200). -/
def Queue.emptied (q : Queue) : Queue :=
  { Queue.reset with cellar := q.cellar, corrected := q.corrected, uncorrected := q.uncorrected
                     chuteSelftest := q.chuteSelftest, outputs := q.outputs }

/-- `test` item [run] (R329, Table 16.2). -/
def bodyTest (rq : Req) (args : List String) : Body := fun s => do
  let item ← want args.head? .badForm
  need (args.length ≤ 2) .badForm
  let i ← wordField rq.tag.isSome (itemNames ++ ["all"]) item
  need (args.length = 1 || i < 3) .badForm
  let run ← match args[1]? with
    | some t => (runField t).map some
    | none => .ok none
  served s "test"
  let active : Bool := measuring s || s.pw.ms = .held
  need (match run with
    | some r => active && !armedRun s r
    | none => if i = 5 ∨ i = 7 then active else s.pw.ms = .held) .badState
  need s.sp.test.isNone .taken
  needRole s rq.line .operate
  let mask := if i = 8 then allItems s else if inMask (allItems s) i then 2 ^ i else 0
  let s1 := { s with sp := { s.sp with test := some ⟨item, mask, run, rq.line⟩ } }
  let s2 := match run with
    | some r => restartFe r s1
    | none => s1
  let s3 := if inMask mask 4 then s2.modQueue Queue.emptied else s2
  .ok (s3, ["ok test " ++ (itemNames ++ ["all"]).getD i ""])

/-- A failure as TEST notes it: code, subject, fault and class. -/
def failText (x : Failure × Nat × Nat) : String :=
  spaced ["test fail", natText x.1.item, natText x.1.subject, natText x.1.fault, natText x.2.1]

/-- TEST_COMPLETE (R329, R330). -/
def testComplete (r : TestRun) (s : State) : State :=
  match s.sp.test with
  | none => s
  | some t =>
    let fs := foundIn s t.items r.failures
    let xs := classed s fs
    let v := verdictOf xs
    let s1 := { s with sp := { s.sp with test := none } }
    let s2 := if t.run.isNone then noteFailed t.items fs s1 else s1
    let s3 := recordTest 4 v t.items r.millis xs (judgeCopies t.items fs s2)
    noteSeries t.line (spaced ["test", lowerText t.item, verdictNames.getD v ""] :: xs.map failText) s3

/-! ## DO REPAIR -/

/-- A cell field, `c1` … `c10` or `s1` … `s9`, as a unit. -/
def cellField (strict : Bool) (t : String) : Except Reason Nat := do
  let i ← wordField strict (fastNames ++ slowNames) t
  .ok (i + 1)

/-- The audit entry of a repair (R334). -/
def auditRepair (l : Line) (unit : Nat) (old new : Int) (s : State) : State := auditLine l 0x0D 0 unit old new s

/-- `do repair cell` failed spare (R334). -/
def bodyRepairCell (rq : Req) (args : List String) : Body := fun s => do
  match args with
  | [ft, st] =>
    let f ← cellField rq.tag.isSome ft
    let k ← cellField rq.tag.isSome st
    need (fastUnit f = fastUnit k) .noWord
    served s "do"
    need (s.pw.ms = .held || !cellArmed s f) .badState
    need (s.sp.test.isNone && k ≠ f && unitCode k ∈ passedFree s (fastUnit f)) .taken
    let t ← want (enterRepair (cellEntry f) f (if (cellInput s f).isSome then k else 0) s) .taken
    need (sealOk s rq.line (if cellArmed s f then .s else .m)) .noRole
    let moved := match cellInput s f with
      | some p => schedule [⟨p, unitCode k, 0, .view⟩] none t
      | none => t
    .ok (auditRepair rq.line f f k moved, [spaced ["ok do repair cell", unitName f, unitName k]])
  | _ => .error .badForm

/-- `do repair row` row (R334). -/
def bodyRepairRow (rq : Req) (args : List String) : Body := fun s => do
  match args with
  | [rt] =>
    let row ← countField 0 1023 rt
    served s "do"
    need (s.pw.ms = .held && s.ident.variant = .s4) .badState
    need s.sp.test.isNone .taken
    let t ← want (remapRow row s) .taken
    needMetrology s rq.line
    .ok (auditRepair rq.line row row ((freeRows s).headD 0) t, [spaced ["ok do repair row", natText row]])
  | _ => .error .badForm

/-- `do repair clear` index (R334). -/
def bodyRepairClear (rq : Req) (args : List String) : Body := fun s => do
  match args with
  | [it] =>
    let i ← countField 0 95 it
    served s "do"
    let e ← want s.sp.table[i]? .badState
    need (e.st = 1) .badState
    need s.sp.test.isNone .taken
    needMetrology s rq.line
    let s1 := { s with sp := { s.sp with table := s.sp.table.set i { e with st := 3 } } }
    .ok (auditRepair rq.line e.failed 1 3 s1, [spaced ["ok do repair clear", natText i]])
  | _ => .error .badForm

/-- The fuse reads back as burnt; the spec leaves open whether it does (R335, log 13). -/
def burnTakes (s : State) : Bool := Config.freeValue (128 * s.ck.mono + 10) ≠ 0

/-- `do repair burn` index (R335). -/
def bodyRepairBurn (rq : Req) (args : List String) : Body := fun s => do
  match args with
  | [it] =>
    let i ← countField 0 95 it
    served s "do"
    need (s.pw.ms = .run || s.pw.ms = .held) .badState
    need (20000 ≤ s.pw.vsup) .badState
    let e ← want s.sp.table[i]? .badState
    need (e.st = 1) .badState
    need (s.sp.test.isNone && s.sp.fuses.length < 32) .taken
    needMetrology s rq.line
    let n := s.sp.fuses.length
    if burnTakes s then
      let s1 := { s with sp := { s.sp with
        fuses := s.sp.fuses ++ [(if e.kind = 3 then 2 else 1, e.failed, e.spare)]
        table := s.sp.table.set i { e with st := 2, fuse := some n } } }
      .ok (auditRepair rq.line e.failed 1 2 s1, [spaced ["ok do repair burn", natText i, "fuse", natText n]])
    else
      let s1 := { s with sp := { s.sp with fuses := s.sp.fuses ++ [(3, e.failed, e.spare)] } }
      .ok (auditRepair rq.line e.failed 1 1 s1, ["no state"])
  | _ => .error .badForm

/-- TEST (R329). -/
def execTest (rq : Req) (args : List String) (s : State) : Host.Outcome State Fault Refusal :=
  done (runLine rq "test" (bodyTest rq args) s)
/-- TEST_COMPLETE (R329, R330). -/
def execTestComplete (r : TestRun) (s : State) : Host.Outcome State Fault Refusal := done (testComplete r s)
/-- DO_REPAIR_CELL (R334). -/
def execDoRepairCell (rq : Req) (args : List String) (s : State) : Host.Outcome State Fault Refusal :=
  done (runLine rq "do" (bodyRepairCell rq args) s)
/-- DO_REPAIR_ROW (R334). -/
def execDoRepairRow (rq : Req) (args : List String) (s : State) : Host.Outcome State Fault Refusal :=
  done (runLine rq "do" (bodyRepairRow rq args) s)
/-- DO_REPAIR_CLEAR (R334). -/
def execDoRepairClear (rq : Req) (args : List String) (s : State) : Host.Outcome State Fault Refusal :=
  done (runLine rq "do" (bodyRepairClear rq args) s)
/-- DO_REPAIR_BURN (R335). -/
def execDoRepairBurn (rq : Req) (args : List String) (s : State) : Host.Outcome State Fault Refusal :=
  done (runLine rq "do" (bodyRepairBurn rq args) s)

end Sys2Proof.Machine
end

