-- ==== Sys2Proof/Machine/QueueOps.lean ====
section
/-! DEFINITION. The journal queue (R190 ... R199): its storage, grants, shedding, rewinds, the read port, DROP, the linger
timer and the queue reset; and the gather channels' program memory (R202, R216, R220, R221). -/

namespace Sys2Proof.Machine

/-! ## Storage -/

/-- The parity bit of a landing or chute word (R191). -/
def parity (w : Word) : Bool := (List.range 32).foldl (fun b i => b ^^ w.getLsbD i) false

/-- The 8 check bits of a cellar word: a Hamming code, then the overall parity (R191). Log 96. -/
def checkBits (w : Word) : BitVec 8 :=
  let h := Config.hammingBits w
  h ++ BitVec.ofBool ((List.range 7).foldl (fun b i => b ^^ h.getLsbD i) (parity w))

/-- Words of a region; those that a void one never received stand as 0, and no read shows them (log 96). -/
def Region.content (r : Region) : List Word :=
  r.words ++ if r.void then List.replicate (r.len - r.words.length) 0 else []

/-- The words of the queue in their order (R190). -/
def queueWords (s : State) : List Word :=
  (match s.qu.port with | some p => p.left | none => []) ++ s.qu.regions.flatMap Region.content

/-- The words between the landings. -/
def middleWords (s : State) : List Word := ((queueWords s).drop s.qu.inHead).take s.qu.inMiddle

/-- The head landing: words with their parity bits (R190, R191). -/
def headLanding (s : State) : List (Word × Bool) := ((queueWords s).take s.qu.inHead).map fun w => (w, parity w)

/-- The tail landing (R190, R191). -/
def tailLanding (s : State) : List (Word × Bool) :=
  ((queueWords s).drop (s.qu.inHead + s.qu.inMiddle)).map fun w => (w, parity w)

/-- The cellar's queue region in spill mode: words with their check bits (R190, R191). -/
def cellarRegion (s : State) : List (Word × BitVec 8) :=
  if chute s then [] else (middleWords s).map fun w => (w, checkBits w)

/-- The 32 stages of the chute, the lowest first: the word and its parity bit, none where the occupied flag is clear
(R192). -/
def chuteStages (s : State) : List (Option (Word × Bool)) :=
  if chute s then
    (List.range 32).map fun k => (middleWords s)[k]?.map fun w => (w, parity w)
  else List.replicate 32 none

/-- The copies of the positions agree (R199). -/
def pointersAgree (q : Queue) : Bool := [q.wrAt, q.cmAt, q.rdAt].all fun p => p.2 = ~~~ p.1

/-! ## Program memory -/

/-- The words of G4 as Table 10.5 prints them. -/
def printedG4 : List Word :=
  [0x39808E10, 0x3C00800A, 0x5C03C000, 0x1BE000F0, 0xFFFFFFFF, 0x20000004, 0, 0x20A00101, 0x43080000, 0x68000000]

/-- A WAIT whose timeout Table 10.4 does not state: T and the timeout are free (log 10). -/
def openWait (a cond operand : Nat) : Word :=
  BitVec.ofNat 32 (0x30000000 + cond * 2 ^ 24 + operand * 2 ^ 16) ||| (Config.shippedWord a &&& 0x0800FFFF)

/-- A MOVE of the engine's own with a stated count: its burst and its R bit are free (log 10). -/
def openMove (a : Nat) (srcFixed dstFixed : Bool) (count : Nat) : Word :=
  BitVec.ofNat 32 (0x18000000 + (if srcFixed then 2 ^ 26 else 0) + (if dstFixed then 2 ^ 25 else 0) + count)
    ||| (Config.shippedWord a &&& 0x01F00000)

/-- A program that Table 10.4 describes, from its start address on (R221): the instructions that it names, in its order, and
END with restart. -/
def describedProgram (v : Variant) (g : Nat) : List Word :=
  let move := fun (a : Nat) (sf df : Bool) (n : Nat) (src dst : Word) => [openMove a sf df n, src, dst, 0]
  match g, v with
  | 0, _ => [openWait 0 1 0] ++ move 1 false true 20 0xFFFFFFFF 0x20000024 ++ [0x48000001, 0x68000000]
  | 1, _ => move 0x40 true true (256 + (Config.shippedWord 0x40).toNat % 65280) 0x20000000 0x20000020
      ++ [0x2FFF0040, 0x68000000]
  | 2, _ => [openWait 0x80 1 0x40] ++ move 0x81 false true 192 0xFFFFFFFF 0x20000024 ++ [0x48000002, 0x68000000]
  | 3, .s4 => [0x3A678E10, 0x3968803C] ++ move 0xC2 true false 38400 0x20000010 0xFFFFFFFF ++ [0x44000000, 0x68000000]
  | 3, .n4 => [0x3A678E10, 0x3968803C, 0x48000003, 0x68000000]
  | _, .s4 => printedG4
  | _, .n4 => [openWait 0x100 1 0x80, 0x48000003, 0x68000000]

/-- A word as START loads it: the shipped region from the factory image, the host region from its ferroelectric copy (R220,
R221). A shipped word of no program is free (log 10). -/
def loadedWord (s : State) (a : Nat) : Word :=
  if 0xC00 ≤ a then fetch 0 s.ga.hostCopy a
  else if a < 0x140 then ((describedProgram s.ident.variant (a / 0x40))[a % 0x40]?).getD (Config.shippedWord a)
  else Config.shippedWord a

/-- A word of program memory. -/
def progWord (s : State) (a : Nat) : Word :=
  match s.ga.prog.find? fun q => q.1 = a with
  | some q => q.2
  | none => loadedWord s a

/-- Writes a word of program memory. -/
def setProg (a : Nat) (w : Word) (s : State) : State :=
  if a < 4096 then { s with ga := { s.ga with prog := (a, w) :: s.ga.prog.filter fun q => q.1 ≠ a } } else s

/-- Length of an instruction by its first word (R205). -/
def instrLength (w : Word) : Nat := if bits w 28 4 = 1 then 4 else if bits w 28 4 = 6 then 2 else 1

/-! ## Channels -/

/-- The engine runs: bursts, event passes and drain passes, and in STOP until the fast domain stops (R80, R200, R220). -/
def engineOn (s : State) : Bool :=
  s.pw.pass = .burst || s.pw.pass = .event || s.pw.pass = .drain || s.pw.ms = .stop


/-- Name of a channel. -/
def chanText (g : Channel) : String := "g" ++ natText g.val
/-- Origin of a channel's packets (Table 9.1). -/
def chanOrigin (g : Channel) : Nat := 8 + g.val

/-- Posts a completion record; a full ring holds the channel (R216, R217, Table 10.3). -/
def post (g : Channel) (kind status low : Nat) (w3 : Word) (s : State) : State :=
  let w0 := BitVec.ofNat 32 (kind * 2 ^ 28 + g.val * 2 ^ 24 + status * 2 ^ 16 + s.ga.chans[g].pc % 4096)
  let rec_ : List Word := [w0, BitVec.ofNat 32 (nowSec s), BitVec.ofNat 32 (nowMs s % 1000 * 2 ^ 22 + low % 65536), w3]
  if s.ga.ringUsed < 256 then pushRing s rec_
  else s.modChan g fun c => { c with ringWait := some (rec_, s.ck.mono) }

/-! ## Regions -/

/-- An open reservation of an origin. -/
def openRegion (o : Nat) (r : Region) : Bool := r.origin = o && !r.committed && !r.void

/-- A void region: its header takes class 00b and keeps the length (R195). -/
def Region.voided (r : Region) : Region :=
  { r with void := true, committed := false
           words := match r.words with | h :: ws => (h &&& 0x3FFFFFFF) :: ws | [] => [] }

/-- Rewinds or voids the bad packets among the regions (R195). -/
def spoil (bad : Region → Bool) (s : State) : State :=
  let n := (s.qu.regions.filter bad).length
  if n = 0 then s
  else
    let kept := (s.qu.regions.reverse.dropWhile bad).reverse
    State.settle 0 (s.modQueue fun q => { q with
      regions := kept.map fun r => if bad r then r.voided else r
      rewound := q.rewound + BitVec.ofNat 32 n })

/-- A channel abandons its open reservation and its request for one (R195). -/
def abandonMark (g : Channel) (s : State) : State :=
  let o := chanOrigin g
  let s1 := spoil (openRegion o) s
  (s1.modQueue fun q => { q with waiters := q.waiters.filter fun w => w.origin ≠ o }).modChan g
    fun c => { c with reserved := false, markReady := false }

/-- A channel writes the next word of its reservation; the last word commits the packet (R195, R210). -/
def fillRegion (g : Channel) (w : Word) (s : State) : State :=
  let o := chanOrigin g
  let put := fun (r : Region) =>
    if openRegion o r then { r with words := r.words ++ [w], committed := decide (r.len ≤ r.words.length + 1) } else r
  let s1 := State.settle 0 (s.modQueue fun q => { q with regions := q.regions.map put })
  s1.modChan g fun c => { c with reserved := s1.qu.regions.any (openRegion o) }


/-- The waiter that comes first in the order of R194. -/
def firstWaiter (ws : List Waiter) : Option Waiter :=
  ws.foldl (fun best w => match best with
    | some b => if originRank w.origin < originRank b.origin then some w else best
    | none => some w) none

/-- Grants a waiter; a channel that stalls at its MARK goes on after it (R194, R210). -/
def grantWaiter (w : Waiter) (s : State) : State :=
  let s1 := grant (s.modQueue fun q => { q with waiters := q.waiters.erase w }) w
  if h : 8 ≤ w.origin ∧ w.origin < 16 then
    s1.modChan ⟨w.origin - 8, by omega⟩ fun c =>
      let c1 := { c with reserved := decide (w.words.length < w.len) }
      if c.st = .stall then { c1 with st := .run, pc := c.pc + 1 } else { c1 with markReady := true }
  else s1

/-- RESERVATION_GRANT: one reservation, the first that fits in the order of R194. -/
def reservationGrant (s : State) : State :=
  if fastFree s then
    match firstWaiter (s.qu.waiters.filter (canGrant s)) with
    | some w => grantWaiter w s
    | none => s
  else s

/-- SHED_WAIT_TIMEOUT: a class 2 or 3 MARK completes with shed status after `queue.shed.wait` (R194, R210); its packet has
taken a sequence (R187). -/
def shedWaitTimeout (g : Channel) (s : State) : State :=
  match s.qu.waiters.find? fun w => w.origin = chanOrigin g && w.cls ≠ 1 with
  | some w =>
    if w.since + pnat s 0x7005 ≤ s.ck.mono then
      let s1 := (takeSeq s w.origin).2.modQueue fun q => { q with waiters := q.waiters.erase w }
      shed (s1.modChan g fun c =>
        let c1 := { c with discard := w.len - 1 }
        if c.st = .stall then { c1 with st := .run, pc := c.pc + 1 } else { c1 with markReady := true }) w.cls
    else s
  | none => s

/-- SHED_SPELL_END: 1 s without a shed packet; note 0002h with the time from the first to the last. The record's own time is
the start of the spell, which its payload leaves no room for (R194, Table 11.6; DEDUCED, log 99). -/
def shedSpellEnd (s : State) : State :=
  match s.qu.spell with
  | some (began, from_, last, n2, n3) =>
    if last + 1000 ≤ s.ck.mono then
      appendSmall (s.modQueue fun q => { q with spell := none }) 2 (stampAt began 4 ++ leBytes 2 2
        ++ fit 16 0 (leBytes 4 (last - from_) ++ leBytes 4 n2 ++ leBytes 4 n3))
    else s
  | none => s

/-- RESERVATION_TIMEOUT: reservations uncommitted for more than 1 s of awake time (R195). -/
def reservationTimeout (s : State) : State :=
  let late := fun (r : Region) => !r.committed && !r.void && decide (r.at_ + 1000 < s.ck.awake)
  let s1 := spoil late s
  (List.finRange 8).foldl (fun t g => t.modChan g fun c => { c with reserved := t.qu.regions.any (openRegion (chanOrigin g)) })
    s1

/-! ## The read port -/

/-- The packet that the next read of a header finds, with the regions behind it (R195, R196). -/
def visible (s : State) : Option (Region × List Region) :=
  match dropVoids s.qu.regions with
  | r :: rs => if r.committed then some (r, rs) else none
  | [] => none

/-- Committed packets that wait. -/
def packetCount (s : State) : Nat := (s.qu.regions.filter fun r => r.committed && !r.void).length

/-- Every read restarts the linger timer and clears its flag (R198). -/
def readMade (s : State) : State := s.modQueue fun q => { q with lingerFrom := s.ck.mono, lingerFlag := false }

/-- A write stalls: the transmit port is full (R204). -/
def writeStalls (a : Nat) (s : State) : Bool :=
  (a = 0x20000020 && decide (1024 ≤ s.ga.hostFifo.length)) || (a = 0x20000024 && decide (512 ≤ s.ga.partnerFifo.length))

/-- A lower channel stalls at the read port alone, and is served first (R196). -/
def lowerWaits (g : Channel) (s : State) : Bool :=
  (List.finRange 8).any fun h => h.val < g.val && s.ga.chans[h].st = .stall && s.ga.chans[h].src = 0x20000000
    && bits (progWord s s.ga.chans[h].pc) 28 4 = 1 && !writeStalls s.ga.chans[h].dst.toNat s

/-- A channel reads one word of the read port: the word and whether the packet ends; none where it stalls (R196). -/
def readPort (g : Channel) (s : State) : Option (Word × Bool × State) :=
  match s.qu.port with
  | some p =>
    if p.holder = g then
      match p.left with
      | w :: ws => some (w, ws = [], readMade (State.settle 1 (s.modQueue fun q => { q with
          port := if ws = [] then none else some { p with left := ws } })))
      | [] => none
    else none
  | none =>
    if lowerWaits g s then none
    else match visible s with
    | some (r, rs) =>
      match r.words with
      | w :: ws =>
        let s1 := s.modQueue fun q => { q with
          regions := rs, port := if ws = [] then none else some ⟨g, ws, r.cls⟩ }
        some (w, ws = [], readMade (State.settle (fillOf s.qu - fillOf s1.qu) s1))
      | [] => none
    | none => none

/-- A channel holds the read port. -/
def holdsPort (s : State) (g : Channel) : Bool :=
  match s.qu.port with
  | some p => p.holder = g
  | none => false

/-- Source address of the MOVE in progress is the read port. -/
def fromPort (s : State) (g : Channel) : Bool := s.ga.chans[g].src = 0x20000000

/-- Ends a MOVE with a status: word 3 and OWN in write-back mode, a record where R is set (R206, R216). -/
def finishMove (g : Channel) (status : Nat) (bad : Bool) (s : State) : State :=
  let c := s.ga.chans[g]
  let w0 := progWord s c.pc
  let st := if status = 0 ∧ c.shedMove then 2 else status
  let w3 := BitVec.ofNat 32 (2 ^ 31 + (if bad then 2 ^ 30 else 0) + st * 2 ^ 24 + c.moved % 65536)
  let s1 := if pget s (chanBase g + 6) = 1 then
      setProg c.pc (w0 &&& 0xF7FFFFFF) (setProg (c.pc + 3) w3 s)
    else if bits w0 20 1 = 1 ∧ bad = false then post g 1 st c.moved 0 s else s
  s1.modChan g fun d => { d with pc := d.pc + 4, moved := 0, burst := 0, shedMove := false, st := .run }

/-- The open packet ends early for the channel that holds it (R197, R199, R206). -/
def endPacket (s : State) : State :=
  match s.qu.port with
  | some p =>
    let g := p.holder
    let s1 := State.settle p.left.length (s.modQueue fun q => { q with port := none })
    let c := s.ga.chans[g]
    if c.moved ≠ 0 ∧ fromPort s g ∧ c.st ≠ .halt then finishMove g 1 false s1 else s1
  | none => s

/-- Words unread of the open packet. -/
def openWords (s : State) : Nat :=
  match s.qu.port with
  | some p => p.left.length
  | none => 0

/-- A channel gives up the read port, with the unread words as DROP does (R214, R218). -/
def releasePort (g : Channel) (s : State) : State :=
  if holdsPort s g then
    State.settle (openWords s)
      (s.modQueue fun q => { q with port := none, dropWords := q.dropWords + BitVec.ofNat 32 (openWords s) })
  else s

/-- DROP (R197). -/
def bodyDrop (_rq : Req) (args : List String) : Body := fun s => do
  need (args = []) .badForm
  served s "drop"
  let n := openWords s
  .ok ((endPacket s).modQueue fun q => { q with dropWords := q.dropWords + BitVec.ofNat 32 n }, ["ok drop " ++ natText n])

/-! ## Reset and linger -/

/-- Words lost of a class in a queue reset: committed packets and the rest of the open one (R199). -/
def wordsLost (s : State) (cls : Nat) : Nat :=
  ((s.qu.regions.filter fun r => r.committed && !r.void && r.cls = cls).map (·.len)).sum
    + (match s.qu.port with | some p => if p.cls = cls then p.left.length else 0 | none => 0)

/-- QUEUE_RESET: everything is discarded. The open reservations, which are channels' alone, are cancelled; packets that wait
in the buffers of the producers stay and are granted behind it. It is over within the model's millisecond (R199). -/
def queueReset (cause : QueueFault) (s : State) : State :=
  if fastOn s then
    let lost := fun c => leBytes 4 (wordsLost s c)
    let pay := leBytes 1 (match cause with | .pointer => 1 | .header => 2) ++ lost 1 ++ lost 2 ++ lost 3
    let s0 := endPacket s
    let s1 := State.settle (fillOf s0.qu) { s0 with
      qu := { s0.qu with regions := [], resets := s0.qu.resets + 1, lingerFrom := s.ck.mono }
      ga := { s0.ga with chans := s0.ga.chans.map fun c => { c with reserved := false } } }
    moduleNote (noteAll ("queue reset " ++ (match cause with | .pointer => "pointer" | .header => "header")) s1) 3 pay
  else s

/-- LINGER_EXPIRY (R198). -/
def lingerExpiry (s : State) : State :=
  if fastOn s ∧ (visible s).isSome ∧ s.qu.lingerFrom + pnat s 0x7002 ≤ s.ck.mono then
    let s1 := noteAll (spaced ["queue linger", natText (fillOf s.qu), natText (packetCount s)]) s
    let wakes : Bool := s.pw.pass = .asleep && measuring s
    { s1 with
      pw := { s1.pw with pass := if wakes then .drain else s1.pw.pass }
      qu := { s1.qu with lingers := s1.qu.lingers + 1, lingerFlag := true, lingerFrom := s.ck.mono
                         drainAt := if wakes then s.ck.mono else s1.qu.drainAt } }
  else s

/-- DRAIN_PASS_END: the queue is empty, or 20 ms have passed; the linger timer restarts, and a line pass that is under way
goes on (R57, R198). -/
def drainPassEnd (s : State) : State :=
  if s.pw.pass = .drain ∧ (fillOf s.qu = 0 ∨ s.qu.drainAt + 20 ≤ s.ck.mono) then
    { s with pw := { s.pw with pass := if linesQuiet s then .asleep else .line }
             qu := { s.qu with lingerFrom := s.ck.mono } }
  else s

/-- RESERVATION_GRANT (R194). -/
def execReservationGrant (s : State) : Host.Outcome State Fault Refusal := .next (reservationGrant s)
/-- SHED_WAIT_TIMEOUT (R194). -/
def execShedWaitTimeout (g : Channel) (s : State) : Host.Outcome State Fault Refusal := done (shedWaitTimeout g s)
/-- SHED_SPELL_END (R194). -/
def execShedSpellEnd (s : State) : Host.Outcome State Fault Refusal := .next (shedSpellEnd s)
/-- RESERVATION_TIMEOUT (R195). -/
def execReservationTimeout (s : State) : Host.Outcome State Fault Refusal := .next (reservationTimeout s)
/-- DROP (R197). -/
def execDrop (rq : Req) (args : List String) (s : State) : Host.Outcome State Fault Refusal :=
  done (runLine rq "drop" (bodyDrop rq args) s)
/-- QUEUE_RESET (R199). -/
def execQueueReset (cause : QueueFault) (s : State) : Host.Outcome State Fault Refusal := done (queueReset cause s)
/-- LINGER_EXPIRY (R198). -/
def execLingerExpiry (s : State) : Host.Outcome State Fault Refusal := done (lingerExpiry s)
/-- DRAIN_PASS_END (R198). -/
def execDrainPassEnd (s : State) : Host.Outcome State Fault Refusal := .next (drainPassEnd s)

end Sys2Proof.Machine
end

