-- ==== Sys2Proof/Machine/Gather.lean ====
section
/-! DEFINITION. The gather engine (chapter 10): its address map, instructions, pacing, bus errors and GATHER requests. -/

namespace Sys2Proof.Machine

/-! ## The address map -/

/-- Addresses of the capture region (Table 10.1). -/
def inCapture (s : State) (a : Nat) : Bool :=
  s.ident.variant = .s4 && decide (captureBase s ≤ a ∧ a < 0x10800000)

/-- What the configuration area holds, in the order of Table 11.1, as numbers (R224): the field of State in each case. -/
def confContent (s : State) : List (List Int) :=
  let set := fun (p : Option Pricing) => match p with | some x => [x.rho, x.h, x.kc] | none => []
  let power := fun (p : Option PowerRec) => match p with
    | some x => (powerBytes x).map fun b => (b.toNat : Int)
    | none => []
  let table := fun (t : Table) => t.live.map fun q => [q.1, q.2]
  let pilot := fun (p : Option PilotValue) => match p with | some x => [(x.gain : Int), x.phase] | none => []
  (s.cm.params.map fun q => [(q.1 : Int), q.2])
  ++ allRuns.flatMap (fun r => let t := s.runs[r]
      [t.tabTemp, t.tabPress, t.tabK, t.tabDens, t.tabEnth, t.tabZ].flatMap table)
  ++ s.cm.pendingZ.map (fun m => [(m.param : Int), m.value])
  ++ allRuns.map (fun r => set s.runs[r].qty.kept)
  ++ allRuns.map (fun r => let x := s.runs[r].qty.keptTotals; [x.1, x.2.1, x.2.2])
  ++ s.ga.hostCopy.map (fun q => [(q.1 : Int), q.2.toNat])
  ++ allRuns.flatMap (fun r => [pilot s.runs[r].eng.pilot.refLift, pilot s.runs[r].eng.pilot.refVib])
  ++ [match s.ev.tiltRef with | some v => v.toList | none => []]
  ++ s.se.runs.toList.map (fun x => [x.kept.1, x.kept.2.1, x.kept.2.2.1, x.kept.2.2.2])
  ++ (s.pair.lastClose.toList.map fun w => [(w.number : Int), w.key])
  ++ (s.pair.lastClose.toList.flatMap fun w => w.totals.map fun q => [q.1, q.2])
  ++ s.sp.table.map (fun e => [e.kind, e.st, e.failed, e.spare, e.time].map fun (n : Nat) => (n : Int))
  ++ s.sp.rowErrors.map (fun q => [(q.1 : Int), (q.2 : Int)])
  ++ s.lg.results.flatMap (fun t =>
      ([t.occasion, t.verdict, t.count, t.time, t.itemsRun, t.itemsFailed, t.millis].map fun (n : Nat) => (n : Int))
      :: t.failures.map fun f => [f.1.item, f.1.fault, f.1.subject, f.2.1, f.2.2].map fun (n : Nat) => (n : Int))
  ++ s.sp.trends.toList.flatMap (fun t => t.map fun q => [(q.1 : Int), q.2])
  ++ [power s.lg.powerFail, power s.lg.stopRec]

/-- A word of a ferroelectric copy. The configuration area's places are open (log 21). -/
def ferroWord (s : State) (copy : List Host.Cell) (off : Nat) : Word :=
  let bytes := if 0x1000 ≤ off ∧ off < 0x40000 then (List.range 4).map fun i => Config.confByte (confContent s) (off + i)
    else fetchAll blankByte copy off 4
  BitVec.ofNat 32 (fromLe bytes)

/-- A word of a memory region: SRAM, capture region, ferroelectric copies, program memory; none elsewhere (R203). -/
def memWord (s : State) (a : Nat) : Option Word :=
  if a < 0x80000 then some (fetch 0 s.mem.sram (a / 4))
  else if inCapture s a then some (fetch 0 s.mem.cellar ((a - 0x10000000) / 4))
  else if 0x30000000 ≤ a ∧ a < 0x31000000 then some (ferroWord s s.mem.a (a - 0x30000000))
  else if 0x31000000 ≤ a ∧ a < 0x32000000 then some (ferroWord s s.mem.b (a - 0x31000000))
  else if 0x40000000 ≤ a ∧ a < 0x40004000 then some (progWord s ((a - 0x40000000) / 4))
  else none

/-- What a transfer of one word finds: done, a stall, or a bus error by kind code (R204). -/
inductive Move1 where
  | moved (w : Word) (packetEnds : Bool) (s : State)
  | stall
  | err (kind : Nat)

/-- Reads one word for a channel (R203, R204). -/
def readWord (g : Channel) (fixed : Bool) (a : Nat) (s : State) : Move1 :=
  if a = 0x20000000 then
    if fixed then match readPort g s with
      | some (w, e, t) => .moved w e t
      | none => .stall
    else .err 3
  else if a = 0x20000010 then
    if fixed then match s.ga.raw with
      | w :: ws => .moved w false { s with ga := { s.ga with raw := ws } }
      | [] => .stall
    else .err 3
  else if 5 ≤ g.val ∧ a < 0x80000 ∧ (a < 0x60000 ∨ 0x7C000 ≤ a) then .err 3
  else match memWord s a with
    | some w => .moved w false s
    | none => .err 3

/-- Kind of the bus error that a write at an address gives, where it gives one (R203, R204). -/
def writeError (g : Channel) (fixed : Bool) (a : Nat) (s : State) : Option Nat :=
  if a = 0x20000004 ∨ a = 0x20000020 ∨ a = 0x20000024 then (if fixed then none else some 3)
  else if 0x30000000 ≤ a ∧ a < 0x32000000 then some 2
  else if a < 0x80000 then (if 5 ≤ g.val ∧ (a < 0x60000 ∨ 0x7C000 ≤ a) then some 3 else none)
  else if inCapture s a then none
  else some 3


/-- Writes one word where `writeError` finds nothing; a word for the write port without a reservation is discarded
(R203, R210). -/
def writeWord (g : Channel) (a : Nat) (w : Word) (s : State) : State :=
  if a = 0x20000004 then
    if s.ga.chans[g].reserved then fillRegion g w s
    else s.modChan g fun c => { c with discard := c.discard - 1, shedMove := true }
  else if a = 0x20000020 then { s with ga := { s.ga with hostFifo := s.ga.hostFifo ++ [w] } }
  else if a = 0x20000024 then { s with ga := { s.ga with partnerFifo := s.ga.partnerFifo ++ [w] } }
  else if a < 0x80000 then { s with mem := { s.mem with sram := store 0 s.mem.sram (a / 4) w } }
  else { s with mem := { s.mem with cellar := store 0 s.mem.cellar ((a - 0x10000000) / 4) w } }

/-! ## Transmit ports -/

/-- The lines of a packet: origin, sequence, index and total, and up to 8 words (R221, log 26). -/
def packetLines (p : List Word) : List String :=
  let h := p.headD 0
  let n := (p.length + 7) / 8
  (List.range n).map fun i => spaced (["packet", natText (bits h 26 4), natText (bits h 0 8), natText (i + 1), natText n]
    ++ ((p.drop (8 * i)).take 8).map fun w => hexText 8 w.toNat)

/-- The host-line formatter takes whole packets from its port (R221), by fuel in packets. -/
def formatHost : Nat → State → State
  | 0, s => s
  | n + 1, s =>
    match s.ga.hostFifo with
    | [] => s
    | h :: _ =>
      let len := bits h 16 8 + 1
      if s.ga.hostFifo.length < len then s
      else
        let p := s.ga.hostFifo.take len
        let s1 := { s with ga := { s.ga with hostFifo := s.ga.hostFifo.drop len } }
        formatHost n (if pget s 0x7182 = 1 then noteSeries .host (packetLines p) s1 else s1)

/-- Both formatters take what stands in their ports; the partner's frames are those of chapter 12 (log 26). -/
def formatPorts (s : State) : State :=
  let s1 := formatHost s.ga.hostFifo.length s
  { s1 with ga := { s1.ga with partnerFifo := [] } }

/-! ## Pace -/

/-- Level of a channel's pace source (R213). -/
def paceLevel (s : State) (g : Channel) : Option Nat :=
  let k := pget s (chanBase g + 2)
  if k = 1 then
    some (if s.qu.lingerFlag then pnat s (chanBase g + 3)
      else ((s.qu.regions.filter fun r => r.committed && !r.void).map (·.len)).sum + openWords s)
  else if k = 2 then some (1024 - s.ga.hostFifo.length)
  else if k = 3 then some (512 - s.ga.partnerFifo.length)
  else none

/-- A channel pauses: at or below its low mark, and not holding the read port (R213). -/
def pauseDue (s : State) (g : Channel) : Bool :=
  match paceLevel s g with
  | some l => decide (l ≤ pnat s (chanBase g + 4)) && !holdsPort s g
  | none => false

/-- Pauses a running channel where its pace says so. -/
def settlePace (g : Channel) (s : State) : State :=
  if s.ga.chans[g].st = .run ∧ pauseDue s g then s.modChan g fun c => { c with st := .paused } else s

/-! ## Starts and ends -/


/-- Ends a program: the CRC into the word that follows and into the record, counters idle, the reservation rewound; the
channel restarts or is idle (R205, R211). -/
def endProgram (g : Channel) (status : Nat) (restart : Bool) (s : State) : State :=
  let c := s.ga.chans[g]
  let crc := c.crc ^^^ 0xFFFFFFFF
  let s1 := post g 3 status 0 crc (setProg (c.pc + 1) crc (abandonMark g s))
  let s2 := s1.modChan g fun d => { d with
    crcOut := some crc, crc := 0xFFFFFFFF, loops := Vector.replicate 4 none, discard := 0, moved := 0, burst := 0
    shedMove := false, st := .idle }
  if restart then startChan g s2 else s2

/-! ## Bus errors -/

/-- Names of the bus errors (R204). -/
def busName (kind : Nat) : String := ["", "uncorrectable", "sealed", "unmapped", "timeout"].getD kind ""

/-- A failed transfer (R218): HALT latches and waits, SKIP goes on after the descriptor. -/
def busError (g : Channel) (kind a : Nat) (write : Bool) (s : State) : State :=
  let c := s.ga.chans[g]
  let aw := BitVec.ofNat 32 a
  let s1 := post g 5 (8 + kind) c.moved aw (abandonMark g s)
  if pget s (chanBase g + 5) = 0 then
    let s2 := releasePort g (s1.modChan g fun d => { d with st := .halt, fault := some ⟨aw, write, kind⟩ })
    noteAll (spaced ["gather", chanText g, "halt", busName kind, hexText 8 a, if write then "write" else "read"]) s2
  else finishMove g (8 + kind) true s1

/-! ## MOVE -/

/-- Working source and destination at the start of a MOVE (R203, R206); a raw read starts at the next frame. -/
def moveStart (g : Channel) (s : State) : State :=
  let c := s.ga.chans[g]
  let pick := fun (w old : Word) => if w = 0xFFFFFFFF then old else w &&& 0xFFFFFFFC
  let src := pick (progWord s (c.pc + 1)) c.src
  let s1 := s.modChan g fun d => { d with src := src, dst := pick (progWord s (c.pc + 2)) d.dst }
  if src = 0x20000010 then { s1 with ga := { s1.ga with raw := s1.ga.raw.drop (s1.ga.raw.length % 8) } } else s1

/-- A corrected error of a cellar word (R191, R333). -/
def correctedError (a : Nat) (s : State) : State :=
  let row := (a - 0x10000000) / 8192
  let s1 := s.modQueue fun q => { q with corrected := q.corrected + 1 }
  if inCapture s a then
    { s1 with sp := { s1.sp with rowErrors := store 0 s1.sp.rowErrors row (min 255 (fetch 0 s1.sp.rowErrors row + 1)) } }
  else s1

/-- Adds 1 to `queue.ecc.uncorrected` (R191). -/
def uncorrectable (s : State) : State := s.modQueue fun q => { q with uncorrected := q.uncorrected + 1 }

/-- An error that a memory raises on the word being read, where it can: a single bit can be corrected in the cellar alone,
not in a landing or the chute, which hold parity bits (R191, R204). -/
def memoryError (a : Nat) (e : Option TransferError) (s : State) : State × Option Nat :=
  match e with
  | some .uncorrectable => if inCapture s a ∨ a = 0x20000000 then (uncorrectable s, some 1) else (s, none)
  | some .timeout => if (memWord s a).isSome then (s, some 4) else (s, none)
  | some .corrected =>
    if inCapture s a ∨ (a = 0x20000000 ∧ chute s = false) then (correctedError a s, none) else (s, none)
  | _ => (s, none)

/-- The memory written gives no response (R204); the ports never time out. -/
def writeTimesOut (a : Nat) (e : Option TransferError) (s : State) : Bool :=
  e = some .writeTimeout && (decide (a < 0x80000) || inCapture s a)

/-- A parity error on a word that the channel has written into a landing makes its packet a bad one (R191, R195). -/
def landingError (g : Channel) (a : Nat) (e : Option TransferError) (s : State) : State :=
  if e = some .landing ∧ a = 0x20000004 ∧ s.qu.regions.any (fun r => r.origin = chanOrigin g) then
    let o := chanOrigin g
    let last := (s.qu.regions.filter fun r => r.origin = o).getLast?
    (spoil (fun r => some r = last) (uncorrectable s)).modChan g fun c => { c with reserved := false }
  else s

/-- Advances a channel by the word it moved: addresses, count and CRC (R206, R211). -/
def advance (g : Channel) (srcFixed dstFixed : Bool) (w : Word) (s : State) : State :=
  s.modChan g fun c => { c with
    src := if srcFixed then c.src else c.src + 4, dst := if dstFixed then c.dst else c.dst + 4
    moved := c.moved + 1, crc := crc32Word c.crc w }

/-- A word with an uncorrectable error is delivered as read (R191). In SKIP mode the channel goes on behind it; in HALT mode
it may issue the word again, so its addresses stand (R218). -/
def deliverBad (g : Channel) (sf df : Bool) (s : State) : State :=
  let c := s.ga.chans[g]
  if writeStalls c.dst.toNat s then s
  else match readWord g sf c.src.toNat s with
    | .moved w _ t =>
      let u := writeWord g c.dst.toNat w t
      if pget s (chanBase g + 5) = 1 then advance g sf df w u else u
    | _ => s

/-- A read that fails. An uncorrectable header word at the read port resets the queue (R191, R199). -/
def readFails (g : Channel) (kind a : Nat) (sf df : Bool) (s : State) : State :=
  if kind = 1 then
    let t := busError g kind a false (deliverBad g sf df s)
    if a = 0x20000000 ∧ s.qu.port.isNone then queueReset .header t else t
  else busError g kind a false s

/-- A channel may execute: the engine runs, the channel runs, no record of it waits, and no stop has reached a descriptor
boundary (R212, R214, R217, R220). -/
def chanReady (s : State) (g : Channel) : Bool :=
  let c := s.ga.chans[g]
  engineOn s && c.st = .run && c.ringWait.isNone && !(c.stopReq && c.moved = 0)

/-- The word that a channel stands at, and whether its opcode is `op`. -/
def wordAt (s : State) (g : Channel) : Word := progWord s s.ga.chans[g].pc
def standsAt (s : State) (g : Channel) (op : Nat) : Bool :=
  decide (s.ga.chans[g].pc < 4096) && bits (wordAt s g) 28 4 = op

/-- A channel that is ready for a burst. -/
def busReady (s : State) (g : Channel) : Bool := chanReady s g && standsAt s g 1

/-- Order of a ready channel: its priority, then its place in the round behind the channel last served there (R212). -/
def busRank (s : State) (g : Channel) : Nat :=
  let p : Fin 4 := ⟨pnat s (chanBase g + 1) % 4, Nat.mod_lt _ (by decide)⟩
  8 * p.val + (g.val + 7 - (s.ga.served[p]).val) % 8

/-- The bus is the channel's for its next burst (R212). -/
def hasBus (s : State) (g : Channel) : Bool :=
  (List.finRange 8).all fun h => !busReady s h || busRank s g ≤ busRank s h

/-- The bus is granted to a channel for a burst (R212). -/
def takeBus (g : Channel) (s : State) : State :=
  let p : Fin 4 := ⟨pnat s (chanBase g + 1) % 4, Nat.mod_lt _ (by decide)⟩
  { s with ga := { s.ga with served := s.ga.served.set p.val g p.isLt } }

/-- A stall ends the burst (R212). -/
def stallChan (g : Channel) (s : State) : State := s.modChan g fun d => { d with st := .stall, burst := 0 }

/-- Moves words until the descriptor or the packet ends, at a burst boundary the pace pauses the channel or the bus goes to
another, a port stalls or a transfer fails (R206, R212, R213), by fuel in words. `err` is the word at which a memory raises
an error. -/
def moveLoop : Nat → Channel → Option (Nat × TransferError) → State → State
  | 0, _, _, s => s
  | n + 1, g, err, s =>
    let c := s.ga.chans[g]
    let w0 := progWord s c.pc
    let sf : Bool := bits w0 26 1 = 1
    let df : Bool := bits w0 25 1 = 1
    let src := c.src.toNat
    let dst := c.dst.toNat
    let here := match err with | some q => if q.1 = c.moved then some q.2 else none | none => none
    if max 1 (bits w0 0 16) ≤ c.moved then finishMove g 0 false s
    else if c.burst = 0 ∧ pauseDue s g then s.modChan g fun d => { d with st := .paused }
    else if c.burst = 0 ∧ hasBus s g = false then s
    else match writeError g df dst s with
      | some k => busError g k dst true s
      | none =>
        let e := memoryError src here s
        match e.2 with
        | some k => readFails g k src sf df e.1
        | none =>
          if writeTimesOut dst here s then busError g 4 dst true s
          else if writeStalls dst s then stallChan g s
          else match readWord g sf src e.1 with
            | .err k => busError g k src false s
            | .stall => stallChan g s
            | .moved w ends s1 =>
              let s2 := (takeBus g (advance g sf df w (landingError g dst here (writeWord g dst w s1)))).modChan g fun d =>
                { d with burst := (c.burst + 1) % (bits w0 21 4 + 1) }
              if ends then finishMove g 1 false s2 else moveLoop n g err s2

/-- MOVE: the bursts for which the channel has the bus (R206, R212). -/
def moveStep (g : Channel) (err : Option (Nat × TransferError)) (s : State) : State :=
  if chanReady s g ∧ standsAt s g 1 then
    let c := s.ga.chans[g]
    if bits (wordAt s g) 27 1 = 0 ∧ c.moved = 0 then endProgram g 3 false s
    else
      let s1 := if c.moved = 0 then moveStart g s else s
      settlePace g (formatPorts (moveLoop (max 1 (bits (wordAt s g) 0 16) + 1) g err s1))
  else s

/-! ## The other instructions -/

/-- Goes on with the next instruction. -/
def nextInstr (g : Channel) (s : State) : State := settlePace g (s.modChan g fun c => { c with pc := c.pc + 1 })

/-- LOOP (R207). -/
def loopStep (g : Channel) (s : State) : State :=
  if chanReady s g ∧ standsAt s g 2 then
    let w := wordAt s g
    let k : Fin 4 := ⟨bits w 14 2, by simp [bits]; omega⟩
    let c := s.ga.chans[g]
    let left := (c.loops[k].getD (max 1 (bits w 16 12))) - 1
    if 0 < left then
      settlePace g (s.modChan g fun d => { d with
        loops := d.loops.set k.val (some left) k.isLt, pc := min (bits w 0 12) d.pc })
    else nextInstr g (s.modChan g fun d => { d with loops := d.loops.set k.val none k.isLt })
  else s

/-- Time-out of a WAIT in µs (R208). -/
def waitMicros (w : Word) : Nat :=
  let n := bits w 0 14
  let u := bits w 14 2
  if n = 0 then 1 else if u = 0 then n else if u = 1 then 1000 * n else 1000000 * n

/-- Condition of a WAIT (R208). -/
def waitCond (w : Word) : Nat := if 5 ≤ bits w 24 3 then 0 else bits w 24 3

/-- Bank that a WAIT of condition 1 or 2 names. -/
def waitBank (w : Word) : Channel := ⟨bits w 21 3, by simp [bits]; omega⟩

/-- Flags that a WAIT of condition 1 or 2 looks at. -/
def waitMask (w : Word) : Word :=
  let f := bits w 16 5
  if waitCond w = 1 then 1#32 <<< f else BitVec.ofNat 32 (2 ^ (f + 1) - 1)

/-- The condition of a channel's WAIT holds (Table 10.2). -/
def waitHolds (s : State) (g : Channel) : Bool :=
  let w := wordAt s g
  let k := waitCond w
  if k = 1 ∨ k = 2 then s.ga.chans[waitBank w].flags &&& waitMask w ≠ 0
  else if k = 3 then (visible s).isSome
  else if k = 4 then s.ga.chans[g].markReady
  else false

/-- Address of the next END in program order (R208), by fuel; past the memory where there is none. -/
def nextEnd (s : State) : Nat → Nat → Nat
  | 0, _ => 4096
  | n + 1, a => if 4096 ≤ a then 4096 else if bits (progWord s a) 28 4 = 6 then a
    else nextEnd s n (a + instrLength (progWord s a))

/-- A WAIT times out, with status 5 where the monitor expires it (R208, R216, R219). -/
def expireWait (g : Channel) (status : Nat) (s : State) : State :=
  let w := wordAt s g
  let s1 := post g 4 status 0 0 s
  if bits w 27 1 = 1 then
    let pc := nextEnd s 4096 (s.ga.chans[g].pc + 1)
    let s2 := if waitCond w = 4 then abandonMark g s1 else s1
    settlePace g (s2.modChan g fun c => { c with st := .run, waitUntil := none, pc := pc })
  else nextInstr g (s1.modChan g fun c => { c with st := .run, waitUntil := none })

/-- The condition of a WAIT holds: its flags are consumed (Table 10.2). -/
def passWait (g : Channel) (s : State) : State :=
  let w := wordAt s g
  let s1 := if waitCond w = 1 ∨ waitCond w = 2 then
      s.modChan (waitBank w) fun c => { c with flags := c.flags &&& ~~~ waitMask w } else s
  nextInstr g (s1.modChan g fun c => { c with st := .run, waitUntil := none })

/-- A channel stands at a WAIT, and no stop is requested, which would take effect there (R208, R214). -/
def atWait (s : State) (g : Channel) : Bool := s.ga.chans[g].st = .wait && !s.ga.chans[g].stopReq

/-- A channel waits on a flag of another's bank. -/
def waitsOn (s : State) (g h : Channel) : Bool :=
  s.ga.chans[g].st = .wait && (waitCond (wordAt s g) = 1 || waitCond (wordAt s g) = 2) && waitBank (wordAt s g) = h

/-- WAIT_RING_BREAK: of two channels that wait on each other, the one of lower priority expires, as at a timeout; a condition
that holds wins (R208, R219). -/
def breakRing (g h : Channel) (s : State) : State :=
  if g ≠ h ∧ waitsOn s g h ∧ waitsOn s h g then
    let pg := pget s (chanBase g + 1)
    let ph := pget s (chanBase h + 1)
    let loser := if ph < pg ∨ (pg = ph ∧ h.val < g.val) then g else h
    if waitHolds s loser then s else expireWait loser 5 { s with ga := { s.ga with ringBreaks := s.ga.ringBreaks + 1 } }
  else s

/-- Requests the reservation of the MARK at an address; whether it is granted at once (R194, R210). The header's sequence
comes with the grant. -/
def requestMark (g : Channel) (pc : Nat) (s : State) : State × Bool :=
  let w := progWord s pc
  let cls := if bits w 26 2 = 0 then 3 else bits w 26 2
  let len := bits w 10 8 + 1
  let o := chanOrigin g
  let wt : Waiter := { origin := o, cls := cls, words := [header cls o len (bits w 18 8) 0], len := len, since := s.ck.mono }
  let s1 := ask s wt
  let granted : Bool := !(s1.qu.waiters.any fun v => v.origin = o)
  (s1.modChan g fun c => { c with reserved := granted && decide (1 < len), discard := 0 }, granted)

/-- WAIT (R208, R219). -/
def waitStep (g : Channel) (s : State) : State :=
  if chanReady s g ∧ standsAt s g 3 then
    let w := wordAt s g
    let pc := s.ga.chans[g].pc
    let s1 := s.modChan g fun c => { c with st := .wait, waitUntil := some (1000 * s.ck.mono + waitMicros w) }
    let s2 := if waitCond w = 4 ∧ bits (progWord s (pc + 1)) 28 4 = 5 then
        let q := requestMark g (pc + 1) (abandonMark g s1)
        q.1.modChan g fun c => { c with markReady := q.2 }
      else s1
    (List.finRange 8).foldl (fun t h => breakRing g h t) s2
  else s

/-- WAIT_SATISFIED (R208). -/
def waitSatisfied (g : Channel) (s : State) : State :=
  if engineOn s ∧ atWait s g ∧ waitHolds s g then passWait g s else s

/-- WAIT_TIMEOUT: in real time; a condition that holds wins (R208). -/
def waitTimeout (g : Channel) (s : State) : State :=
  match s.ga.chans[g].waitUntil with
  | some t =>
    if atWait s g ∧ t ≤ 1000 * s.ck.mono then
      if engineOn s ∧ waitHolds s g then passWait g s else expireWait g 0 s
    else s
  | none => s

/-- SIGNAL (R209). -/
def signalStep (g : Channel) (s : State) : State :=
  if chanReady s g ∧ standsAt s g 4 then
    let w := wordAt s g
    nextInstr g (if bits w 27 1 = 0 then setFlag ⟨bits w 24 3, by simp [bits]; omega⟩ (bits w 16 5) s
      else post g 2 0 (bits w 0 16) 0 s)
  else s

/-- MARK (R210). The request of a WAIT of condition 4 that timed out goes on as this MARK's. -/
def markStep (g : Channel) (s : State) : State :=
  if chanReady s g ∧ standsAt s g 5 then
    if s.ga.chans[g].markReady then nextInstr g (s.modChan g fun c => { c with markReady := false })
    else if s.qu.waiters.any (fun v => v.origin = chanOrigin g) then s.modChan g fun c => { c with st := .stall }
    else
      let q := requestMark g s.ga.chans[g].pc (abandonMark g s)
      if q.2 then nextInstr g q.1 else q.1.modChan g fun c => { c with st := .stall }
  else s

/-- END (R211). -/
def endStep (g : Channel) (s : State) : State :=
  if chanReady s g ∧ standsAt s g 6 then settlePace g (endProgram g 0 (bits (wordAt s g) 27 1 = 1) s) else s

/-- OPCODE_FAULT: an undefined opcode, or a program counter past FFFh (R205). -/
def opcodeFault (g : Channel) (s : State) : State :=
  let op := bits (wordAt s g) 28 4
  if chanReady s g ∧ (4096 ≤ s.ga.chans[g].pc ∨ op = 0 ∨ 7 ≤ op) then endProgram g 4 false s else s

/-! ## Stalls, pace and stops -/

/-- The MOVE that a channel stalls in could move a word now. -/
def canMove (s : State) (g : Channel) : Bool :=
  let c := s.ga.chans[g]
  let w0 := wordAt s g
  !writeStalls c.dst.toNat s && match readWord g (bits w0 26 1 = 1) c.src.toNat s with
    | .stall => false
    | _ => true

/-- PORT_STALL_END: the channel goes on with its MOVE (R204). -/
def portStallEnd (g : Channel) (s : State) : State :=
  if engineOn s ∧ s.ga.chans[g].st = .stall ∧ standsAt s g 1 ∧ canMove s g then
    s.modChan g fun c => { c with st := .run }
  else s

/-- PACE_RESUME (R213). -/
def paceResume (g : Channel) (s : State) : State :=
  let ready : Bool := match paceLevel s g with
    | some l => decide (pnat s (chanBase g + 3) ≤ l)
    | none => true
  if engineOn s ∧ s.ga.chans[g].st = .paused ∧ ready = true then s.modChan g fun c => { c with st := .run } else s

/-- CHANNEL_STOPPED: a requested stop at a descriptor boundary (R214). -/
def channelStopped (g : Channel) (s : State) : State :=
  let c := s.ga.chans[g]
  if c.stopReq ∧ c.st ≠ .idle ∧ c.st ≠ .halt ∧ c.ringWait.isNone ∧ (c.moved = 0 ∨ c.st = .stall) then
    let s1 := releasePort g (abandonMark g (post g 6 0 c.moved 0 s))
    noteAll (spaced ["gather", chanText g, "stopped"])
      (s1.modChan g fun d => { d with st := .idle, stopReq := false, moved := 0, burst := 0, shedMove := false, waitUntil := none
                                      loops := Vector.replicate 4 none, crc := 0xFFFFFFFF })
  else s

/-- RING_POST_TIMEOUT: after 10 ms without a slot the record is dropped (R217). -/
def ringPostTimeout (g : Channel) (s : State) : State :=
  match s.ga.chans[g].ringWait with
  | some q =>
    if q.2 + 10 ≤ s.ck.mono then
      { s.modChan g fun c => { c with ringWait := none } with
        ga := { (s.modChan g fun c => { c with ringWait := none }).ga with ringLost := s.ga.ringLost + 1 } }
    else s
  | none => s

/-! ## GATHER requests -/

/-- The stored form of an instruction word at an address (R205 ... R211). -/
def storedInstr (a : Nat) (w : Word) : Word :=
  let n := w.toNat
  let op := bits w 28 4
  if op = 1 then BitVec.ofNat 32 (n / 2 ^ 20 * 2 ^ 20 + max 1 (n % 2 ^ 16))
  else if op = 2 then
    BitVec.ofNat 32 (2 * 2 ^ 28 + max 1 (bits w 16 12) * 2 ^ 16 + bits w 14 2 * 2 ^ 14 + min a (bits w 0 12))
  else if op = 3 then
    let t := if bits w 0 14 = 0 then 1 else (min 2 (bits w 14 2)) * 2 ^ 14 + bits w 0 14
    BitVec.ofNat 32 (n / 2 ^ 27 * 2 ^ 27 + waitCond w * 2 ^ 24 + bits w 16 8 * 2 ^ 16 + t)
  else if op = 4 then
    if bits w 27 1 = 0 then BitVec.ofNat 32 (n / 2 ^ 24 * 2 ^ 24 + bits w 16 5 * 2 ^ 16)
    else BitVec.ofNat 32 (n / 2 ^ 27 * 2 ^ 27 + n % 2 ^ 16)
  else if op = 5 then
    BitVec.ofNat 32 (5 * 2 ^ 28 + (if bits w 26 2 = 0 then 3 else bits w 26 2) * 2 ^ 26 + bits w 10 16 * 2 ^ 10)
  else if op = 6 then BitVec.ofNat 32 (n / 2 ^ 27 * 2 ^ 27)
  else w

/-- First words of the instructions from an address on, in program order, by fuel. -/
def instrStarts (word : Nat → Word) : Nat → Nat → List Nat
  | 0, _ => []
  | n + 1, a => if 4096 ≤ a then [] else a :: instrStarts word n (a + instrLength (word a))

/-- An address word of a MOVE as stored: its two low bits are 0 (R203), but the word that continues stands (R206). -/
def storedAddress (w : Word) : Word := if w = 0xFFFFFFFF then w else w &&& 0xFFFFFFFC

/-- The words of a `gather word` as stored: those that begin an instruction, counted from C00h, take its stored form, and
the address words of a MOVE theirs (log 26). -/
def storedWords (s : State) (a : Nat) (ws : List Word) : List (Nat × Word) :=
  let written := ws.zipIdx.filterMap fun q => if a + q.2 < 4096 then some (a + q.2, q.1) else none
  let word := fun (k : Nat) => match written.find? fun q => q.1 = k with
    | some q => q.2
    | none => progWord s k
  let starts := instrStarts word 1024 0xC00
  let isMove := fun (k : Nat) => decide (k ∈ starts) && bits (word k) 28 4 = 1
  written.map fun q =>
    if q.1 ∈ starts then (q.1, storedInstr q.1 q.2)
    else if isMove (q.1 - 1) || isMove (q.1 - 2) then (q.1, storedAddress q.2) else q

/-- Order 3 of a request that needs RUN or SAFE: `no state` everywhere else (R222). -/
def gatherState (s : State) : Except Reason Unit := need (s.pw.ms = .run || s.pw.ms = .safe) .badState

/-- The line of a channel in `gather show` (R222). -/
def chanLine (s : State) (g : Channel) : String :=
  let b := chanBase g
  let v := fun (o : Nat) => roText s (b + o)
  spaced [chanText g, chanNames.getD (chanCode (shownChan s.ga.chans[g])).toNat "", v 0xB, intText (pget s (b + 1)),
    (match paceLevel s g with | some l => natText l | none => "-"), v 0xC, v 0xD]

def bodyGatherShow (rq : Req) (args : List String) : Body := fun s => do
  need (args.length ≤ 1) .badForm
  let gs ← match args with
    | t :: _ => (chanField t).map fun g => [g]
    | [] => .ok (List.finRange 8)
  served s "gather"
  needRole s rq.line .operate
  .ok (s, gs.map (fun g => "part " ++ chanLine s g) ++ ["ok gather show"])

def bodyGatherRing (rq : Req) (args : List String) : Body := fun s => do
  need (args.length ≤ 1) .badForm
  let n ← match args with
    | t :: _ => countField 1 256 t
    | [] => .ok 16
  served s "gather"
  needRole s rq.line .operate
  let rs := s.ga.ring.drop (s.ga.ring.length - n)
  .ok (s, rs.map (fun r => "part " ++ spaced (r.map fun w => hexText 8 w.toNat)) ++ ["ok gather ring " ++ natText rs.length])

def bodyGatherRead (rq : Req) (args : List String) : Body := fun s => do
  match args with
  | [at_, ct] =>
    let a ← hexField at_
    let n ← countField 1 64 ct
    served s "gather"
    needRole s rq.line .operate
    let a0 := a / 4 * 4
    .ok (s, ((List.range n).map fun i => "part " ++ spaced [hexText 8 (a0 + 4 * i),
      match memWord s (a0 + 4 * i) with | some w => hexText 8 w.toNat | none => "-"]) ++ ["ok gather read"])
  | _ => .error .badForm

def bodyGatherWord (rq : Req) (args : List String) : Body := fun s => do
  match args with
  | at_ :: ws =>
    need (1 ≤ ws.length && ws.length ≤ 8) .badForm
    let a0 ← hexField at_
    let vs ← ws.mapM hexField
    need (vs.all fun v => v < 2 ^ 32) .badForm
    gatherState s
    let free : Bool := [5, 6, 7].all fun (k : Fin 8) => s.ga.chans[k].st = .idle || s.ga.chans[k].st = .halt
    need free .taken
    needRole s rq.line .operate
    let a := (clampInt 0xC00 0xFFF a0).toNat
    let st := storedWords s a (vs.map fun v => BitVec.ofNat 32 v)
    let s1 := st.foldl (fun t q =>
      let u := setProg q.1 q.2 t
      { u with ga := { u.ga with hostCopy := store 0 u.ga.hostCopy q.1 q.2 } }) s
    .ok (auditLine rq.line 0x0D 0 a 0 st.length s1,
      [spaced (["ok gather word", hexText 4 a] ++ st.map fun q => hexText 8 q.2.toNat)])
  | [] => .error .badForm

/-- The one channel field of a request. -/
def oneChannel (args : List String) : Except Reason Channel :=
  match args with
  | [t] => chanField t
  | _ => .error .badForm

def bodyGatherStart (rq : Req) (args : List String) : Body := fun s => do
  let g ← oneChannel args
  gatherState s
  need (g.val < 5 || s.ga.chans[g].st = .idle) .taken
  need (5 ≤ g.val) .noRole
  needRole s rq.line .operate
  .ok (startChan g s, ["ok gather start " ++ chanText g])

def bodyGatherStop (rq : Req) (args : List String) : Body := fun s => do
  let g ← oneChannel args
  gatherState s
  need (5 ≤ g.val) .noRole
  needRole s rq.line .operate
  .ok (s.modChan g fun c => { c with stopReq := decide (c.st ≠ .idle) }, ["ok gather stop " ++ chanText g])

/-- A request to a halted channel (R218). -/
def haltedRequest (rq : Req) (args : List String) (word : String) (act : Channel → State → State) : Body := fun s => do
  let g ← oneChannel args
  gatherState s
  need (s.ga.chans[g].st = .halt) .badState
  needRole s rq.line .operate
  .ok (act g s, [spaced ["ok gather", word, chanText g]])

/-- `gather resume`: the failing word is issued again (R218). -/
def resumeChan (g : Channel) (s : State) : State := s.modChan g fun c => { c with st := .run, fault := none }

/-- `gather skip`: the descriptor as in SKIP mode (R218). -/
def skipChan (g : Channel) (s : State) : State :=
  match s.ga.chans[g].fault with
  | some f => finishMove g (8 + f.kind) true (s.modChan g fun c => { c with fault := none })
  | none => s.modChan g fun c => { c with st := .run }

/-- `gather reset`: the program ends; G0 … G4 restart (R218). -/
def resetChan (g : Channel) (s : State) : State :=
  let s1 := s.modChan g fun c => { c with st := .idle, fault := none, moved := 0, burst := 0, shedMove := false, crc := 0xFFFFFFFF
                                          loops := Vector.replicate 4 none }
  if g.val < 5 then startChan g s1 else s1

/-- GATHER_SHOW (R222). -/
def execGatherShow (rq : Req) (args : List String) (s : State) : Host.Outcome State Fault Refusal :=
  done (runLine rq "gather" (bodyGatherShow rq args) s)
/-- GATHER_RING (R222). -/
def execGatherRing (rq : Req) (args : List String) (s : State) : Host.Outcome State Fault Refusal :=
  done (runLine rq "gather" (bodyGatherRing rq args) s)
/-- GATHER_READ (R222). -/
def execGatherRead (rq : Req) (args : List String) (s : State) : Host.Outcome State Fault Refusal :=
  done (runLine rq "gather" (bodyGatherRead rq args) s)
/-- GATHER_WORD (R222). -/
def execGatherWord (rq : Req) (args : List String) (s : State) : Host.Outcome State Fault Refusal :=
  done (runLine rq "gather" (bodyGatherWord rq args) s)
/-- GATHER_START (R222). -/
def execGatherStart (rq : Req) (args : List String) (s : State) : Host.Outcome State Fault Refusal :=
  done (runLine rq "gather" (bodyGatherStart rq args) s)
/-- GATHER_STOP (R222). -/
def execGatherStop (rq : Req) (args : List String) (s : State) : Host.Outcome State Fault Refusal :=
  done (runLine rq "gather" (bodyGatherStop rq args) s)
/-- GATHER_RESUME (R218). -/
def execGatherResume (rq : Req) (args : List String) (s : State) : Host.Outcome State Fault Refusal :=
  done (runLine rq "gather" (haltedRequest rq args "resume" resumeChan) s)
/-- GATHER_SKIP (R218). -/
def execGatherSkip (rq : Req) (args : List String) (s : State) : Host.Outcome State Fault Refusal :=
  done (runLine rq "gather" (haltedRequest rq args "skip" skipChan) s)
/-- GATHER_RESET (R218). -/
def execGatherReset (rq : Req) (args : List String) (s : State) : Host.Outcome State Fault Refusal :=
  done (runLine rq "gather" (haltedRequest rq args "reset" resetChan) s)
/-- MOVE (R206). -/
def execMove (g : Channel) (err : Option (Nat × TransferError)) (s : State) : Host.Outcome State Fault Refusal :=
  done (moveStep g err s)
/-- LOOP (R207). -/
def execLoop (g : Channel) (s : State) : Host.Outcome State Fault Refusal := .next (loopStep g s)
/-- WAIT (R208). -/
def execWait (g : Channel) (s : State) : Host.Outcome State Fault Refusal := .next (waitStep g s)
/-- WAIT_SATISFIED (R208). -/
def execWaitSatisfied (g : Channel) (s : State) : Host.Outcome State Fault Refusal := .next (waitSatisfied g s)
/-- WAIT_TIMEOUT (R208). -/
def execWaitTimeout (g : Channel) (s : State) : Host.Outcome State Fault Refusal := .next (waitTimeout g s)
/-- SIGNAL (R209). -/
def execSignal (g : Channel) (s : State) : Host.Outcome State Fault Refusal := .next (signalStep g s)
/-- MARK (R210). -/
def execMark (g : Channel) (s : State) : Host.Outcome State Fault Refusal := .next (markStep g s)
/-- END (R211). -/
def execEndProg (g : Channel) (s : State) : Host.Outcome State Fault Refusal := .next (endStep g s)
/-- OPCODE_FAULT (R205). -/
def execOpcodeFault (g : Channel) (s : State) : Host.Outcome State Fault Refusal := .next (opcodeFault g s)
/-- PORT_STALL_END (R204). -/
def execPortStallEnd (g : Channel) (s : State) : Host.Outcome State Fault Refusal := .next (portStallEnd g s)
/-- PACE_RESUME (R213). -/
def execPaceResume (g : Channel) (s : State) : Host.Outcome State Fault Refusal := .next (paceResume g s)
/-- CHANNEL_STOPPED (R214). -/
def execChannelStopped (g : Channel) (s : State) : Host.Outcome State Fault Refusal := done (channelStopped g s)
/-- RING_POST_TIMEOUT (R217). -/
def execRingPostTimeout (g : Channel) (s : State) : Host.Outcome State Fault Refusal := .next (ringPostTimeout g s)

end Sys2Proof.Machine
end

