-- ==== Sys2Proof/Machine/Power.lean ====
section
/-! DEFINITION. Supply, backup cell, reset, start and stop (R21 ... R26, R67 ... R71, R77 ... R80, R349, R350, R359,
R360). -/

namespace Sys2Proof.Machine

/-! ## What a START clears -/

/-- A run after the zero-fill: what is kept in the always-on domain and in ferroelectric memory stays (R78, R368). The
pricing set is the one kept there (R155); the totals, which are never reset (R162), and the open interval stand
(DEDUCED, log 4). -/
def RunSt.fresh (t : RunSt) : RunSt :=
  let p : Pilot := { Pilot.reset with refLift := t.eng.pilot.refLift, refVib := t.eng.pilot.refVib, day := t.eng.pilot.day }
  let q := t.qty
  { t with
    rate := none, fe := .reset, recog := .reset, eng := { EngineRun.reset with pilot := p }
    qty := { q with cur := .zero, last := none, rhoH := none, good := none, carry := none, pricing := q.kept } }

/-- The event engine after the zero-fill; programs, tilt reference and adoptions that wait are kept (R182). -/
def Events.fresh (e : Events) : Events :=
  { e with raised := [], posts := [], machines := e.machines.map StMachine.clear
           levels := Vector.replicate 8 ⟨false, 0⟩, rates := [], lost := 0, knock := none, knockAt := none
           fallArmed := true, fallRun := none, riseRun := 0, falls := [], rotVec := Vector.replicate 3 0
           gyroBias := Vector.replicate 3 0, gyro := (0, Vector.replicate 3 0, 0, true), turns := []
           tiltSum := (Vector.replicate 3 0, 0), tiltVec := none, tiltDue := false, tiltArmed := true, tickAt := none
           passRun := (0, 0), rot := none, tilt := none }

/-- The matrix after the zero-fill; the beep generator lives in the always-on domain (R115). -/
def Matrix.fresh (m : Matrix) : Matrix :=
  { m.rest with sat := Vector.replicate 18 0, fits := Vector.replicate 4 none, active := [], shadow := [], swap := false
                copying := false, late := none, axes := Vector.replicate 6 0, axisAge := 0 }

/-- The gather engine after the zero-fill: programs reloaded, flags, rings and ports empty (R220). -/
def Gather.fresh (g : Gather) : Gather :=
  { g with chans := Vector.replicate 8 .reset, prog := [], ring := [], ringNext := 0, ringUsed := 0, ringLost := 0
           ringBreaks := 0, raw := [], hostFifo := [], partnerFifo := [] }

/-- The conversation after the zero-fill: no session, no resolved role, counters 0 (R253, R270). -/
def Pair.fresh_ (p : Pair) : Pair :=
  { clearWindow p with st := .idle, up := none, rtt := none, rto := none, pause := 0, offset := 0, delay := 0, checkDmg := 0
                       dataDmg := 0, gaps := 0, retrans := 0, resync := 0, proto := 0 }

/-- A current output after START. -/
def Co.fresh (c : Co) : Co :=
  { c with loopOpen := false, force := none, rate := none, lim := .idle, mark := none, invalid := 0, takeOver := true
           valve := 0, valveFrom := none }

/-- The safety function after START: the latch alone stays (R22); the causes are those of one SAFE entry (R313), and
diagnostics that stood until START end (R311). -/
def Safe.fresh (f : Safe) : Safe :=
  { f with causes := [], taps := [], tapDue := [], press := Vector.replicate 4 ⟨0, []⟩
           temp := Vector.replicate 4 ⟨0, []⟩, sticky := []
           standing := [], welded := (false, false), tripMs := none, atLoss := [] }

/-- The zero-fill of R78, with everything that is volatile. -/
def volatileReset (s : State) : State :=
  { s with
    runs := s.runs.map RunSt.fresh
    mx := s.mx.fresh
    en := { Engine.reset with count := s.en.count }
    ev := s.ev.fresh
    qu := { s.qu.emptied with chuteSelftest := false }
    ga := s.ga.fresh
    mem := { s.mem with sram := [], cellar := [] }
    pair := s.pair.fresh_
    se := { s.se with table := [], mismatch := 0, late := 0, equivocal := 0, disputed := 0 }
    io := { s.io with co := s.io.co.map Co.fresh }
    sf := s.sf.fresh
    sp := { s.sp with test := none }
    pw := { s.pw with pass := .asleep, blockWhole := false }
    cm := { s.cm with restarting := [] }
    lg := { s.lg with closed := [] } }

/-- Both lines lose their sessions (Table 2.5). -/
def resetLines (s : State) : State := resetLine .service (resetLine .host s)

/-! ## Keep spans -/

/-- The span that a full keep area has overwritten takes source X (R239). -/
def lostSpan (s : State) : List KeepSpan :=
  match s.lg.keeps with
  | k :: _ => if s.lg.keeps.length = 32768 ∧ s.pw.keepAt < k.time then [unknownSpan s.pw.keepAt k.time] else []
  | [] => []

/-- The counts of a KEEP that the module passed with its clock unset join the quantity of the unset time, at the pricing
sets of that KEEP (R77, R157). -/
def unsetCounts (s : State) : State :=
  match s.lg.unsetKeep with
  | none => s
  | some k =>
    let runs := Vector.ofFn fun (r : Fin 4) =>
      match (keepPricing s)[r] with
      | some set =>
        let w := spanWorth s r set (s.runs[r].latched - k.tallies[r]).toNat (nowSec s - k.time)
        s.runs[r].modQty fun q => { q with unset := (q.unset.1 + w.m, q.unset.2 + w.e) }
      | none => s.runs[r]
    { s with runs := runs, lg := { s.lg with unsetKeep := none } }

/-- The spans of the KEEP that ends now join the backlog (R71, R157): up to the latest latch while the clock is valid. -/
def takeKeeps (s0 : State) : State :=
  let s := unsetCounts s0
  let now : List KeepLatch := match s.lg.latchAt with
    | some t => if s.ck.valid ∧ s.lg.keeps ≠ [] then [⟨t, s.runs.map (·.latched), false⟩] else []
    | none => []
  pushBacklog none (lostSpan s ++ latchSpans (keepPricing s) (s.lg.keeps ++ now)) { s with lg := { s.lg with keeps := [] } }

/-- Leaving COLD (R73, R77): the clock resumes unset from the stored time, the counters begin at 0, and the gap from the
last keep record waits to be written as X. -/
def leaveCold (s : State) : State :=
  let gap := match s.lg.keeps.getLast? with
    | some k => [unknownSpan k.time k.time]
    | none => []
  pushBacklog none (lostSpan s ++ latchSpans (keepPricing s) s.lg.keeps ++ gap) { s with
    ck := { s.ck with t := s.ck.stored * msUnits, valid := false, slew := 0, due := none, unsetAt := s.ck.mono
                      partUnset := true }
    runs := s.runs.map fun t => { t with tally := 0, latched := 0 }
    lg := { s.lg with keeps := [], latchAt := none } }

/-- COLD: the counters and the clock stop (Table 1.4). -/
def enterCold (s0 : State) : State :=
  let s := unsetCounts s0
  { s with pw := { s.pw with coldSince := true, cellUnder := 0 }, ck := { s.ck with valid := false } }

/-! ## START -/

/-- Seven days in ms (R78). -/
def quickMs : Nat := 604800000

/-- The start sequence of R78. -/
def chooseStart (s : State) : StartKind :=
  if s.pw.coldSince then .cold
  else if s.pw.stopClean ∧ s.pw.stopBroken = false ∧ nowMs s < s.pw.stopTime + quickMs ∧ s.pw.openedSince = false then
    .quick
  else .warm

/-- Seconds since a first happening of a KEEP. -/
def sinceFirst (s : State) (t : Option Nat) : Int := ((nowSec s - t.getD (nowSec s) : Nat) : Int)

/-- An event of KEEP, held for the first tick of RUN or SAFE (R167). -/
def keepEvent (code : Nat) (v1 v2 : Int) (s : State) : State :=
  { s with ev := { s.ev with fromKeep := s.ev.fromKeep ++ [⟨code, 0, v1, v2, 6, 0⟩] } }

/-- Knocks and openings counted in KEEP (R71, R167, R237): audit entries and the events 42h and 43h. -/
def keepCounts (s : State) : State :=
  let k := s.pw.kcCount.toNat
  let l := s.pw.lcKeep.toNat
  let s1 := if k = 0 then s else keepEvent 0x42 k (sinceFirst s s.pw.kcFirst) (audit 0x09 0 0 1 0 0 k s)
  let s2 := if l = 0 then s1 else keepEvent 0x43 l (sinceFirst s s.pw.lcFirst) (audit 0x09 0 0 2 0 0 l s1)
  { s2 with pw := { s2.pw with kcFlag := false, kcCount := 0, kcFirst := none, lcKeep := 0, lcFirst := none } }

/-- Indices of the keep records that a START consumes, newest first (R71, R238). -/
def keepIndices (s : State) : List Nat :=
  (List.range s.lg.keeps.length).map fun j => (s.lg.keepNext + 32767 - j) % 32768

/-- A keep record is checked by mirror comparison: a blank copy is written (case 6); of two that differ copy A is taken (case
2), since the directory's next index confirms both alike (R238, R241). DESIGN CHOICE, log 25, with the area's number 5. -/
def mendKeep (s : State) (i : Nat) : State :=
  let off := 0x40000 + 32 * i
  let a := fetchAll blankByte s.mem.a off 32
  let b := fetchAll blankByte s.mem.b off 32
  let blank := List.replicate 32 blankByte
  if s.lg.state ≠ .ok ∨ a = b then s
  else
    let good := if a = blank then 2 else 1
    let kase := if a = blank ∨ b = blank then 6 else 2
    let s1 := putCopy (3 - good) off (if good = 1 then a else b) s
    moduleNote { s1 with lg := { s1.lg with repairs := s1.lg.repairs + 1 } } 0x06
      (leBytes 1 5 ++ leBytes 4 i ++ leBytes 1 kase ++ leBytes 1 (3 - good))

/-- The start sequence begins (R23, R78): the KEEP's spans are taken, the memories zero-filled, the sessions cleared, and the
keep records it consumes are checked. -/
def beginStart (line role : Nat) (c : Cause) (s : State) : State :=
  let taken := if s.pw.ms = .cold ∨ s.pw.ms = .keep then keepIndices s else []
  let s1 := if s.pw.ms = .cold then leaveCold s
    else if s.pw.ms = .keep then takeKeeps (blockBoundary s) else quantityPass (blockBoundary s)
  let kind := chooseStart s1
  let s2 := if kind = .cold then { s1 with runs := s1.runs.map fun t => { t with tally := 0, latched := 0 } } else s1
  let s3 := resetLines (volatileReset s2)
  let s4 := keepCounts (taken.foldl mendKeep (moveTo .start line role c s3))
  { s4 with pw := { s4.pw with startKind := kind, coldSince := false, stopBroken := false, endHeld := false } }

/-- Waiting commands of this millisecond that outrank a STOP or START command (R26): a supply loss, and for STOP in RUN
what would trip the module now. All waiting commands fall in the present millisecond (log 2). -/
def rival (c : Cause) (s : State) : Bool :=
  s.pending.any fun i => match i with
    | .supplyLoss => s.pw.supply
    | .safetyJudgement given => c = .stopCommand && s.pw.ms = .run && decide ((safetyJudgement given s).pw.ms = .safe)
    | .weldedContact relay => c = .stopCommand && s.pw.ms = .run && decide ((weldedContact relay s).pw.ms = .safe)
    | .evaluatorRestart passed =>
      c = .stopCommand && s.pw.ms = .run && decide ((evaluatorRestart passed s).pw.ms = .safe)
    | _ => false

/-- `start` (R23, R24, R26, R329). -/
def bodyStart (rq : Req) (args : List String) : Body := fun s => do
  need (args = []) .badForm
  served s "start"
  need (s.pw.ms = .held || (s.pw.ms = .keep && s.pw.byCommand)) .badState
  need s.sp.test.isNone .taken
  needRole s rq.line (if s.pw.ms = .held then .safety else .operate)
  need (!outranked .startCommand s && !rival .startCommand s) .badState
  .ok (beginStart (lineCode rq.line) (roleCode (s.line rq.line).role) .startCommand s, ["ok start"])

/-- Stores `host.echo` off where the form is RS-485, with its audit entry on line 0 (R350). -/
def echoOff (s : State) : State :=
  if s.pw.form = .rs485 ∧ pget s 0x101 ≠ 0 then storeMember ⟨0x101, 0, 0, .view⟩ s else s

/-- HMODE is read (R350). -/
def readForm (f : HostForm) (s : State) : State := echoOff { s with pw := { s.pw with form := f } }

/-- A new interval length closes the open interval short (R161). -/
def newInterval (before : State) (s : State) : State :=
  let len := pnat s 0x8010
  if pget before 0x8010 = pget s 0x8010 then s
  else
    let s1 := if s.ck.valid then priceClosed false (blockBoundary s) else s
    let s2 := if s1.ck.valid ∧ s1.lg.intStart < nowSec s1 ∧ intervalHeld s1 then closeInterval (nowSec s1) s1 else s1
    let s3 := flushURuns s2
    { s3 with lg := { s3.lg with intLen := len } }

/-- The pending class Z set takes effect (R49, R51). -/
def applyPending (s : State) : State :=
  let s1 := applyMembers s.cm.pendingZ { s with cm := { s.cm with pendingZ := [] } }
  newInterval s s1

/-- The engine's start (R106, R201, R220): banks, cellar region, flag 8 of G3, capture bases, channels G0 … G4. -/
def loadEngines (s : State) : State :=
  let s1 := { s with qu := { s.qu with cellar := pnat s 0x7001 }
                     mx := { s.mx with active := storedGains s, shadow := storedGains s, swap := false, copying := false
                                       late := none } }
  let base : Int := (captureBase s1 : Nat)
  let ps := store (pDefault 0x7147) (store (pDefault 0x7138) s1.cm.params 0x7138 base) 0x7147 base
  let s2 := { s1 with cm := { s1.cm with params := ps } }
  ([0, 1, 2, 3, 4] : List Channel).foldl (fun t g => startChan g t) (setFlag 3 8 s2)


/-- The ledger's registers as a directory generation gives them (R225): a chain that has written nothing stands at its
genesis value, and one that has overwritten nothing has it as its base (R232, R239). -/
def takeDir (b : List Byte) (s : State) : State :=
  let chain := fun (k : Fin 4) =>
    let c := dirChain b k
    Chain.mk (if c.written = 0 then none else some c.head) (if c.written ≤ areaSize k then none else some c.base) c.next
      c.written
  { s with lg := { s.lg with gen := dirGen b, keys := dirKeys b, chains := Vector.ofFn chain } }

/-- The directory is read at START (R78, R225). Where no generation is valid the spec gives no rule: the registers stand.
DESIGN CHOICE, log 4. -/
def readDirectory (s : State) : State :=
  match readDir (goodCopy s) with
  | some b => takeDir b s
  | none => s

/-- The chain heads are read and checked (R78, R240). -/
def checkHeads (s : State) : State :=
  (List.finRange 4).foldl (fun t k =>
    if t.lg.chains[k].written = 0 then t else checkRecord k ((t.lg.chains[k].next + areaSize k - 1) % areaSize k) t)
    (readDirectory s)

/-- START_SEQUENCE_COMPLETE (R23, R25, R78, R220, R331, R350): the ledger heads, the pending set, the self-test's outcome unless quick,
and the state that follows. -/
def startComplete (r : TestRun) (form : HostForm) (s : State) : State :=
  if s.pw.ms = .start ∧ s.pw.nrst = false ∧ s.pw.supply then
    let s1 := applyPending (checkHeads s)
    let q := if s1.pw.startKind = .quick then (s1, false) else startOutcome r s1
    let s2 : State := { q.1 with runs := q.1.runs.map fun t => { t with fe := .reset }
                                 pw := { q.1.pw with cad := cadence q.1 } }
    let s3 := readForm form (loadEngines s2)
    let s4 := { s3 with pair := { s3.pair with rxAt := s3.ck.mono }, pw := { s3.pw with endHeld := false } }
    if q.2 ∨ r.evaluatorOk = false then moveTo .held 0 0 .selfTest s4
    else if s.pw.endHeld then moveTo .held 0 0 .nrst s4
    else if s4.sf.latch then moveTo .safe 0 0 .sequence (s4.modSafe fun f => { f with since := nowSec s4 })
    else autoChannels (moveTo .run 0 0 .sequence s4)
  else s

/-! ## STOP -/

/-- Averages and fits under way end with cause `stop` (R113, R140). -/
def failAll (s : State) : State := allRuns.foldl (fun t r => failFit r "stop" (failAvg r "stop" t)) s

/-- `stop` (R23, R26, R49, R80, R318). -/
def bodyStop (rq : Req) (args : List String) : Body := fun s => do
  need (args = []) .badForm
  served s "stop"
  need (measuring s) .badState
  needRole s rq.line .operate
  need (!outranked .stopCommand s && !rival .stopCommand s) .badState
  let s1 := declineWaiting (failAll (emptyAttic (lineCode rq.line) (roleCode (s.line rq.line).role) (dropWait 4 s)))
  let s2 := s1.modPair fun p => { p with offers := [] }
  let s3 := { s2 with pw := { s2.pw with stopClean := false } }
  .ok (moveTo .stop (lineCode rq.line) (roleCode (s.line rq.line).role) .stopCommand s3, ["ok stop"])

/-- The queue's contents are lost (R200). -/
def Queue.lost (q : Queue) : Queue :=
  { q with regions := [], waiters := [], port := none, inHead := 0, inMiddle := 0, wrAt := q.rdAt, cmAt := q.rdAt }

/-- The fast domain is switched off: queue, channels, session, events and patterns end (R68, R80, R200), and with them the
counts of suppressed events that no record holds yet (R183: STOP and NRST have written theirs; at a loss a write not begun
is not started). Tap results stay for a judgement of the same millisecond (R26); START drops them. -/
def powerDown (s : State) : State :=
  { s with
    mx := { s.mx.rest with beep := none }
    en := { s.en with bufs := Vector.replicate 17 ⟨[], 0⟩ }
    qu := s.qu.lost
    ga := { s.ga with chans := s.ga.chans.map fun c =>
              { c with st := .idle, reserved := false, ringWait := none, waitUntil := none, loops := Vector.replicate 4 none }
                      raw := [], hostFifo := [], partnerFifo := [] }
    pair := { clearWindow s.pair with st := .idle }
    ev := { s.ev with raised := [], posts := [], rates := [] }
    sp := { s.sp with test := none }
    sf := { s.sf with standing := [] }
    pw := { s.pw with pass := .asleep, blockWhole := false } }

/-- KEEP begins with its keep record (R69). The counts of an earlier KEEP that no START has taken stand (R71); tests on
the backup cell are counted anew (R70). With the clock unset its latch is held for the unset time (R77). -/
def enterKeep (c : Cause) (s : State) : State :=
  let k : KeepLatch := ⟨nowSec s, s.runs.map (·.latched), false⟩
  let held : Option KeepLatch := if s.ck.valid then none else some k
  let s1 := { s with pw := { s.pw with keepAt := nowSec s, cellUnder := 0 }, lg := { s.lg with unsetKeep := held } }
  powerDown (keepRecord false (moveTo .keep 0 0 c s1))

/-- The closes that still wait for records are declined at the end of the session, where the window and the turn admit it
(R254, R260, R263). -/
def declineLeft (s : State) : State :=
  s.pair.waiting.foldl (fun t w =>
    if t.pair.out.length < 8 ∧ (halfDuplex t = false ∨ holdsTurn t = true) then
      sendOffer ⟨3, natText w.number ++ " count"⟩ t
    else t) s

/-- `bye` closes an open session (R263, R269). -/
def sayBye (s0 : State) : State :=
  let s := if s0.pair.st = .opened then declineLeft s0 else s0
  if s.pair.st = .opened then (sendPlain "bye" "" s).modPair fun p => { clearWindow p with st := .idle } else s

/-- STOP_SEQUENCE_COMPLETE (R80). -/
def stopComplete (r : TestRun) (s : State) : State :=
  if s.pw.ms = .stop ∧ s.pw.supply then
    let s1 := keepSets (sayBye (flushRates (quantityPass (blockBoundary s))))
    let rec_ := powerRec s1 6
    let s2 := ledgerPacket { s1 with lg := { s1.lg with stopRec := some rec_ } } 6 (powerBytes rec_)
    let q := stopOutcome r s2
    let s3 := { q.1 with pw := { q.1.pw with byCommand := true, stopClean := q.2, stopTime := nowMs q.1
                                             openedSince := false, stopBroken := false } }
    enterKeep .stopDone s3
  else s

/-! ## Supply -/

/-- What the loss of the fast domain abandons, by supply loss or NRST (R49, R80, R113, R140, R318, R329). -/
def abandonAll (s : State) : State :=
  let s1 := emptyAttic 0 0 (dropWait 4 (abandonSequence (abandonTest (failAll (lastPass s)))))
  if s1.pw.ms = .stop then
    audit 0x0F 0 0 0 0 0 0 { s1 with pw := { s1.pw with stopBroken := true, stopClean := false } }
  else s1

/-- Loss in a state with the fast domain (R68): the power-fail record, then KEEP, or COLD without a backup cell
(Table 3.8). -/
def losePower (s : State) : State :=
  let s1 := keepSets (abandonAll (blockBoundary s))
  let rec_ := powerRec s1 5
  let s2 := ledgerPacket { s1 with lg := { s1.lg with powerFail := some rec_ } } 5 (powerBytes rec_)
  let s3 := { s2 with pw := { s2.pw with byCommand := false, nrst := false, endHeld := false } }
  if s3.pw.cellFitted then enterKeep .supplyLoss s3
  else
    let k : KeepLatch := ⟨s3.lg.latchAt.getD (nowSec s3), s3.runs.map (·.latched), false⟩
    let s4 := if s3.pw.ms = .run then endForces s3 else s3
    let s5 := powerDown (openPulses (coilsOff { s4 with
      lg := { s4.lg with keeps := if s4.ck.valid then [k] else [] }
      pw := { s4.pw with ms := .cold, lastCause := (1, s4.ck.mono), keepAt := nowSec s4 } }))
    refreshOutputs (enterCold s5)

/-- SUPPLY_LOSS (R67, R68). -/
def supplyLoss (s : State) : State :=
  if s.pw.supply then
    let s1 := { s with pw := { s.pw with supply := false, vsup := 0, nrst := false } }
    match s.pw.ms with
    | .cold => s1
    | .keep =>
      let s2 := { s1 with pw := { s1.pw with pass := .asleep } }
      if s.pw.cellFitted then refreshOutputs s2 else enterCold (moveTo .cold 0 0 .cellEnd s2)
    | _ => latchAtLoss s.sf.atLoss (losePower s1)
  else s

/-- The supply stands at or above 17.5 V (R67). -/
def poweredUp (mv : Nat) (s : State) : State := { s with pw := { s.pw with supply := true, vsup := mv } }

/-- SUPPLY_RETURN in KEEP (R24, R67). -/
def supplyReturn (mv : Nat) (s : State) : State :=
  if s.pw.ms = .keep ∧ s.pw.supply = false ∧ 17500 ≤ mv then
    let s1 := poweredUp mv s
    if s.pw.byCommand then refreshOutputs s1 else beginStart 0 0 .supplyReturn s1
  else s

/-- SUPPLY_APPLIED in COLD (R23). -/
def supplyApplied (mv : Nat) (s : State) : State :=
  if s.pw.ms = .cold ∧ 17500 ≤ mv then beginStart 0 0 .supplyApplied (poweredUp mv s) else s

/-! ## Backup cell -/

/-- BACKUP_CELL_FITTED (R23, R349). -/
def cellFit (mv : Nat) (s : State) : State :=
  let s1 := { s with pw := { s.pw with cellFitted := true, cellMv := mv, cellUnder := 0 } }
  if s.pw.ms = .cold ∧ s.pw.supply = false then
    let s2 := leaveCold s1
    enterKeep .cellFitted { s2 with pw := { s2.pw with byCommand := false } }
  else s1

/-- BACKUP_CELL_TEST (R70): its charge joins the keep writer's, which the spec does not state (log 13). -/
def cellTest (mv : Nat) (s : State) : State :=
  let drawn := 1 + (Config.freeValue (128 * s.ck.mono + 9)).toNat
  let s1 := { s with pw := { s.pw with cellMv := mv }, sp := { s.sp with charge := s.sp.charge + drawn } }
  if s.pw.ms = .cold then s
  else if s.pw.supply then
    let s1 := { s1 with pw := { s1.pw with cellUnder := if mv < 3000 then s1.pw.cellUnder else 0 } }
    let s2 := if mv < 3300 then noteAll "backup low" s1 else s1
    if mv < 3000 then audit 0x0D 0 0 0 0 0 mv (noteAll "backup end" s2) else s2
  else if s.pw.ms = .keep then
    let n := if mv < 3000 then s.pw.cellUnder + 1 else 0
    let s2 := { s1 with pw := { s1.pw with cellUnder := n, cellLow := s.pw.cellLow || decide (mv < 3300) } }
    if 2 ≤ n then enterCold (moveTo .cold 0 0 .cellEnd (keepRecord true (blockBoundary s2))) else s2
  else s1

/-! ## NRST and the seal loop -/

/-- NRST_ASSERTED (R25, R359). -/
def nrstAsserted (s : State) : State :=
  if s.pw.supply ∧ s.pw.ms ≠ .cold ∧ s.pw.nrst = false then
    let s1 := { s with pw := { s.pw with nrst := true, nrstAt := s.ck.mono } }
    if s.pw.ms = .keep then resetLines (audit 0x0C 0 0 1 0 0 0 { s1 with pw := { s1.pw with pass := .asleep } })
    else
      let s2 := audit 0x0C 0 0 1 0 0 0 (abandonAll (flushRates (blockBoundary s1)))
      let s3 := { s2 with pw := { s2.pw with
        endHeld := decide (s.pw.ms = .held) || (decide (s.pw.ms = .start) && s.pw.endHeld)
        startKind := if s.pw.ms = .start then s.pw.startKind else .warm } }
      resetLines (volatileReset (moveTo .start 0 0 .nrst s3))
  else s

/-- NRST_RELEASED (R25, R350, R359): a cold start that NRST interrupted goes on as one (R79). -/
def nrstReleased (form : HostForm) (s : State) : State :=
  if s.pw.nrst ∧ s.pw.supply then
    let s1 := audit 0x0C 0 0 2 0 0 (s.ck.mono - s.pw.nrstAt : Nat) { s with pw := { s.pw with nrst := false } }
    let s2 := readForm form s1
    if s.pw.ms = .start then
      let kind := if s.pw.startKind = .cold then .cold else chooseStart s2
      { s2 with pw := { s2.pw with startKind := kind, stopBroken := false } }
    else s2
  else s

/-- SEAL_LOOP_CHANGE (R45, R58, R69, R166, R360). -/
def sealLoopChange (isOpen : Bool) (s : State) : State :=
  if s.pw.ms = .cold ∨ s.pw.sealOpen = isOpen then s
  else
    let n := if isOpen then s.pw.lcCount + 1 else s.pw.lcCount
    let s1 := { s with pw := { s.pw with sealOpen := isOpen, lcCount := n
                                         openedSince := s.pw.openedSince || isOpen } }
    if s.pw.ms = .keep then
      if isOpen then
        { s1 with pw := { s1.pw with lcKeep := s1.pw.lcKeep + 1
                                     lcFirst := s1.pw.lcFirst.orElse fun _ => some (nowSec s) } }
      else s1
    else
      let s2 := audit 0x08 0 0 (if isOpen then 1 else 0) 0 0 n.toNat s1
      if measuring s2 then wakeEvent (raiseEvent (if isOpen then 0x40 else 0x41) 0 n.toNat 0 6 0 s2) else s2

/-! ## Meanings -/

/-- START (R23). -/
def execStart (rq : Req) (args : List String) (s : State) : Host.Outcome State Fault Refusal :=
  done (runLine rq "start" (bodyStart rq args) s)
/-- STOP (R80). -/
def execStop (rq : Req) (args : List String) (s : State) : Host.Outcome State Fault Refusal :=
  done (runLine rq "stop" (bodyStop rq args) s)
/-- SUPPLY_APPLIED (R23): above 32.0 V no behaviour is promised (R361, log 5). -/
def execSupplyApplied (millivolts : Nat) (s : State) : Host.Outcome State Fault Refusal :=
  if 32000 < millivolts then .fault .beyondLimits else done (supplyApplied millivolts s)
/-- BACKUP_CELL_FITTED (R23). -/
def execBackupCellFitted (millivolts : Nat) (s : State) : Host.Outcome State Fault Refusal := done (cellFit millivolts s)
/-- SUPPLY_LOSS (R68). -/
def execSupplyLoss (s : State) : Host.Outcome State Fault Refusal := done (supplyLoss s)
/-- SUPPLY_RETURN (R24): above 32.0 V no behaviour is promised (R361, log 5). -/
def execSupplyReturn (millivolts : Nat) (s : State) : Host.Outcome State Fault Refusal :=
  if 32000 < millivolts then .fault .beyondLimits else done (supplyReturn millivolts s)
/-- BACKUP_CELL_TEST (R70). -/
def execBackupCellTest (millivolts : Nat) (s : State) : Host.Outcome State Fault Refusal := done (cellTest millivolts s)
/-- NRST_ASSERTED (R25). -/
def execNrstAsserted (s : State) : Host.Outcome State Fault Refusal := done (nrstAsserted s)
/-- NRST_RELEASED (R25). -/
def execNrstReleased (form : HostForm) (s : State) : Host.Outcome State Fault Refusal := done (nrstReleased form s)
/-- START_SEQUENCE_COMPLETE (R78). -/
def execStartSequenceComplete (r : TestRun) (form : HostForm) (s : State) : Host.Outcome State Fault Refusal :=
  done (startComplete r form s)
/-- STOP_SEQUENCE_COMPLETE (R80). -/
def execStopSequenceComplete (r : TestRun) (s : State) : Host.Outcome State Fault Refusal := done (stopComplete r s)
/-- SEAL_LOOP_CHANGE (R360). -/
def execSealLoopChange (isOpen : Bool) (s : State) : Host.Outcome State Fault Refusal := done (sealLoopChange isOpen s)

end Sys2Proof.Machine
end

