-- ==== Sys2Proof/Machine/LedgerRead.lean ====
section
/-! DEFINITION. LEDGER (R240, R243, Table 11.11): reading the ledger from a line. Line forms that the table does not
print: log 27. -/

namespace Sys2Proof.Machine

/-- Checks the records of a readout, in order (R240, R241). -/
def checkAll (k : Fin 4) (is : List Nat) (s : State) : State := is.foldl (fun t i => checkRecord k i t) s

/-- Words in hexadecimal. -/
def wordsText (bs : List Byte) : String := spaced ((leWords bs).map fun w => hexText 8 w.toNat)

/-- `part` lines and the count (R243). -/
def ledgerReply (lines : List String) (n : Nat) : List String := lines.map ("part " ++ ·) ++ ["ok ledger " ++ natText n]

/-- An optional count field. -/
def countOr (lo hi dflt : Nat) (t : Option String) : Except Reason Nat :=
  match t with
  | some x => countField lo hi x
  | none => .ok dflt


/-- The line of an interval record. -/
def intervalLine (s : State) (i : Nat) : String :=
  let r := intAt s i
  spaced ["interval", "run" ++ natText r.run, secText r.start, natText (codeMinutes r.code), "t" ++ natText r.cT,
    "s" ++ natText r.cS, "u" ++ natText r.cU, "k" ++ natText r.cK, "x" ++ natText r.cX, hexText 2 r.flags.toNat,
    decText 6 r.v, decText 6 r.m, decText 6 r.e, natText r.tally, outcomeName (outcomeAt s i), hexText 2 (statusOf s 0 i),
    groupText (tagAt (goodCopy s) 0 i)]

/-- `ledger interval` run start [count]. -/
def bodyLedgerInterval (_rq : Req) (args : List String) : Body := fun s => do
  match args with
  | rt :: st :: more =>
    need (more.length ≤ 1) .badForm
    let ms ← timeField st
    let n ← countOr 1 96 1 more.head?
    let r ← runField rt
    servedActive s
    let is := ((recordIndices s 0).filter fun i =>
      let x := intAt s i
      decide (x.run = r.val + 1 ∧ ms ≤ 1000 * (x.start : Int))).take n
    let t := checkAll 0 is s
    .ok (t, ledgerReply (is.map (intervalLine t)) is.length)
  | _ => .error .badForm

/-- The lines of a close. -/
def closeLines (s : State) (i : Nat) : List String :=
  let x := fetchAll blankByte (goodCopy s) (recOff 1 i) 320
  let f := fun (o n : Nat) => fromLe ((x.drop o).take n)
  let g := fun (o : Nat) => fromLeInt ((x.drop o).take 8)
  spaced ["close", secText (f 4 4), natText (f 8 4), ["single", "upstream", "downstream"].getD (f 1 1) "-", hexText 2 (f 2 1),
      natText (f 12 2), if f 312 1 = 3 then "cosigned" else "signed", groupText ((x.drop 176).take 8)]
    :: allRuns.map fun r => spaced ["total", runText r, decText 6 (g (16 + 16 * r.val)), decText 6 (g (24 + 16 * r.val))]

/-- `ledger close` day [count]: the closes of the day and of those that follow. -/
def bodyLedgerClose (_rq : Req) (args : List String) : Body := fun s => do
  match args with
  | dt :: more =>
    need (more.length ≤ 1) .badForm
    let ms ← timeField dt
    let n ← countOr 1 31 1 more.head?
    servedActive s
    let day := ms / 86400000 * 86400
    let is := ((recordIndices s 1).filter fun i => day ≤ (recordTime s 1 i : Int)).take n
    let t := checkAll 1 is s
    .ok (t, ledgerReply (is.flatMap (closeLines t)) is.length)
  | _ => .error .badForm

/-- Time of a ring or audit record in ms. -/
def smallMs (s : State) (k : Fin 4) (i : Nat) : Nat :=
  let b := contentAt (goodCopy s) k i
  1000 * fromLe (b.take 4) + fromLe ((b.drop 4).take 2) / 64

/-- Records of the event or audit area from a time on, in write order. -/
def smallFrom (s : State) (k : Fin 4) (ms : Int) (n : Nat) : List Nat :=
  ((recordIndices s k).dropWhile fun i => (smallMs s k i : Int) < ms).take n

/-- Fields of a ring record's payload (Table 11.5). -/
def ringFields (type : Nat) (b : List Byte) : List String :=
  let f := fun (o n : Nat) => fromLe ((b.drop o).take n)
  let g := fun (o : Nat) => intText (fromLeInt ((b.drop o).take 4))
  if type = 1 then [hexText 8 (f 8 4), g 12, g 16]
  else if type = 2 then [natText (f 8 4)]
  else if type = 3 then ["m" ++ natText (f 8 1), natText (f 9 1), natText (f 10 1)]
  else (leWords ((b.drop 8).take 16)).map fun w => hexText 8 w.toNat

/-- The line of a ring record. -/
def eventLine (s : State) (i : Nat) : String :=
  let b := contentAt (goodCopy s) 2 i
  let f := fun (o n : Nat) => fromLe ((b.drop o).take n)
  let type := f 4 2 % 64
  spaced (["event", msText (smallMs s 2 i), ["-", "event", "suppressed", "machine", "module"].getD type "-", hexText 4 (f 6 2)]
    ++ ringFields type b ++ [groupText (tagAt (goodCopy s) 2 i)])

/-- The line of an audit record (Table 11.7). -/
def auditText (s : State) (i : Nat) : String :=
  let b := contentAt (goodCopy s) 3 i
  let f := fun (o n : Nat) => fromLe ((b.drop o).take n)
  let g := fun (o : Nat) => intText (fromLeInt ((b.drop o).take 6))
  let subject := if f 4 2 % 64 = 1 ∧ (info (f 8 2)).isSome then nameOf (f 8 2) else hexText 4 (f 8 2)
  spaced ["audit", msText (smallMs s 3 i), hexText 2 (f 4 2 % 64),
    ["module", "host", "service", "partner"].getD (f 6 1 / 64) "-",
    ["view", "operate", "metrology", "safety"].getD (f 6 1 / 8 % 8) "-", hexText 2 (f 7 1), subject, g 10, g 16,
    groupText (tagAt (goodCopy s) 3 i)]

/-- `start [count]` of the event and audit areas. -/
def smallReadout (k : Fin 4) (line : State → Nat → String) (args : List String) : Body := fun s => do
  match args with
  | st :: more =>
    need (more.length ≤ 1) .badForm
    let ms ← timeField st
    let n ← countOr 1 256 16 more.head?
    servedActive s
    let is := smallFrom s k ms n
    let t := checkAll k is s
    .ok (t, ledgerReply (is.map (line t)) is.length)
  | _ => .error .badForm

/-- `ledger head`. -/
def bodyLedgerHead (_rq : Req) (args : List String) : Body := fun s => do
  need (args = []) .badForm
  servedActive s
  let line := fun (k : Fin 4) => spaced ["chain", areaName k, natText s.lg.chains[k].written, natText s.lg.chains[k].next,
    groupText (baseOf s k), groupText (headOf s k)]
  .ok (s, ledgerReply ((List.finRange 4).map line) 4)

/-- Areas of `raw`: none for the keep area (R238), else the chain. -/
def rawArea (i : Nat) : Option (Fin 4) :=
  match i with | 1 => some 2 | 2 => some 3 | 3 => some 0 | 4 => some 1 | _ => none

/-- The `raw` line of a record of a copy; none where it is blank (R226). -/
def rawLine (s : State) (copy : List Host.Cell) (area : Option (Fin 4)) (i : Nat) : Option String :=
  match area with
  | none =>
    let b := fetchAll blankByte copy (0x40000 + 32 * i) 32
    if fromLe (b.take 4) = 0xFFFFFFFF then none else some (spaced ["raw", natText i, wordsText b])
  | some k =>
    if recordExists s k i then
      let len := if k = 1 then 80 else contentLen k
      let more := if k = 0 then ["outcome", wordsText (fetchAll blankByte copy (outcomeOff i) 8)]
        else if k = 1 then ["slot", wordsText (fetchAll blankByte copy (recOff 1 i + 80) 240)] else []
      some (spaced (["raw", natText i, wordsText (fetchAll blankByte copy (recOff k i) len), "tag",
        groupText (tagAt copy k i)] ++ more))
    else none

/-- `ledger raw` copy area index [count]: the chained records are checked as they are read. -/
def bodyLedgerRaw (rq : Req) (args : List String) : Body := fun s => do
  match args with
  | ct :: at_ :: it :: more =>
    need (more.length ≤ 1 && numberLike it) .badForm
    let n ← countOr 1 16 1 more.head?
    let c ← wordField rq.tag.isSome ["a", "b"] ct
    let a ← wordField rq.tag.isSome ["keep", "events", "audit", "interval", "close"] at_
    let area := rawArea a
    let size := match area with | some k => areaSize k | none => 32768
    let i ← countField 0 (size - 1) it
    servedActive s
    let is := (List.range n).map fun j => (i + j) % size
    let t := match area with | some k => checkAll k is s | none => s
    let lines := is.filterMap (rawLine t (if c = 0 then t.mem.a else t.mem.b) area)
    .ok (t, ledgerReply lines lines.length)
  | _ => .error .badForm

/-- Checks a range of a chain, and lists the records that are not case 1 with their case. -/
def verifyRange (k : Fin 4) (is : List Nat) (s : State) : State × List String :=
  is.foldl (fun q i =>
    if recordExists q.1 k i then
      let c := (caseOf q.1 k i).1
      (checkRecord k i q.1, if c = 1 then q.2 else q.2 ++ [spaced ["verify", areaName k, natText i, "case", natText c]])
    else q) (s, [])

/-- `ledger verify` chain from to. -/
def bodyLedgerVerify (rq : Req) (args : List String) : Body := fun s => do
  match args with
  | [ct, ft, tt] =>
    need (numberLike ft && numberLike tt) .badForm
    let c ← wordField rq.tag.isSome ["interval", "close", "events", "audit"] ct
    let k : Fin 4 := ⟨c % 4, Nat.mod_lt _ (by decide)⟩
    let f ← countField 0 (areaSize k - 1) ft
    let t ← countField 0 (areaSize k - 1) tt
    servedActive s
    let n := (t + areaSize k - f) % areaSize k + 1
    let q := verifyRange k ((List.range n).map fun j => (f + j) % areaSize k) s
    .ok (q.1, ledgerReply q.2 q.2.length)
  | _ => .error .badForm

/-- LEDGER_INTERVAL (R243). -/
def execLedgerInterval (rq : Req) (args : List String) (s : State) : Host.Outcome State Fault Refusal :=
  done (runLine rq "ledger" (bodyLedgerInterval rq args) s)
/-- LEDGER_CLOSE (R243). -/
def execLedgerClose (rq : Req) (args : List String) (s : State) : Host.Outcome State Fault Refusal :=
  done (runLine rq "ledger" (bodyLedgerClose rq args) s)
/-- LEDGER_EVENTS (R243). -/
def execLedgerEvents (rq : Req) (args : List String) (s : State) : Host.Outcome State Fault Refusal :=
  done (runLine rq "ledger" (smallReadout 2 eventLine args) s)
/-- LEDGER_AUDIT (R243). -/
def execLedgerAudit (rq : Req) (args : List String) (s : State) : Host.Outcome State Fault Refusal :=
  done (runLine rq "ledger" (smallReadout 3 auditText args) s)
/-- LEDGER_HEAD (R243). -/
def execLedgerHead (rq : Req) (args : List String) (s : State) : Host.Outcome State Fault Refusal :=
  done (runLine rq "ledger" (bodyLedgerHead rq args) s)
/-- LEDGER_RAW (R243). -/
def execLedgerRaw (rq : Req) (args : List String) (s : State) : Host.Outcome State Fault Refusal :=
  done (runLine rq "ledger" (bodyLedgerRaw rq args) s)
/-- LEDGER_VERIFY (R243). -/
def execLedgerVerify (rq : Req) (args : List String) (s : State) : Host.Outcome State Fault Refusal :=
  done (runLine rq "ledger" (bodyLedgerVerify rq args) s)

end Sys2Proof.Machine
end

