-- ==== Sys2Proof/Machine/Show.lean ====
section
/-! DEFINITION. SHOW (R41, R49, R101, R119, R142, R153, R163, R182, R184, R286, R303, R325, R334, R339). Line forms that
the chapters do not print: log 28. -/

namespace Sys2Proof.Machine

/-- Topics of SHOW. -/
def topics : List String :=
  ["attic", "pending", "role", "line", "watch", "fe", "matrix", "engine", "qtable", "events", "sm", "settle", "outputs",
   "safety", "repair", "age"]

/-- Name and value of a parameter. -/
def paramLine (s : State) (p : PInfo) : String := p.name ++ " " ++ readText s p

/-- The lines of a list of parameters. -/
def paramLines (s : State) (ps : List PInfo) : List String := ps.map (paramLine s)

/-- Value of a parameter by its number. -/
def textOf (s : State) (n : Nat) : String :=
  match info n with
  | some p => readText s p
  | none => "-"

/-- `role` name idle and warn times (chapter 02's session). -/
def roleLine (s : State) (l : Line) : String :=
  spaced ["role", roleName (s.line l).role, "idle", textOf s (lineBase l + 3), "warn", textOf s (lineBase l + 4)]

/-- `show line` (chapter 02's session). -/
def lineLines (s : State) (l : Line) : List String :=
  [spaced ["line", lineName l, textOf s (lineBase l), "echo", textOf s (lineBase l + 1), "notecheck",
    textOf s (lineBase l + 2)], roleLine s l]

/-- `show attic`: its owner, then its members. -/
def atticLines (s : State) : List String :=
  ("owner " ++ match s.cm.owner with | some l => lineName l | none => "none") :: s.cm.attic.map memberText

/-- `show watch`. -/
def watchLines (s : State) (l : Line) : List String :=
  (s.line l).watches.map fun w =>
    spaced ["watch", nameOf w.param, match w.period with | some m => natText m | none => "change"]

/-- Breakpoints of a table, with the decimals of x and y. -/
def pointLines (pre : String) (dx dy : Nat) (xs : List (Int × Int)) : List String :=
  xs.map fun q => spaced [pre, decText dx q.1, decText dy q.2]

/-- `show fe run`n (R101). -/
def feLines (s : State) (r : Run) : List String :=
  let n := r.val + 1
  paramLines s (feRows (n * 0x1000) ("run" ++ natText n ++ ".") n)
    ++ pointLines "draft temp" 3 3 s.runs[r].tabTemp.draft ++ pointLines "draft press" 4 2 s.runs[r].tabPress.draft

/-- `show matrix` (R119). -/
def matrixLines (s : State) : List String :=
  paramLines s ((List.range 20).flatMap fun a => (List.range 18).filterMap fun b =>
    if pget s (0x5000 + 0x20 * a + b) = 0 then none else some (gainInfo a b))
  ++ paramLines s ((matrixRows.take 18).zipIdx.filterMap fun q =>
    if s.mx.sat.toList.getD q.2 0 = 0 then none else some q.1)

/-- `show engine run`n (R142). -/
def engineLines (s : State) (r : Run) : List String :=
  let n := r.val + 1
  paramLines s (engRows (n * 0x1000) ("run" ++ natText n ++ ".") ++ eventRows.filter fun p => 0x6F00 ≤ p.num)

/-- `show qtable run`n (R163). -/
def qtableLines (s : State) (r : Run) : List String :=
  let one := fun (name : String) (dx dy : Nat) (t : Table) =>
    pointLines (name ++ " live") dx dy t.live ++ pointLines (name ++ " draft") dx dy t.draft
  let t := s.runs[r]
  one "k" 3 3 t.tabK ++ one "dens" 3 4 t.tabDens ++ one "enth" 3 6 t.tabEnth ++ one "z" 2 4 t.tabZ

/-- `show qtable air` (R153): the grid, 49 temperatures by 80 pressures. -/
def airLines : List String :=
  (List.range 49).flatMap fun (i : Nat) => (List.range 80).map fun (j : Nat) =>
    spaced ["air", intText ((5 * i : Nat) - 40), natText (50 * (j + 1)), decText 4 (airRho i j),
      decText 6 (airH i j)]

/-- `show events` (R184). -/
def eventLines (s : State) : List String :=
  paramLines s ((eventRows.filter fun p => p.num < 0x6200)
    ++ (List.range 4).flatMap (fun k => recogRows ((k + 1) * 0x1000) ("run" ++ natText (k + 1) ++ "."))
    ++ eventRows.filter fun p => decide (0x6200 ≤ p.num ∧ p.num < 0x6F00) && decide (2 ≤ p.num % 16))

/-- The place of a program word. -/
def wordPlace (i : Nat) : String :=
  if i < 128 then spaced ["s" ++ natText (i / 4), "t" ++ natText (i % 4)] else "a" ++ natText (i - 128)

/-- `show sm m`N (R182). -/
def smLines (s : State) (i : Fin 8) : List String :=
  let m := s.ev.machines[i]
  let line := fun (kind : String) (k : Nat) (w : Word) => spaced [kind, wordPlace k, hexText 8 w.toNat]
  (List.range 192).filterMap (fun k => if fetch 0 m.live k = 0 then none else some (line "live" k (fetch 0 m.live k)))
  ++ (List.range 192).filterMap fun k =>
    if fetch 0 m.draft k = fetch 0 m.live k then none else some (line "draft" k (fetch 0 m.draft k))

/-- Partner-table entries of a run from a start, in time order. -/
def insertEntry (e : Entry) : List Entry → List Entry
  | [] => [e]
  | x :: xs => if e.start ≤ x.start then e :: x :: xs else x :: insertEntry e xs

/-- One quantity of a `show settle` line: upstream, downstream, loss and settled. -/
def settleFields (code : Nat) (q : Option (Int × Int)) (settled : Option Int) : List String :=
  let d := fun (x : Option Int) => dash (x.map (decText 6))
  [d (q.map (·.1)), d (q.map (·.2)), d (if 1 ≤ code ∧ code ≤ 3 then q.map fun v => v.1 - v.2 else none), d settled]

/-- A line of `show settle` (R286). -/
def settleLine (s : State) (t : Entry) : String :=
  let head := ["settle", "run" ++ natText t.run, secText t.start]
  match (findInt s t.run t.start).filter fun i => t.decided && outcomeAt s i ≠ 255 with
  | some i =>
    let b := outcomeAt s i
    let code := b % 16
    let own := intAt s i
    let other := if own.total = t.blocks then some t.side else none
    let v := valuesOf s t.run code own.side other
    let d := decisionOf s t.run code own.side other
    spaced (head ++ [outcomeName b, ["both", "up", "down", "none"].getD (b / 16 % 4) "-"]
      ++ (if b / 64 % 2 = 1 then ["unclean"] else [])
      ++ settleFields code v.mass (d.settled.map (·.1)) ++ settleFields code v.energy (d.settled.map (·.2)))
  | none =>
    let one := fun (q : Int) => if ownUp s then ["-", decText 6 q, "-", "-"] else [decText 6 q, "-", "-", "-"]
    spaced (head ++ ["open", "-"] ++ one t.m ++ one t.e)

/-- `show settle` run start [count] (R286). -/
def settleLines (s : State) (r : Run) (ms : Int) (n : Nat) : List String :=
  let es := s.se.table.filter fun t => decide (t.run = r.val + 1 ∧ ms ≤ 1000 * (t.start : Int))
  ((es.foldr insertEntry []).take n).map (settleLine s)

/-- `show safety` (R325): the parameters, the standing causes, and the waiting set with its line and seconds left. -/
def safetyLines (s : State) : List String :=
  paramLines s safetyRows
    ++ [spaced ("cause" :: s.sf.causes.map (hexText 2)),
        match s.cm.wait with
        | some w => spaced ["pending", natText w.set.members.length, lineName w.line,
            natText ((w.deadline - s.ck.mono + 999) / 1000)]
        | none => "pending none"]

/-- A unit of the repair table. -/
def repairUnit (row : Bool) (u : Nat) : String := if row then natText u else unitName u

/-- `show repair` (R334). -/
def repairLines (s : State) : List String :=
  s.sp.table.zipIdx.map (fun q =>
    let e := q.1
    let row : Bool := e.kind = 3
    spaced ["repair", natText q.2, ["-", "fast", "slow", "row"].getD e.kind "-", repairUnit row e.failed,
      if e.spare = 0 then "-" else repairUnit row e.spare, ["-", "soft", "burnt", "cleared"].getD e.st "-",
      secText e.time, dash (e.fuse.map natText)])
  ++ s.sp.fuses.zipIdx.map fun q =>
    let row : Bool := q.1.1 ≠ 1
    spaced ["fuse", natText q.2, ["-", "cell", "row", "void"].getD q.1.1 "-", repairUnit row q.1.2.1,
      repairUnit row q.1.2.2]

/-- `show age` (R339). -/
def ageLines (s : State) : List String :=
  (List.finRange 16).map fun i =>
    let name := ageNames.getD i.val ""
    match s.sp.ages[i] with
    | some a =>
      let d := fun (x : Int) => decText (ageDecimals i.val) x
      spaced (["age", name, d a.value, d a.limit, dash (a.date.map secText), className4 a.cls]
        ++ if a.beyond then ["beyond"] else [])
    | none => spaced ["age", name, "-", "-", "-", "none"]

/-- Topics that take no field. -/
def plainTopic (s : State) (l : Line) (i : Nat) : List String :=
  match i with
  | 0 => atticLines s
  | 1 => s.cm.pendingZ.map memberText
  | 2 => [roleLine s l]
  | 3 => lineLines s l
  | 4 => watchLines s l
  | 6 => matrixLines s
  | 9 => eventLines s
  | 12 => paramLines s outputRows
  | 13 => safetyLines s
  | 14 => repairLines s
  | _ => ageLines s

/-- The lines of a topic, with orders 1 and 2 of its fields. -/
def topicLines (s : State) (strict : Bool) (l : Line) (i : Nat) (fields : List String) : Except Reason (List String) :=
  match i, fields with
  | 5, [rt] => (runField rt).map (feLines s)
  | 7, [rt] => (runField rt).map (engineLines s)
  | 8, [rt] =>
    match byWord strict ["air"] rt with
    | some _ => .ok airLines
    | none => (runField rt).map (qtableLines s)
  | 10, [mt] => (machineField mt).map (smLines s)
  | 11, rt :: st :: more => do
    need (more.length ≤ 1) .badForm
    let ms ← timeField st
    let n ← countOr 1 96 1 more.head?
    let r ← runField rt
    .ok (settleLines s r ms n)
  | _, [] => if i = 5 ∨ i = 7 ∨ i = 8 ∨ i = 10 ∨ i = 11 then .error .badForm else .ok (plainTopic s l i)
  | _, _ => .error .badForm

/-- `show` topic (R41). -/
def bodyShow (rq : Req) (args : List String) : Body := fun s => do
  let t ← want args.head? .badForm
  let i ← wordField rq.tag.isSome topics t
  let ls ← topicLines s rq.tag.isSome rq.line i args.tail
  served s "show"
  .ok (s, ls.map ("part " ++ ·) ++ ["ok show " ++ topics.getD i ""])

/-- SHOW (R41). -/
def execShow (rq : Req) (args : List String) (s : State) : Host.Outcome State Fault Refusal :=
  done (runLine rq "show" (bodyShow rq args) s)

end Sys2Proof.Machine
end

