-- ==== Sys2Proof/Machine/Dispatch.lean ====
section
/-! DEFINITION. The meaning of every command, one arm per row of spec/opcode_table.json. -/

namespace Sys2Proof.Machine

def exec (i : Instr) (s : State) : Host.Outcome State Fault Refusal :=
  match i with
  | .get rq args => Sys2Proof.Machine.execGet rq args s
  | .set rq args => Sys2Proof.Machine.execSet rq args s
  | .stage rq args => Sys2Proof.Machine.execStage rq args s
  | .commit rq args => Sys2Proof.Machine.execCommit rq args s
  | .discard rq args => Sys2Proof.Machine.execDiscard rq args s
  | .discardPending rq args => Sys2Proof.Machine.execDiscardPending rq args s
  | .show rq args => Sys2Proof.Machine.execShow rq args s
  | .watch rq args => Sys2Proof.Machine.execWatch rq args s
  | .quiet rq args => Sys2Proof.Machine.execQuiet rq args s
  | .help rq args => Sys2Proof.Machine.execHelp rq args s
  | .role rq args => Sys2Proof.Machine.execRole rq args s
  | .roleCodeChange rq args => Sys2Proof.Machine.execRoleCodeChange rq args s
  | .time rq args => Sys2Proof.Machine.execTime rq args s
  | .timeSet rq args => Sys2Proof.Machine.execTimeSet rq args s
  | .start rq args => Sys2Proof.Machine.execStart rq args s
  | .stop rq args => Sys2Proof.Machine.execStop rq args s
  | .drop rq args => Sys2Proof.Machine.execDrop rq args s
  | .pair rq args => Sys2Proof.Machine.execPair rq args s
  | .test rq args => Sys2Proof.Machine.execTest rq args s
  | .testComplete r => Sys2Proof.Machine.execTestComplete r s
  | .ledgerInterval rq args => Sys2Proof.Machine.execLedgerInterval rq args s
  | .ledgerClose rq args => Sys2Proof.Machine.execLedgerClose rq args s
  | .ledgerEvents rq args => Sys2Proof.Machine.execLedgerEvents rq args s
  | .ledgerAudit rq args => Sys2Proof.Machine.execLedgerAudit rq args s
  | .ledgerHead rq args => Sys2Proof.Machine.execLedgerHead rq args s
  | .ledgerRaw rq args => Sys2Proof.Machine.execLedgerRaw rq args s
  | .ledgerVerify rq args => Sys2Proof.Machine.execLedgerVerify rq args s
  | .gatherShow rq args => Sys2Proof.Machine.execGatherShow rq args s
  | .gatherRing rq args => Sys2Proof.Machine.execGatherRing rq args s
  | .gatherRead rq args => Sys2Proof.Machine.execGatherRead rq args s
  | .gatherWord rq args => Sys2Proof.Machine.execGatherWord rq args s
  | .gatherStart rq args => Sys2Proof.Machine.execGatherStart rq args s
  | .gatherStop rq args => Sys2Proof.Machine.execGatherStop rq args s
  | .gatherResume rq args => Sys2Proof.Machine.execGatherResume rq args s
  | .gatherSkip rq args => Sys2Proof.Machine.execGatherSkip rq args s
  | .gatherReset rq args => Sys2Proof.Machine.execGatherReset rq args s
  | .doFePoint rq args => Sys2Proof.Machine.execDoFePoint rq args s
  | .doFeLeadcal rq args => Sys2Proof.Machine.execDoFeLeadcal rq args s
  | .doKPoint rq args => Sys2Proof.Machine.execDoKPoint rq args s
  | .doQPoint rq args => Sys2Proof.Machine.execDoQPoint rq args s
  | .doMatrixVibfit rq args => Sys2Proof.Machine.execDoMatrixVibfit rq args s
  | .vibfitDone run o => Sys2Proof.Machine.execVibfitDone run o s
  | .doPilotRef rq args => Sys2Proof.Machine.execDoPilotRef rq args s
  | .pilotRefDone run => Sys2Proof.Machine.execPilotRefDone run s
  | .doBeep rq args => Sys2Proof.Machine.execDoBeep rq args s
  | .doBeepStop rq args => Sys2Proof.Machine.execDoBeepStop rq args s
  | .beepPatternEnd => Sys2Proof.Machine.execBeepPatternEnd s
  | .doTurnRef rq args => Sys2Proof.Machine.execDoTurnRef rq args s
  | .doSmWord rq args => Sys2Proof.Machine.execDoSmWord rq args s
  | .doSmAct rq args => Sys2Proof.Machine.execDoSmAct rq args s
  | .doSmFactory rq args => Sys2Proof.Machine.execDoSmFactory rq args s
  | .doSmReset rq args => Sys2Proof.Machine.execDoSmReset rq args s
  | .doCoForce rq args => Sys2Proof.Machine.execDoCoForce rq args s
  | .doCoForceEnd rq args => Sys2Proof.Machine.execDoCoForceEnd rq args s
  | .forceExpiry x => Sys2Proof.Machine.execForceExpiry x s
  | .doSafetyReset rq args => Sys2Proof.Machine.execDoSafetyReset rq args s
  | .doSafetyConfirm rq args => Sys2Proof.Machine.execDoSafetyConfirm rq args s
  | .safetyConfirmTimeout => Sys2Proof.Machine.execSafetyConfirmTimeout s
  | .doRepairCell rq args => Sys2Proof.Machine.execDoRepairCell rq args s
  | .doRepairRow rq args => Sys2Proof.Machine.execDoRepairRow rq args s
  | .doRepairClear rq args => Sys2Proof.Machine.execDoRepairClear rq args s
  | .doRepairBurn rq args => Sys2Proof.Machine.execDoRepairBurn rq args s
  | .doAgeBackupFitted rq args => Sys2Proof.Machine.execDoAgeBackupFitted rq args s
  | .lineEndReceived l e => Sys2Proof.Machine.execLineEndReceived l e s
  | .characterReceived l c => Sys2Proof.Machine.execCharacterReceived l c s
  | .linePassEnd => Sys2Proof.Machine.execLinePassEnd s
  | .roleIdleTimeout l => Sys2Proof.Machine.execRoleIdleTimeout l s
  | .roleWarnDue l => Sys2Proof.Machine.execRoleWarnDue l s
  | .roleLockoutEnd l => Sys2Proof.Machine.execRoleLockoutEnd l s
  | .watchPeriodDue l param => Sys2Proof.Machine.execWatchPeriodDue l param s
  | .commitApply => Sys2Proof.Machine.execCommitApply s
  | .supplyApplied millivolts => Sys2Proof.Machine.execSupplyApplied millivolts s
  | .backupCellFitted millivolts => Sys2Proof.Machine.execBackupCellFitted millivolts s
  | .supplyLoss => Sys2Proof.Machine.execSupplyLoss s
  | .supplyReturn millivolts => Sys2Proof.Machine.execSupplyReturn millivolts s
  | .backupCellTest millivolts => Sys2Proof.Machine.execBackupCellTest millivolts s
  | .nrstAsserted => Sys2Proof.Machine.execNrstAsserted s
  | .nrstReleased form => Sys2Proof.Machine.execNrstReleased form s
  | .startSequenceComplete r form => Sys2Proof.Machine.execStartSequenceComplete r form s
  | .stopSequenceComplete r => Sys2Proof.Machine.execStopSequenceComplete r s
  | .sealLoopChange isOpen => Sys2Proof.Machine.execSealLoopChange isOpen s
  | .diChange pin level => Sys2Proof.Machine.execDiChange pin level s
  | .valveDiscrepancy x => Sys2Proof.Machine.execValveDiscrepancy x s
  | .tallyCrossing run rise atMicros => Sys2Proof.Machine.execTallyCrossing run rise atMicros s
  | .blockBoundary => Sys2Proof.Machine.execBlockBoundary s
  | .intervalBoundary => Sys2Proof.Machine.execIntervalBoundary s
  | .dailyClose => Sys2Proof.Machine.execDailyClose s
  | .keepBacklogWrite => Sys2Proof.Machine.execKeepBacklogWrite s
  | .clockTrim dieTenths => Sys2Proof.Machine.execClockTrim dieTenths s
  | .thermalAccumulate dieTenths => Sys2Proof.Machine.execThermalAccumulate dieTenths s
  | .clockStep => Sys2Proof.Machine.execClockStep s
  | .slewComplete => Sys2Proof.Machine.execSlewComplete s
  | .burstWake b => Sys2Proof.Machine.execBurstWake b s
  | .burstEnd tracked => Sys2Proof.Machine.execBurstEnd tracked s
  | .feRestartDone run => Sys2Proof.Machine.execFeRestartDone run s
  | .pilotResult run lift vib => Sys2Proof.Machine.execPilotResult run lift vib s
  | .eventTick => Sys2Proof.Machine.execEventTick s
  | .smTimerExpiry m timer => Sys2Proof.Machine.execSmTimerExpiry m timer s
  | .knock peakCentiG => Sys2Proof.Machine.execKnock peakCentiG s
  | .hammer run peak duration => Sys2Proof.Machine.execHammer run peak duration s
  | .cadence run beat => Sys2Proof.Machine.execCadence run beat s
  | .releaseFall below lowest => Sys2Proof.Machine.execReleaseFall below lowest s
  | .release run rms judged => Sys2Proof.Machine.execRelease run rms judged s
  | .turnRot angle => Sys2Proof.Machine.execTurnRot angle s
  | .turnTilt angle => Sys2Proof.Machine.execTurnTilt angle s
  | .safetyJudgement standing => Sys2Proof.Machine.execSafetyJudgement standing s
  | .weldedContact relay => Sys2Proof.Machine.execWeldedContact relay s
  | .evaluatorRestart passed => Sys2Proof.Machine.execEvaluatorRestart passed s
  | .limiterUpdate x frequency => Sys2Proof.Machine.execLimiterUpdate x frequency s
  | .coReadback x back => Sys2Proof.Machine.execCoReadback x back s
  | .pulseIssue x => Sys2Proof.Machine.execPulseIssue x s
  | .reservationGrant => Sys2Proof.Machine.execReservationGrant s
  | .shedWaitTimeout g => Sys2Proof.Machine.execShedWaitTimeout g s
  | .shedSpellEnd => Sys2Proof.Machine.execShedSpellEnd s
  | .reservationTimeout => Sys2Proof.Machine.execReservationTimeout s
  | .queueReset cause => Sys2Proof.Machine.execQueueReset cause s
  | .lingerExpiry => Sys2Proof.Machine.execLingerExpiry s
  | .drainPassEnd => Sys2Proof.Machine.execDrainPassEnd s
  | .move g err => Sys2Proof.Machine.execMove g err s
  | .loop g => Sys2Proof.Machine.execLoop g s
  | .wait g => Sys2Proof.Machine.execWait g s
  | .waitSatisfied g => Sys2Proof.Machine.execWaitSatisfied g s
  | .waitTimeout g => Sys2Proof.Machine.execWaitTimeout g s
  | .signal g => Sys2Proof.Machine.execSignal g s
  | .mark g => Sys2Proof.Machine.execMark g s
  | .endProg g => Sys2Proof.Machine.execEndProg g s
  | .opcodeFault g => Sys2Proof.Machine.execOpcodeFault g s
  | .portStallEnd g => Sys2Proof.Machine.execPortStallEnd g s
  | .paceResume g => Sys2Proof.Machine.execPaceResume g s
  | .channelStopped g => Sys2Proof.Machine.execChannelStopped g s
  | .ringPostTimeout g => Sys2Proof.Machine.execRingPostTimeout g s
  | .ledgerScrub chain index => Sys2Proof.Machine.execLedgerScrub chain index s
  | .hello h f => Sys2Proof.Machine.execHello h f s
  | .prove h sig => Sys2Proof.Machine.execProve h sig s
  | .refuse h reason => Sys2Proof.Machine.execRefuse h reason s
  | .ack h => Sys2Proof.Machine.execAck h s
  | .nak h seq check => Sys2Proof.Machine.execNak h seq check s
  | .bye h => Sys2Proof.Machine.execBye h s
  | .ivl h record => Sys2Proof.Machine.execIvl h record s
  | .close h record => Sys2Proof.Machine.execClose h record s
  | .csig h number chain sig => Sys2Proof.Machine.execCsig h number chain sig s
  | .cosig h number sig => Sys2Proof.Machine.execCosig h number sig s
  | .decline h number reason => Sys2Proof.Machine.execDecline h number reason s
  | .damage h chain index kase => Sys2Proof.Machine.execDamage h chain index kase s
  | .tq h t1 => Sys2Proof.Machine.execTq h t1 s
  | .tr h t1 t2 t3 => Sys2Proof.Machine.execTr h t1 t2 t3 s
  | .frameCheckFail tag computed => Sys2Proof.Machine.execFrameCheckFail tag computed s
  | .protocolError tag => Sys2Proof.Machine.execProtocolError tag s
  | .helloRetry => Sys2Proof.Machine.execHelloRetry s
  | .openingTimeout => Sys2Proof.Machine.execOpeningTimeout s
  | .rtoExpiry => Sys2Proof.Machine.execRtoExpiry s
  | .ackDelay => Sys2Proof.Machine.execAckDelay s
  | .keepaliveDue => Sys2Proof.Machine.execKeepaliveDue s
  | .sessionSilence => Sys2Proof.Machine.execSessionSilence s
  | .turnRetake => Sys2Proof.Machine.execTurnRetake s
  | .silentTimeout => Sys2Proof.Machine.execSilentTimeout s
  | .tqDue => Sys2Proof.Machine.execTqDue s
  | .feLeadcalDone run loop => Sys2Proof.Machine.execFeLeadcalDone run loop s
  | .knockDoubleMaxRunOut => Sys2Proof.Machine.execKnockDoubleMaxRunOut s

end Sys2Proof.Machine
end

