-- ==== Sys2Proof/Safety.lean ====
section
/-! DEFINITION. What a safe state of the module is, and the relations between two states in whose terms the statements
say what a command does and what it leaves alone. -/

namespace Sys2Proof.Machine

/-! ## Safe states -/

/-- The trip outputs are energised only in RUN with no latch set (R22). -/
def State.tripSafe (s : State) : Bool := !s.sf.coil || (decide (s.pw.ms = .run) && !s.sf.latch)

/-- A state with the latch set is not RUN (R22, R312). -/
def State.latchSafe (s : State) : Bool := !s.sf.latch || decide (s.pw.ms ≠ .run)

/-! ## Frames -/

/-- A line that has only talked: characters sent, lines of its queue answered, notes taken and sent. Its role, the line it
is receiving, its watches, its wrong codes and its check and busy counters stand (R27). -/
def LineSt.talks (x y : LineSt) : Prop :=
  y = { x with lineAt := y.lineAt, warned := y.warned, queue := y.queue, sent := y.sent, echoed := y.echoed,
               shown := y.shown, watchNotes := y.watchNotes, otherNotes := y.otherNotes, series := y.series,
               dropped := y.dropped, cntLost := y.cntLost }

/-- `t` is `u` but for what the lines have said. -/
def Talked (u t : State) : Prop :=
  t = { u with host := t.host, service := t.service } ∧ u.host.talks t.host ∧ u.service.talks t.service

/-- `t` is `u` but for what the lines have said and for what the ledger writer did: records and the directory in the
two ferroelectric copies, the heads of the chains, the count of sector writes, and the packets in the journal queue
(R227). -/
def Booked (u t : State) : Prop :=
  t = { u with
    host := t.host, service := t.service, qu := t.qu
    mem := { u.mem with a := t.mem.a, b := t.mem.b }
    lg := { u.lg with gen := t.lg.gen, chains := t.lg.chains }
    sp := { u.sp with framWrites := t.sp.framWrites } }
  ∧ u.host.talks t.host ∧ u.service.talks t.service

/-- `t` is `u` but for what measuring, settling and the tally conversation do beside booking: the runs, the outputs, the
session, the outcomes, the ledger's own counters, the effective cadence (Table 1.4), and the channels to which the
conversation gives a record (R221). The module state, the clock, the stored parameters, the matrix, the machines, the rest
of the gather engine, SRAM and cellar, the safety function and the spares stand. -/
def Worked (u t : State) : Prop :=
  t = { u with
    host := t.host, service := t.service, runs := t.runs, qu := t.qu, io := t.io, pair := t.pair, se := t.se, lg := t.lg
    ga := { u.ga with chans := t.ga.chans }
    pw := { u.pw with pass := t.pw.pass, blockWhole := t.pw.blockWhole, cad := t.pw.cad }
    ck := { u.ck with partUnset := t.ck.partUnset, stored := t.ck.stored }
    mem := { u.mem with a := t.mem.a, b := t.mem.b }
    sp := { u.sp with framWrites := t.sp.framWrites } }
  ∧ u.host.talks t.host ∧ u.service.talks t.service

/-- What a START, however begun, leaves: the trip outputs off with the latch as it was and no cause recorded, both sessions
cleared, no partner session, channels and machines at rest with the machines' programs as they were, SRAM and cellar
filled with zeros; identity, stored parameters, the pending class Z set and the repairs stand (R22, R78, R368,
Table 2.5). -/
def Started (s t : State) : Prop :=
  t.pw.ms = .start ∧ t.sf.coil = false ∧ t.sf.latch = s.sf.latch ∧ t.sf.causes = []
  ∧ (∀ l : Line, (t.line l).role = .view ∧ (t.line l).watches = [])
  ∧ t.pair.st = .idle ∧ (∀ g : Channel, t.ga.chans[g].st = .idle)
  ∧ (∀ m : Fin 8, t.ev.machines[m].st = 0 ∧ t.ev.machines[m].live = s.ev.machines[m].live)
  ∧ t.mem.sram = [] ∧ t.mem.cellar = []
  ∧ t.ident = s.ident ∧ t.cm.params = s.cm.params ∧ t.cm.pendingZ = s.cm.pendingZ
  ∧ t.sp.table = s.sp.table ∧ t.sp.fuses = s.sp.fuses ∧ t.pending = s.pending

/-- The module has tripped: SAFE with the latch set and the trip outputs off; the stored parameters and sets, the clock,
the channels, the machines, the memories and the identity stand (R306, R312). -/
def Tripped (s t : State) : Prop :=
  t.pw.ms = .safe ∧ t.sf.latch = true ∧ t.sf.coil = false ∧ t.sf.since = nowSec s
  ∧ t.pw.supply = s.pw.supply ∧ t.cm = s.cm ∧ t.ck = s.ck ∧ t.ident = s.ident ∧ t.ga = s.ga ∧ t.mx = s.mx
  ∧ t.pair = s.pair ∧ t.se = s.se ∧ t.ev.machines = s.ev.machines ∧ t.mem.sram = s.mem.sram
  ∧ t.mem.cellar = s.mem.cellar ∧ t.io.di = s.io.di ∧ t.sp.table = s.sp.table ∧ t.pending = s.pending

/-- `t` is `u` but for what the gather engine did: the channels and their ports, the program memory, the ring, the journal
queue, SRAM and the cellar, the error counts of the rows, and the lines' talk (R202, R203). -/
def Gathered (u t : State) : Prop :=
  t = { u with
    host := t.host, service := t.service, ga := t.ga, qu := t.qu
    mem := { u.mem with sram := t.mem.sram, cellar := t.mem.cellar }
    sp := { u.sp with rowErrors := t.sp.rowErrors } }
  ∧ t.ga.hostCopy = u.ga.hostCopy ∧ u.host.talks t.host ∧ u.service.talks t.service

/-- RUN, SAFE and HELD: the states that serve every verb (Table 1.4). -/
def State.serving (s : State) : Bool := s.pw.ms = .run || s.pw.ms = .safe || s.pw.ms = .held

/-! ## The partner line -/

/-- `f` done to the session, with the fast domain awake for a line pass (R247). -/
def State.spoken (s : State) (f : Pair → Pair) : State :=
  { s with pair := f s.pair, pw := { s.pw with pass := if s.pw.pass = .asleep then .line else s.pw.pass } }

/-- The session after a frame without its check left in state `s`: preamble, frame and check are on the line (R245,
R247). -/
def Pair.says (s : State) (text : String) (p : Pair) : Pair :=
  { p with sent := p.sent ++ [preamble s ++ text ++ checkField text], txAt := s.ck.mono, unacked := 0 }

/-- As `Pair.says` for a sequenced frame, which stays outstanding (R246, R254). -/
def Pair.carries (s : State) (kind : Nat) (text : String) (p : Pair) : Pair :=
  { p.says s text with
    nextSeq := seqAfter p.nextSeq, out := p.out ++ [⟨p.nextSeq, text, crc16 text, s.ck.mono, 0, kind⟩] }

/-- The session after a loss (R259). -/
def Pair.lose (p : Pair) : Pair := { clearWindow p with st := .lost, resync := p.resync + 1 }

/-! ## Answers -/

/-- The sender of a command that a line carries (R27). -/
def lineRequest : Instr → Option Req
  | .get rq _ | .set rq _ | .stage rq _ | .commit rq _ | .discard rq _ | .discardPending rq _ | .show rq _
  | .watch rq _ | .quiet rq _ | .help rq _ | .role rq _ | .roleCodeChange rq _ | .time rq _ | .timeSet rq _
  | .start rq _ | .stop rq _ | .drop rq _ | .pair rq _ | .test rq _ | .ledgerInterval rq _ | .ledgerClose rq _
  | .ledgerEvents rq _ | .ledgerAudit rq _ | .ledgerHead rq _ | .ledgerRaw rq _ | .ledgerVerify rq _
  | .gatherShow rq _ | .gatherRing rq _ | .gatherRead rq _ | .gatherWord rq _ | .gatherStart rq _
  | .gatherStop rq _ | .gatherResume rq _ | .gatherSkip rq _ | .gatherReset rq _ | .doFePoint rq _
  | .doFeLeadcal rq _ | .doKPoint rq _ | .doQPoint rq _ | .doMatrixVibfit rq _ | .doPilotRef rq _
  | .doBeep rq _ | .doBeepStop rq _ | .doTurnRef rq _ | .doSmWord rq _ | .doSmAct rq _ | .doSmFactory rq _
  | .doSmReset rq _ | .doCoForce rq _ | .doCoForceEnd rq _ | .doSafetyReset rq _ | .doSafetyConfirm rq _
  | .doRepairCell rq _ | .doRepairRow rq _ | .doRepairClear rq _ | .doRepairBurn rq _ | .doAgeBackupFitted rq _ => some rq
  | _ => none

/-- The lines that answer the command of `rq` stand on its line, in order, behind what was sent before (R36, R38). -/
def Replied (rq : Req) (lines : List String) (s t : State) : Prop :=
  ∃ more, (t.line rq.line).sent = (s.line rq.line).sent ++ lines.map (replyText rq.tag) ++ more

/-- The command `i` of `rq` ends in a next state: it is answered `lines`, and what it did is `u`, the lines' talk
apart. -/
def Answers (rq : Req) (i : Instr) (s : State) (lines : List String) (u : State) : Prop :=
  ∃ t, exec i s = .next t ∧ Replied rq lines s t ∧ Talked u t

/-- As `Answers`, where the command also writes to the ledger. -/
def AnswersBooked (rq : Req) (i : Instr) (s : State) (lines : List String) (u : State) : Prop :=
  ∃ t, exec i s = .next t ∧ Replied rq lines s t ∧ Booked u t

/-- The command `i` ends in a next state: `u`, the lines' talk apart. -/
def Gives (i : Instr) (s u : State) : Prop := ∃ t, exec i s = .next t ∧ Talked u t

/-- As `Gives`, where the command also writes to the ledger. -/
def GivesBooked (i : Instr) (s u : State) : Prop := ∃ t, exec i s = .next t ∧ Booked u t

/-- As `AnswersBooked`, where the command also measures, settles or speaks with the partner. -/
def AnswersWorked (rq : Req) (i : Instr) (s : State) (lines : List String) (u : State) : Prop :=
  ∃ t, exec i s = .next t ∧ Replied rq lines s t ∧ Worked u t

/-- As `GivesBooked`, where the command also measures, settles or speaks with the partner. -/
def GivesWorked (i : Instr) (s u : State) : Prop := ∃ t, exec i s = .next t ∧ Worked u t

end Sys2Proof.Machine
end

