-- ==== Sys2Proof/Certificates/Slice0/Obligations.lean ====
section
/-! DEFINITION. The statements for the provers. Each names the rule of spec/ or the log entry it rests on. -/

open Sys2Proof Sys2Proof.Machine

/-- For every command c, every queue rest and every state, a step of the state with c in front of rest is exec of c on
the state with the queue's rest: the same next state or fault. On an empty queue the step is one millisecond of
time, which is the model's own choice (log 2). Every command ends in a next state, but for SUPPLY_APPLIED and
SUPPLY_RETURN above 32.0 V, which is beyond the limits within which the behaviour is promised (log 5).
(spec/95_what_each_step_holds.md) -/
def Obligations.StepRunsTheFrontCommand : Prop :=
  ∀ (c : Instr) (rest : List Instr) (s : State),
    step { s with pending := c :: rest } = exec c { s with pending := rest }
    ∧ step { s with pending := [] } = .next (idleTick { s with pending := [] })
    ∧ ((∀ mv : Nat, c = .supplyApplied mv ∨ c = .supplyReturn mv → mv ≤ 32000) → ∃ t, exec c s = .next t)
    ∧ (∀ mv : Nat, 32000 < mv → exec (.supplyApplied mv) s = .fault .beyondLimits
      ∧ exec (.supplyReturn mv) s = .fault .beyondLimits)

/-- A step on an empty queue is one millisecond (the model's choice, log 2). The monotonic count rises by 1. Outside
COLD the clock advances by 1 ms, by the part of the slew that 50 ppm allows, and on whole seconds by the correction
in whole crystal cycles, of which the rest is kept; in COLD it stands. The module state, the queue, the sets and
stored parameters, the matrix, the engine, the machines, the safety function and the cellar stand. While the fast
domain is awake and free no closed block is left unpriced. While it sleeps, or with no closed block, and with no
turn of the partner line held, the power state, the runs, the queue, the ledger, the session, the settlement, the
outputs, the spares and the two ledger copies stand as well. (03_wakefulness_and_time.md R72, R74, R143, R217, R260) -/
def Obligations.IdleMillisecondPasses : Prop :=
  ∀ s : State, s.pending = [] → ∃ t, step s = .next t ∧ t.ck.mono = s.ck.mono + 1
    ∧ (s.pw.ms ≠ .cold →
        let trim := if (s.ck.mono + 1) % 1000 = 0 then trimStep s else (s.ck.residue, 0)
        t.ck.slew = s.ck.slew - clampInt (-500) 500 s.ck.slew ∧ t.ck.residue = trim.1
        ∧ t.ck.t = ((s.ck.t + 10000000 : Nat) + trim.2 + clampInt (-500) 500 s.ck.slew).toNat)
    ∧ (s.pw.ms = .cold → t.ck.t = s.ck.t ∧ t.ck.slew = s.ck.slew)
    ∧ t.pending = [] ∧ t.ident = s.ident ∧ t.pw.ms = s.pw.ms ∧ t.cm = s.cm ∧ t.mx = s.mx ∧ t.en = s.en ∧ t.ev = s.ev
    ∧ t.sf = s.sf ∧ t.mem.cellar = s.mem.cellar
    ∧ (awake s = true → fastFree s = true → t.lg.closed = [])
    ∧ ((awake s = false ∨ s.lg.closed = []) → s.pair.turn = false →
      t.pw = s.pw ∧ t.runs = s.runs ∧ t.qu = s.qu ∧ t.lg = s.lg ∧ t.pair = s.pair ∧ t.se = s.se ∧ t.io = s.io
      ∧ t.sp = s.sp ∧ t.mem.a = s.mem.a ∧ t.mem.b = s.mem.b)

/-- In the state from which a run starts (log 1: the module as delivered, in COLD) the state is COLD, the latch is clear
and the trip outputs are de-energised, both lines hold VIEW with nothing received, every settable parameter reads
its default, the attic is empty, no record is written, both ferroelectric copies hold the directory of delivery in
their first 1024 bytes and read FFh everywhere else, and no command waits. The state meets the invariants of
TripOutputsOnlyInRunKept and MemoryFormKept: the trip outputs are energised only in RUN with no latch set, the latch
is not set in RUN, and nothing is listed in SRAM and cellar. (R22, R23, R43, R46, R226, R368) -/
def Obligations.DeliveryStateIsColdAndSafe : Prop :=
  State.reset.pw.ms = .cold ∧ State.reset.sf.latch = false ∧ State.reset.sf.coil = false
  ∧ State.reset.host.role = .view ∧ State.reset.service.role = .view
  ∧ State.reset.host.queue = [] ∧ State.reset.service.queue = []
  ∧ (∀ n : Nat, pget State.reset n = pDefault n) ∧ State.reset.cm.attic = [] ∧ State.reset.cm.due = []
  ∧ (∀ k : Fin 4, State.reset.lg.chains[k].written = 0)
  ∧ (∀ a : Nat, 1024 ≤ a → fetch blankByte State.reset.mem.a a = 0xFF ∧ fetch blankByte State.reset.mem.b a = 0xFF)
  ∧ State.reset.pending = [] ∧ State.reset.tripSafe = true ∧ State.reset.latchSafe = true
  ∧ State.reset.mem.wf = true ∧ State.reset.mem.a = deliveredCopy ∧ State.reset.mem.b = deliveredCopy
  ∧ (deliveredDir 0 []).length = 1024 ∧ State.reset.mem.sram = []
  ∧ State.reset.mem.cellar = []

/-- For every state in which the trip outputs are energised only in RUN with no latch set, and in which a set latch
means a state other than RUN, the next state of every step, whatever command is in front, is such a state again.
From every state with the latch set, every step leaves it set unless the step leads from SAFE to RUN: it survives
STOP, KEEP, COLD and every START, and no START ends in RUN while it is set. A START whose sequence ends in RUN with
the latch clear ends in SAFE with the latch set. (R22) -/
def Obligations.TripOutputsOnlyInRunKept : Prop :=
  (∀ s t : State, s.tripSafe = true → s.latchSafe = true → step s = .next t →
    t.tripSafe = true ∧ t.latchSafe = true)
  ∧ (∀ s t : State, s.sf.latch = true → step s = .next t →
    t.sf.latch = true ∨ (s.pw.ms = .safe ∧ t.pw.ms = .run))
  ∧ (∀ s t : State, s.pw.ms = .start → s.sf.latch = true → step s = .next t → t.sf.latch = true ∧ t.pw.ms ≠ .run)
  ∧ (∀ (r : TestRun) (f : HostForm) (s t : State), s.sf.latch = false → exec (.startSequenceComplete r f) s = .next t →
    s.pw.ms = .start → t.pw.ms = .run →
    ∃ u, exec (.startSequenceComplete r f) { s with sf := { s.sf with latch := true } } = .next u ∧ u.pw.ms = .safe)

/-- For every state whose four memories list addresses strictly rising with no entry equal to what an unlisted address
reads as, the next state of every step, whatever command is in front, has memories of that form, so that equal
memories are equal data. (R203, R224, R227) -/
def Obligations.MemoryFormKept : Prop :=
  ∀ s t : State, s.mem.wf = true → step s = .next t → t.mem.wf = true

/-- The ledger writer's operation on bytes: with both copies in use, after writing bs at an offset each copy reads bs
there, byte by byte, and every byte outside the written span reads as before. SRAM and cellar are unchanged. A copy
that is out of use (R242) is not written. (R227, 11_ledger.md Table 11.1) -/
def Obligations.LedgerBytesReadBack : Prop :=
  ∀ (s : State) (off : Nat) (bs : List Byte), s.mem.wf = true →
    (∀ a : Nat, a < off ∨ off + bs.length ≤ a →
      fetch blankByte (putBytes s off bs).mem.a a = fetch blankByte s.mem.a a
      ∧ fetch blankByte (putBytes s off bs).mem.b a = fetch blankByte s.mem.b a)
    ∧ (s.lg.state ≠ .singleB → ∀ (i : Nat) (h : i < bs.length), fetch blankByte (putBytes s off bs).mem.a (off + i) = bs[i])
    ∧ (s.lg.state ≠ .singleA → ∀ (i : Nat) (h : i < bs.length), fetch blankByte (putBytes s off bs).mem.b (off + i) = bs[i])
    ∧ (s.lg.state = .singleB → (putBytes s off bs).mem.a = s.mem.a)
    ∧ (s.lg.state = .singleA → (putBytes s off bs).mem.b = s.mem.b)
    ∧ (putBytes s off bs).mem.sram = s.mem.sram ∧ (putBytes s off bs).mem.cellar = s.mem.cellar

/-- Writing an audit record of a kind, a line, a role, a detail, a subject and two values: the audit chain grows by one
record, its head becomes the SHA-256 of the old head and the 24 bytes of the record, the next slot moves on by one
round the ring, the other three chains stand, and every byte outside the record's 32-byte slot and the 2048 bytes of
the two directory places reads as before. (R227, R230, R237, R239) -/
def Obligations.AuditRecordIsChained : Prop :=
  ∀ (kind line role detail subject : Nat) (old new : Int) (s : State),
    let t := audit kind line role detail subject old new s
    let content := stamp s kind ++ leBytes 1 (line * 64 + role * 8) ++ leBytes 1 detail ++ leBytes 2 subject
      ++ leInt 6 old ++ leInt 6 new ++ [0, 0]
    t.lg.chains[3].written = s.lg.chains[3].written + 1
    ∧ t.lg.chains[3].head = some (sha256 (headOf s 3 ++ content))
    ∧ t.lg.chains[3].next = (s.lg.chains[3].next + 1) % 16384
    ∧ t.lg.chains[0] = s.lg.chains[0] ∧ t.lg.chains[1] = s.lg.chains[1] ∧ t.lg.chains[2] = s.lg.chains[2]
    ∧ (∀ a : Nat, 2048 ≤ a → a < recOff 3 s.lg.chains[3].next ∨ recOff 3 s.lg.chains[3].next + 32 ≤ a →
        fetch blankByte t.mem.a a = fetch blankByte s.mem.a a ∧ fetch blankByte t.mem.b a = fetch blankByte s.mem.b a)

/-- In COLD, without supply, and while NRST is asserted, the lines are not served: every command that a line carries
leaves the whole module as it was and is not answered. (R21, R25, 01_ferrow_lane_station.md Table 1.4) -/
def Obligations.UnservedLinesDoNothing : Prop :=
  ∀ (i : Instr) (rq : Req) (s : State), lineRequest i = some rq → linesUp s = false → exec i s = .next s

/-- For each of SET, STAGE, DISCARD, DISCARD_PENDING, TIME_SET, START, STOP, DO_CO_FORCE, DO_CO_FORCE_END,
DO_SAFETY_RESET and PAIR, with any fields, on a served line whose role is VIEW: the command ends in a next state
that differs from the present one in the lines' talk alone. (R43, R45, R46, R49, R75, R80, R284, R302, R315) -/
def Obligations.ViewRoleChangesNothing : Prop :=
  ∀ (rq : Req) (args : List String) (s : State), linesUp s = true → (s.line rq.line).role = .view →
    ∀ i ∈ [Instr.set rq args, .stage rq args, .discard rq args, .discardPending rq args, .timeSet rq args,
      .start rq args, .stop rq args, .doCoForce rq args, .doCoForceEnd rq args, .doSafetyReset rq args, .pair rq args],
    ∃ t, exec i s = .next t ∧ Talked s t

/-- On served lines, in every state: GET of 1 to 8 parameters answers one line for each, in order, `part` for each but
the last and `ok` for the last, with the parameter's name and its value as read; SHOW of a topic answers each line
of the topic with `part` and ends with `ok show` and the topic; HELP without a field answers the verbs of Table 2.3;
TIME answers the present time. Nothing but the talk of the lines changes. (R36, R38, R41, R75) -/
def Obligations.QueriesAnswerAndChangeNothing : Prop :=
  ∀ (rq : Req) (s : State), linesUp s = true →
    (∀ (ts : List String) (ps : List PInfo), 1 ≤ ts.length → ts.length ≤ 8 → ts.all paramForm = true →
      ts.mapM (paramField rq.tag.isSome) = .ok ps →
      Answers rq (.get rq ts) s (closeParts (ps.map fun p => p.name ++ " " ++ readText s p)) s)
    ∧ (∀ (t : String) (i : Nat) (more ls : List String), wordField rq.tag.isSome topics t = .ok i →
      topicLines s rq.tag.isSome rq.line i more = .ok ls →
      Answers rq (.show rq (t :: more)) s (ls.map ("part " ++ ·) ++ ["ok show " ++ topics.getD i ""]) s)
    ∧ Answers rq (.help rq []) s (verbs.map (fun v => "part " ++ v) ++ ["ok help"]) s
    ∧ Answers rq (.time rq []) s ["ok time " ++ msText (nowMs s)] s

/-- On a served line in RUN, SAFE or HELD, for a field that names a parameter p. WATCH with a period of 100 ms to 3600
s, or with `change`, replaces the line's watch on p or adds one where fewer than 16 stand, with the present value as
the last one sent, and answers it. With 16 other watches WATCH is answered `busy watch` and changes nothing. QUIET
of p removes the line's watch on p and answers how many were removed; QUIET all removes them all. Nothing but the
line's watches and the talk of the lines changes. (R41, R54) -/
def Obligations.WatchAndQuietKeepTheWatchList : Prop :=
  ∀ (rq : Req) (s : State) (t : String) (p : PInfo),
    linesUp s = true → s.serving = true → paramForm t = true → paramField rq.tag.isSome t = .ok p →
    (∀ (per : String) (m : Nat), numberLike per = true → countField 100 3600000 per = .ok m →
      ((s.line rq.line).watches.any (fun v => v.param = p.num) || (s.line rq.line).watches.length < 16) = true →
      Answers rq (.watch rq [t, per]) s ["ok watch " ++ p.name ++ " " ++ natText m]
        (s.modLine rq.line fun x => { x with
          watches := addWatch { param := p.num, period := some m, last := readText s p, sentAt := s.ck.mono, recent := [] } x.watches }))
    ∧ (∀ per : String, numberLike per = false → wordField rq.tag.isSome ["change"] per = .ok 0 →
      ((s.line rq.line).watches.any (fun v => v.param = p.num) || (s.line rq.line).watches.length < 16) = true →
      Answers rq (.watch rq [t, per]) s ["ok watch " ++ p.name ++ " " ++ "change"]
        (s.modLine rq.line fun x => { x with
          watches := addWatch { param := p.num, period := none, last := readText s p, sentAt := s.ck.mono, recent := [] } x.watches }))
    ∧ (∀ (per : String) (m : Nat), numberLike per = true → countField 100 3600000 per = .ok m →
      (s.line rq.line).watches.any (fun v => v.param = p.num) = false → 16 ≤ (s.line rq.line).watches.length →
      Answers rq (.watch rq [t, per]) s ["busy watch"] s)
    ∧ (lowerText t ≠ "all" →
      Answers rq (.quiet rq [t]) s
        ["ok quiet " ++ natText (((s.line rq.line).watches.filter fun w => w.param = p.num).length)]
        (s.modLine rq.line fun x => { x with watches := x.watches.filter fun w => w.param ≠ p.num }))
    ∧ (∀ a : String, lowerText a = "all" → paramForm a = true →
      Answers rq (.quiet rq [a]) s ["ok quiet " ++ natText (s.line rq.line).watches.length]
        (s.modLine rq.line fun x => { x with watches := [] }))

/-- On a served line outside STOP, with ROLE not locked. ROLE with the code of a role gives the line that role. A wrong
code is answered `no role` and counted; the fifth within 15 minutes empties the count and locks ROLE on the line for
15 minutes. ROLE view gives the line VIEW, and where the line owns the attic the attic is emptied. ROLE with the
word change, on a line that holds the role, with the seal loop open where the role is above OPERATE, replaces the
code. Each writes the ledger; nothing else changes but the talk of the lines. While ROLE is locked it is answered
`busy role`. (R43, R44, R46, R49) -/
def Obligations.RoleIsEnteredByItsCode : Prop :=
  ∀ (rq : Req) (s : State) (name c : String) (r : Role) (code : Nat), linesUp s = true → s.pw.ms ≠ .stop →
    roleField rq.tag.isSome name = .ok r → r ≠ .view → codeField c = .ok code →
    (roleLocked s rq.line = false →
      (codeOf s r = some code →
        AnswersBooked rq (.role rq [name, c]) s ["ok role " ++ roleName r] (s.modLine rq.line fun x => { x with role := r }))
      ∧ (codeOf s r ≠ some code →
        let w := (s.line rq.line).wrong.filter (fun t => s.ck.mono < t + 900000) ++ [s.ck.mono]
        AnswersBooked rq (.role rq [name, c]) s ["no role"] (s.modLine rq.line fun x =>
          if 5 ≤ w.length then { x with wrong := [], lockUntil := some (s.ck.mono + 900000) } else { x with wrong := w }))
      ∧ (∀ v : String, roleField rq.tag.isSome v = .ok .view →
        AnswersBooked rq (.role rq [v]) s ["ok role view"]
          ((if s.cm.owner = some rq.line then { s with cm := { s.cm with attic := [], owner := none } } else s).modLine rq.line
            fun x => { x with role := .view }))
      ∧ (∀ (c2 : String) (new : Nat), codeField c2 = .ok new → (s.line rq.line).role = r →
        (r = .operate ∨ s.pw.sealOpen = true) → codeOf s r = some code →
        AnswersBooked rq (.roleCodeChange rq [name, c, c2]) s ["ok role " ++ roleName r] (s.setCode r new)))
    ∧ (roleLocked s rq.line = true → Answers rq (.role rq [name, c]) s ["busy role"] s)

/-- With supply. When a line that holds a role has received no line for its role idle time, ROLE_IDLE_TIMEOUT gives it
VIEW, and where it owns the attic the attic is emptied. When only the warning time is left and no warning stands,
ROLE_WARN_DUE marks the warning as given. When the lockout has run out, ROLE_LOCKOUT_END ends it. Apart from the
ledger entries and the talk of the lines nothing else changes. (R43, R44, R49, R55) -/
def Obligations.RoleTimersFallAndWarn : Prop :=
  ∀ (l : Line) (s : State),
    (s.pw.supply = true → (s.line l).role ≠ .view → (s.line l).lineAt + 60000 * pnat s (lineBase l + 3) ≤ s.ck.mono →
      GivesBooked (.roleIdleTimeout l) s
        ((if s.cm.owner = some l then { s with cm := { s.cm with attic := [], owner := none } } else s).modLine l
          fun x => { x with role := .view }))
    ∧ (s.pw.supply = true → (s.line l).role ≠ .view → pnat s (lineBase l + 4) ≠ 0 → (s.line l).warned = false →
      (s.line l).lineAt + 60000 * (pnat s (lineBase l + 3) - pnat s (lineBase l + 4)) ≤ s.ck.mono →
      ∃ t, exec (.roleWarnDue l) s = .next t ∧ (t.line l).warned = true ∧ Talked s t)
    ∧ (∀ u : Nat, (s.line l).lockUntil = some u → u ≤ s.ck.mono →
      exec (.roleLockoutEnd l) s = .next (s.modLine l fun x => { x with lockUntil := none }))

/-- CHARACTER_RECEIVED and LINE_END_RECEIVED complete in every state. On a line that is not served they do nothing; on a
served line each, whatever the character or the line end, notes the time of the start bit and wakes a sleeping fast
domain, and nothing but the two lines changes. A printable character, where no line is being discarded and fewer
than 240 characters are held, is added to them; beyond 240 the line is marked as too long. A character with a
framing error does no more than wake. A line end that is not the LF after a CR takes the held characters: with fewer
than five lines queued, none of which has an answer already, a line that passes the checks made on arrival is queued
behind them, and with five queued the line is answered busy and counted. The held characters are emptied. (R28, R31,
R33, R35, R52, R57, R352, R354) -/
def Obligations.ReceivedCharactersAreHeld : Prop :=
  ∀ (l : Line) (s : State),
    (linesUp s = false → (∀ c : RxChar, exec (.characterReceived l c) s = .next s)
      ∧ ∀ e : LineEnd, exec (.lineEndReceived l e) s = .next s)
    ∧ (linesUp s = true →
      let woken := fun (t : State) =>
        t = { s with host := t.host, service := t.service, pw := { s.pw with pass := t.pw.pass } }
        ∧ t.pw.pass = (if s.pw.pass = .asleep then .line else s.pw.pass) ∧ (t.line l).charAt = s.ck.mono
        ∧ (t.line l).role = (s.line l).role
      (∀ c : RxChar, ∃ t, exec (.characterReceived l c) s = .next t ∧ woken t ∧ (t.line l).sent = (s.line l).sent
        ∧ (t.line l).queue = (s.line l).queue)
      ∧ (∀ e : LineEnd, ∃ t, exec (.lineEndReceived l e) s = .next t ∧ woken t)
      ∧ (∀ b : Byte, 32 ≤ b.toNat → b.toNat ≤ 126 → (s.line l).discard = false →
        ∃ t, exec (.characterReceived l (.byte b)) s = .next t
          ∧ ((s.line l).buf.length < 240 → (t.line l).buf = (s.line l).buf ++ [Char.ofNat b.toNat])
          ∧ (240 ≤ (s.line l).buf.length → (t.line l).buf = (s.line l).buf ∧ (t.line l).tooMuch = true))
      ∧ exec (.characterReceived l .framing) s = .next (startBit l s)
      ∧ (∀ e : LineEnd, ¬(e = .lf ∧ (s.line l).lastCr = true) → (s.line l).discard = false → (s.line l).buf ≠ [] →
        (∀ y ∈ (s.line l).queue, y.answer = none) →
        ∃ t, exec (.lineEndReceived l e) s = .next t ∧ (t.line l).buf = []
          ∧ ((s.line l).queue.length < 5 → (judge (s.line l)).1.answer = none →
              (t.line l).queue = (s.line l).queue ++ [(judge (s.line l)).1])
          ∧ (5 ≤ (s.line l).queue.length →
              (t.line l).queue = (s.line l).queue ∧ (t.line l).cntBusy = (s.line l).cntBusy + 1
              ∧ ∃ more, (t.line l).sent = (s.line l).sent ++ [replyText (splitTag (s.line l).buf).1.join "busy"] ++ more)))

/-- LINE_PASS_END in a line pass, when both lines have been silent for 50 ms with nothing queued and no note waiting,
puts the fast domain to sleep; outside a line pass it changes nothing. WATCH_PERIOD_DUE on a watch whose period has
passed since its last note, with supply, takes the present value as the last one sent and the present time as that
of its note. Nothing else changes but the talk of the lines. (R54, R55, R57) -/
def Obligations.LinePassAndPeriodicWatch : Prop :=
  ∀ s : State,
    (s.pw.pass = .line → (∀ l ∈ allLines, (s.line l).queue = [] ∧ (s.line l).charAt + 50 ≤ s.ck.mono
        ∧ (s.line l).otherNotes = [] ∧ (s.line l).series = [] ∧ (s.line l).watchNotes = []) →
      Gives .linePassEnd s { s with pw := { s.pw with pass := .asleep } })
    ∧ (s.pw.pass ≠ .line → Gives .linePassEnd s s)
    ∧ (∀ (l : Line) (n m : Nat) (w : Watch), (s.line l).watches.find? (fun v => v.param = n) = some w →
      w.period = some m → s.pw.supply = true → w.sentAt + m ≤ s.ck.mono →
      Gives (.watchPeriodDue l n) s (s.modLine l fun x => { x with watches := x.watches.map fun v =>
        if v.param = w.param then { v with last := watched s w, sentAt := s.ck.mono, recent := s.ck.mono :: recentNotes s v }
        else v }))

/-- On a served line in RUN, SAFE or HELD, with the attic empty or owned by the line. STAGE of a settable parameter
whose seal class the line satisfies, with a place in the attic, puts its clamped value there (in place of an older
one) and makes the line the owner. COMMIT with no safety set waiting, every staged member permitted, and a settled
set of class F, B, S or Z without a member of seal class S, empties the attic and schedules the set at its boundary:
class Z joins the pending set, class F is due at once, B and S at the next whole second. A set of class I is stored
at once, and a set with a member of seal class S waits for its confirmation. It answers each member and then the
count and the class. DISCARD in OPERATE or above empties the attic, DISCARD_PENDING the pending set, and each
answers how many members it held. Nothing else changes but the ledger and the talk of the lines. (R46, R47, R49,
R50) -/
def Obligations.StagingKeepsOneOwnedAttic : Prop :=
  ∀ (rq : Req) (s : State), linesUp s = true → s.serving = true → (s.cm.attic = [] ∨ s.cm.owner = some rq.line) →
    (∀ (args : List String) (p : PInfo) (v : Int), paramValue rq.tag.isSome args s = .ok (p, v) → p.cls.isSome = true →
      sealOk s rq.line p.sc = true → ((memberValue s.cm.attic p.num).isSome = true ∨ s.cm.attic.length < 64) →
      Answers rq (.stage rq args) s ["ok stage " ++ p.name ++ " " ++ valueText p.kind v]
        { s with cm := { s.cm with
          attic := stageMember ⟨p.num, v, lineCode rq.line, (s.line rq.line).role⟩ s.cm.attic, owner := some rq.line } })
    ∧ (∀ ms : List Member, s.cm.wait = none → (s.cm.attic.all fun m => sealOk s rq.line (sealOf m.param)) = true →
      settleSet s (s.cm.attic.map fun m => { m with line := lineCode rq.line, role := (s.line rq.line).role }) = some ms →
      strictest ms ≠ .i → needsConfirm ms = false →
      Answers rq (.commit rq []) s
        (ms.map (fun m => "part " ++ memberText m) ++ ["ok commit " ++ natText ms.length ++ " " ++ className (strictest ms)
          ++ (if strictest ms = .z then " pending" else "")])
        { s with cm := { s.cm with
          attic := [], owner := none
          pendingZ := if strictest ms = .z then mergeZ s.cm.pendingZ ms else s.cm.pendingZ
          due := if strictest ms = .z then s.cm.due else s.cm.due ++
            [⟨strictest ms, if strictest ms = .f then s.ck.mono else s.ck.mono + (1000 - nowMs s % 1000), ms,
              some rq.line⟩] } })
    ∧ (∀ ms : List Member, s.cm.wait = none → (s.cm.attic.all fun m => sealOk s rq.line (sealOf m.param)) = true →
      settleSet s (s.cm.attic.map fun m => { m with line := lineCode rq.line, role := (s.line rq.line).role }) = some ms →
      let lines := ms.map (fun m => "part " ++ memberText m)
        ++ ["ok commit " ++ natText ms.length ++ " " ++ className (strictest ms) ++ (if strictest ms = .z then " pending" else "")];
      (needsConfirm ms = true → Answers rq (.commit rq []) s lines { s with cm := { s.cm with
        attic := [], owner := none, drawn := s.cm.drawn + 1
        wait := some {
          set := ⟨strictest ms, 0, ms, some rq.line⟩, line := rq.line, role := (s.line rq.line).role
          code := (Config.confirmCode s.cm.drawn).val, wrong := 0, deadline := s.ck.mono + 1000 * pnat s 0xA007 } } })
      ∧ (strictest ms = .i → needsConfirm ms = false →
        (∀ m ∈ ms, m.param ∉ cellParams true ∧ m.param ≠ 0xA003) →
        ∃ t, exec (.commit rq []) s = .next t ∧ Replied rq lines s t ∧ t.cm.attic = [] ∧ t.cm.owner = none
          ∧ t.cm.params = ((ms.filter fun m => m.param < 0x5000) ++ ms.filter fun m => 0x5000 ≤ m.param).foldl
            (fun ps m => pStore ps m.param m.value) s.cm.params
          ∧ t.cm.due = s.cm.due ∧ t.cm.pendingZ = s.cm.pendingZ ∧ t.pw.ms = s.pw.ms ∧ t.ck.t = s.ck.t ∧ t.sf = s.sf
          ∧ t.ident = s.ident ∧ t.pending = s.pending))
    ∧ (1 ≤ roleCode (s.line rq.line).role →
      AnswersBooked rq (.discard rq []) s ["ok discard " ++ natText s.cm.attic.length]
        { s with cm := { s.cm with attic := [], owner := none } }
      ∧ Answers rq (.discardPending rq []) s ["ok discard " ++ natText s.cm.pendingZ.length]
        { s with cm := { s.cm with pendingZ := [] } })

/-- On a served line in RUN, SAFE or HELD, for a parameter and value that are well formed, a parameter not in the attic,
no safety set waiting, and a role and key that satisfy the seal class. A SET whose settled members are above class I
and not of seal class S is scheduled at its boundary without a note. A SET of a parameter of seal class S waits for
DO_SAFETY_CONFIRM: the set is held with its line, its role, a fresh code and the deadline of safety.confirm.time,
and nothing is stored. One of class I is stored at once. Each answers the stored value. Beside what a class I value
acts on, nothing else changes but the talk of the lines. (R42, R45, R46, R47, R48, R50, R317) -/
def Obligations.SetSchedulesItsParameter : Prop :=
  ∀ (rq : Req) (s : State) (args : List String) (p : PInfo) (v : Int) (ms : List Member),
    linesUp s = true → s.serving = true → paramValue rq.tag.isSome args s = .ok (p, v) → p.cls.isSome = true →
    sealOk s rq.line p.sc = true → memberValue s.cm.attic p.num = none → s.cm.wait = none →
    settleSet s [⟨p.num, v, lineCode rq.line, (s.line rq.line).role⟩] = some ms →
    let reply := ["ok " ++ p.name ++ " " ++ valueText p.kind ((memberValue ms p.num).getD v)
      ++ (if p.cls = some .z then " pending" else "")]
    (strictest ms ≠ .i → needsConfirm ms = false →
      Answers rq (.set rq args) s reply { s with cm := { s.cm with
        pendingZ := if strictest ms = .z then mergeZ s.cm.pendingZ ms else s.cm.pendingZ
        due := if strictest ms = .z then s.cm.due else s.cm.due ++
          [⟨strictest ms, if strictest ms = .f then s.ck.mono else s.ck.mono + (1000 - nowMs s % 1000), ms, none⟩] } })
    ∧ (needsConfirm ms = true →
      Answers rq (.set rq args) s reply { s with cm := { s.cm with
        drawn := s.cm.drawn + 1
        wait := some {
          set := ⟨strictest ms, 0, ms, some rq.line⟩, line := rq.line, role := (s.line rq.line).role
          code := (Config.confirmCode s.cm.drawn).val, wrong := 0, deadline := s.ck.mono + 1000 * pnat s 0xA007 } } })
    ∧ (strictest ms = .i → needsConfirm ms = false → (∀ m ∈ ms, m.param ∉ cellParams true ∧ m.param ≠ 0xA003) →
      ∃ t, exec (.set rq args) s = .next t ∧ Replied rq reply s t
        ∧ t.cm.params = ((ms.filter fun m => m.param < 0x5000) ++ ms.filter fun m => 0x5000 ≤ m.param).foldl
          (fun ps m => pStore ps m.param m.value) s.cm.params
        ∧ t.cm.due = s.cm.due ∧ t.cm.attic = s.cm.attic ∧ t.cm.owner = s.cm.owner ∧ t.cm.pendingZ = s.cm.pendingZ
        ∧ t.pw.ms = s.pw.ms ∧ t.ck.t = s.ck.t ∧ t.sf = s.sf ∧ t.ident = s.ident ∧ t.pending = s.pending)

/-- COMMIT_APPLY removes the sets whose boundary has come, keeps every set whose boundary has not come, and leaves the
attic, its owner, the pending set and a waiting safety set as they are. The module state, the clock, the safety
function, the other commands in the queue and the identity are unchanged. Where a set of class B or S is due and the
fast domain is free, no closed block is left unpriced. Where one set is due and none of its members assigns a cell,
which is settled again and moves gains as well, or is safety.reset.di, which sets input functions as well, the
stored parameters are those before with each member stored, in the order of numbers below 5000h first. With no set
due nothing changes but the talk of the lines. (R47, R51, R85, R145, R237) -/
def Obligations.DueSetTakesEffectAtItsBoundary : Prop :=
  ∀ s : State,
    (∃ t, exec .commitApply s = .next t ∧ t.cm.due = (s.cm.due.filter fun q => s.ck.mono < q.at_)
      ∧ t.cm.attic = s.cm.attic ∧ t.cm.owner = s.cm.owner ∧ t.cm.pendingZ = s.cm.pendingZ ∧ t.cm.wait = s.cm.wait
      ∧ t.pw.ms = s.pw.ms ∧ t.ck.t = s.ck.t ∧ t.ck.mono = s.ck.mono ∧ t.sf = s.sf ∧ t.ident = s.ident
      ∧ t.pending = s.pending
      ∧ ((∃ d ∈ s.cm.due, d.at_ ≤ s.ck.mono ∧ (d.cls = .b ∨ d.cls = .s)) → fastFree s = true → t.lg.closed = [])
      ∧ (∀ d : DueSet, (s.cm.due.filter fun q => q.at_ ≤ s.ck.mono) = [d] →
        (∀ m ∈ d.members, m.param ∉ cellParams true ∧ m.param ∉ cellParams false ∧ m.param ≠ 0xA003) →
        t.cm.params = ((d.members.filter fun m => m.param < 0x5000) ++ d.members.filter fun m => 0x5000 ≤ m.param).foldl
          (fun ps m => pStore ps m.param m.value) s.cm.params))
    ∧ ((s.cm.due.filter fun q => q.at_ ≤ s.ck.mono) = [] → Gives .commitApply s s)

/-- For a supply of 17.5 V to 32.0 V. From COLD, SUPPLY_APPLIED begins a cold start: the clock resumes unset from the
stored time and every tally counter is 0. From KEEP without supply, SUPPLY_RETURN begins a START where KEEP was not
entered through a commanded STOP, with the clock as it was; otherwise the module stays in KEEP and only the supply
and the current outputs change. In each START the trip outputs are off, the latch stands, the sessions are cleared
and the stored parameters stand. A supply below 17.5 V changes nothing. Above 32.0 V no behaviour is promised: the
model stops with a fault (the model's choice, log 5). (R4, R21, R23, R24, R67, R73, R77, R78) -/
def Obligations.SupplyBeginsTheStartSequence : Prop :=
  ∀ (mv : Nat) (s : State),
    (17500 ≤ mv → mv ≤ 32000 →
      (s.pw.ms = .cold → s.pw.coldSince = true →
        ∃ t, exec (.supplyApplied mv) s = .next t ∧ Started s t ∧ t.pw.startKind = .cold ∧ t.pw.coldSince = false
          ∧ t.pw.supply = true ∧ t.pw.vsup = mv ∧ t.ck.valid = false ∧ t.ck.t = s.ck.stored * msUnits
          ∧ ∀ r : Run, t.runs[r].tally = 0 ∧ t.runs[r].latched = 0)
      ∧ (s.pw.ms = .keep → s.pw.supply = false → s.pw.byCommand = false →
        ∃ t, exec (.supplyReturn mv) s = .next t ∧ Started s t ∧ t.pw.supply = true ∧ t.pw.vsup = mv
          ∧ t.ck.valid = s.ck.valid ∧ t.ck.t = s.ck.t)
      ∧ (s.pw.ms = .keep → s.pw.supply = false → s.pw.byCommand = true →
        ∃ t, exec (.supplyReturn mv) s = .next t
          ∧ t = { s with pw := { s.pw with supply := true, vsup := mv }, io := { s.io with co := t.io.co },
                         host := t.host, service := t.service }))
    ∧ (mv < 17500 → Gives (.supplyApplied mv) s s ∧ Gives (.supplyReturn mv) s s)
    ∧ (32000 < mv → exec (.supplyApplied mv) s = .fault .beyondLimits ∧ exec (.supplyReturn mv) s = .fault .beyondLimits)

/-- With supply. In RUN, SAFE, START, STOP and HELD, SUPPLY_LOSS leads to KEEP where a backup cell is fitted and to COLD
otherwise, with the trip outputs off, the latch and its causes as they were (with safety causes found in the same
millisecond, which the loss outranks, the latch is set on them too), the attic and a waiting safety set dropped, the
fast domain asleep, and a power-fail record of kind 5 at the present second. The clock keeps its time on the backup
cell and is not valid without it. In KEEP with a backup cell only the supply, the fast domain and the current
outputs change. The stored parameters, the committed sets, the repairs and the identity stand. (R23, R26, R49, R67,
R68, R69, R238, R318, R349) -/
def Obligations.SupplyLossSavesTheModule : Prop :=
  ∀ s : State, s.pw.supply = true →
    (s.pw.ms ∈ [ModState.run, .safe, .start, .stop, .held] →
      ∃ t, exec .supplyLoss s = .next t ∧ t.pw.ms = (if s.pw.cellFitted then .keep else .cold)
        ∧ t.pw.supply = false ∧ t.pw.vsup = 0 ∧ t.pw.byCommand = false ∧ t.pw.pass = .asleep
        ∧ t.sf.coil = false
        ∧ (s.sf.atLoss = [] → t.sf.latch = s.sf.latch ∧ t.sf.causes = s.sf.causes)
        ∧ (s.sf.atLoss ≠ [] → t.sf.latch = true ∧ t.sf.causes = codeSet (s.sf.causes ++ s.sf.atLoss))
        ∧ t.cm.attic = [] ∧ t.cm.wait = none ∧ t.ck.t = s.ck.t ∧ t.ck.valid = (s.ck.valid && s.pw.cellFitted)
        ∧ (∃ p, t.lg.powerFail = some p ∧ p.kind = 5 ∧ p.time = nowSec s)
        ∧ t.cm.params = s.cm.params ∧ t.cm.due = s.cm.due ∧ t.cm.pendingZ = s.cm.pendingZ
        ∧ t.ident = s.ident ∧ t.sp.table = s.sp.table ∧ t.sp.fuses = s.sp.fuses ∧ t.pending = s.pending)
    ∧ (s.pw.ms = .keep → s.pw.cellFitted = true →
      ∃ t, exec .supplyLoss s = .next t
        ∧ t = { s with pw := { s.pw with supply := false, vsup := 0, nrst := false, pass := .asleep },
                       io := { s.io with co := t.io.co }, host := t.host, service := t.service })

/-- BACKUP_CELL_FITTED in COLD without supply leads to KEEP: the clock resumes unset from the stored time, the tally
counters are 0, and KEEP began at that second. Elsewhere only the record of the cell changes. BACKUP_CELL_TEST draws
a charge above 0 from the cell and records its voltage; in COLD it does nothing; with supply, from 3.00 V up, it
clears the count of low tests and changes nothing else but the talk of the lines, and below it also writes the
ledger. In KEEP without supply a test at or above 3.00 V clears the count of low tests and keeps the low-cell flag;
a first test below 3.00 V counts; a second in a row leads to COLD with the clock not valid, the stored parameters
standing. (R21, R23, R69, R70, R73, R349) -/
def Obligations.BackupCellKeepsTheModule : Prop :=
  ∀ (mv : Nat) (s : State),
    (s.pw.ms = .cold → s.pw.supply = false →
      ∃ t, exec (.backupCellFitted mv) s = .next t ∧ t.pw.ms = .keep ∧ t.pw.cellFitted = true ∧ t.pw.cellMv = mv
        ∧ t.pw.cellUnder = 0 ∧ t.pw.byCommand = false ∧ t.ck.t = s.ck.stored * msUnits ∧ t.ck.valid = false
        ∧ t.pw.keepAt = nowSec t ∧ t.sf.coil = false ∧ t.sf.latch = s.sf.latch
        ∧ (∀ r : Run, t.runs[r].tally = 0) ∧ t.cm = s.cm ∧ t.ident = s.ident ∧ t.pending = s.pending)
    ∧ (¬(s.pw.ms = .cold ∧ s.pw.supply = false) →
      Gives (.backupCellFitted mv) s { s with pw := { s.pw with cellFitted := true, cellMv := mv, cellUnder := 0 } })
    ∧ (s.pw.ms = .cold → Gives (.backupCellTest mv) s s)
    ∧ (s.pw.ms ≠ .cold → ∃ n, 1 ≤ n ∧
      let u := { s with pw := { s.pw with cellMv := mv }, sp := { s.sp with charge := s.sp.charge + n } }
      (s.pw.supply = true → (3000 ≤ mv → Gives (.backupCellTest mv) s { u with pw := { u.pw with cellUnder := 0 } })
        ∧ (mv < 3000 → GivesBooked (.backupCellTest mv) s u))
      ∧ (s.pw.supply = false → s.pw.ms = .keep →
        (3000 ≤ mv → Gives (.backupCellTest mv) s
          { u with pw := { u.pw with cellUnder := 0, cellLow := s.pw.cellLow || decide (mv < 3300) } })
        ∧ (mv < 3000 → s.pw.cellUnder = 0 →
          Gives (.backupCellTest mv) s { u with pw := { u.pw with cellUnder := 1, cellLow := true } })
        ∧ (mv < 3000 → 1 ≤ s.pw.cellUnder →
          ∃ t, exec (.backupCellTest mv) s = .next t ∧ t.pw.ms = .cold ∧ t.ck.valid = false ∧ t.pw.supply = false
            ∧ t.sf.coil = false ∧ t.sf.latch = s.sf.latch ∧ t.cm.params = s.cm.params ∧ t.ident = s.ident
            ∧ t.pending = s.pending)))

/-- With supply, outside COLD, NRST not yet asserted. NRST_ASSERTED in a state with the fast domain begins a START (from
HELD it will end in HELD), with the trip outputs off, the latch standing and the stored parameters standing; in KEEP
the state, the clock, the safety function and the stored parameters stay and the sessions are cleared. Asserted
again, without supply or in COLD, it changes nothing. NRST_RELEASED after an assertion reads the form of the HOST
line, stores host.echo off on RS-485, and leaves the module state, the safety function, the identity and every other
stored parameter as they are. (R25, R26, R78, R350, R359) -/
def Obligations.ResetLineRestartsTheModule : Prop :=
  ∀ s : State,
    (s.pw.supply = true → s.pw.nrst = false → s.pw.ms ∈ [ModState.run, .safe, .start, .stop, .held] →
      ∃ t, exec .nrstAsserted s = .next t ∧ Started s t ∧ t.pw.nrst = true ∧ t.pw.nrstAt = s.ck.mono
        ∧ t.pw.supply = true ∧ t.pw.endHeld = (decide (s.pw.ms = .held) || (decide (s.pw.ms = .start) && s.pw.endHeld)))
    ∧ (s.pw.supply = true → s.pw.nrst = false → s.pw.ms = .keep →
      ∃ t, exec .nrstAsserted s = .next t ∧ t.pw.ms = .keep ∧ t.pw.nrst = true ∧ t.pw.nrstAt = s.ck.mono
        ∧ (∀ l : Line, (t.line l).role = .view ∧ (t.line l).watches = [] ∧ (t.line l).queue = [])
        ∧ t.ck = s.ck ∧ t.sf = s.sf ∧ t.io = s.io ∧ t.runs = s.runs ∧ t.cm.params = s.cm.params ∧ t.ident = s.ident
        ∧ t.pending = s.pending)
    ∧ ((s.pw.supply = false ∨ s.pw.nrst = true ∨ s.pw.ms = .cold) → Gives .nrstAsserted s s)
    ∧ (∀ f : HostForm, s.pw.nrst = true → s.pw.supply = true →
      ∃ t, exec (.nrstReleased f) s = .next t ∧ t.pw.nrst = false ∧ t.pw.form = f ∧ t.pw.ms = s.pw.ms
        ∧ (f = .rs485 → pget t 0x101 = 0) ∧ (∀ n, n ≠ 0x101 → pget t n = pget s n)
        ∧ t.ck = s.ck ∧ t.sf = s.sf ∧ t.io = s.io ∧ t.runs = s.runs ∧ t.ident = s.ident ∧ t.pending = s.pending)

/-- In START with supply and NRST released. START_SEQUENCE_COMPLETE ends in HELD with the trip outputs off where the
evaluator failed, and, for a quick start, where NRST began the START from HELD. Else a quick start, or a start of
another kind whose self-test reports no failure (with no row at its limit of corrected errors and no pending set),
ends in SAFE with the trip outputs off where the latch is set, and in RUN with the trip outputs energised where it
is clear. A start whose self-test reports a failed trip-output contact test ends in HELD. The pending class Z set is
empty, the form of the HOST line is the one read, the cellar region is that of its parameter, and identity, latch
and clock stand. (R22, R23, R25, R49, R78, R201, R327, R331, R350) -/
def Obligations.StartSequenceEndsInItsState : Prop :=
  ∀ (r : TestRun) (f : HostForm) (s : State), s.pw.ms = .start → s.pw.nrst = false → s.pw.supply = true →
    ∃ t, exec (.startSequenceComplete r f) s = .next t ∧ t.cm.pendingZ = [] ∧ t.pw.form = f
      ∧ t.qu.cellar = pnat t 0x7001 ∧ t.ident = s.ident ∧ t.sf.latch = s.sf.latch ∧ t.ck.t = s.ck.t
      ∧ t.pw.endHeld = false ∧ t.pw.supply = true ∧ t.pending = s.pending
      ∧ (r.evaluatorOk = false → t.pw.ms = .held ∧ t.sf.coil = false)
      ∧ (s.pw.startKind = .quick → s.pw.endHeld = true → t.pw.ms = .held ∧ t.sf.coil = false)
      ∧ (r.evaluatorOk = true → s.pw.endHeld = false →
        (s.pw.startKind = .quick ∨ (r.failures = [] ∧ s.cm.pendingZ = [] ∧ ∀ q ∈ s.sp.rowErrors, q.2 < pnat s 0xB001)) →
        (s.sf.latch = false → t.pw.ms = .run ∧ t.sf.coil = true)
        ∧ (s.sf.latch = true → t.pw.ms = .safe ∧ t.sf.coil = false))
      ∧ (s.pw.startKind ≠ .quick → (∃ x ∈ r.failures, x.item = 3 ∧ 9 ≤ x.subject ∧ x.subject ≤ 12) →
        t.pw.ms = .held ∧ t.sf.coil = false)

/-- In STOP with supply, STOP_SEQUENCE_COMPLETE leads to KEEP entered by command, with the trip outputs off and the
latch as it was, a stop record of kind 6 at the present second, the time of the stop, no opening of the seal loop
since, and whether the shutdown self-test found nothing. The partner session is idle, the journal queue holds no
packet, every channel is idle and the fast domain is asleep. The stored parameters, the identity and the supply
stand. In another state, or without supply, it changes nothing. (R23, R24, R68, R78, R80, R238, R269) -/
def Obligations.StopSequenceEndsInKeep : Prop :=
  ∀ (r : TestRun) (s : State),
    (s.pw.ms = .stop → s.pw.supply = true →
      ∃ t, exec (.stopSequenceComplete r) s = .next t ∧ t.pw.ms = .keep ∧ t.pw.byCommand = true
        ∧ t.pw.stopTime = nowMs s ∧ t.pw.openedSince = false ∧ t.pw.stopBroken = false
        ∧ t.pw.stopClean = decide (foundIn s (allItems s) r.failures = [])
        ∧ t.sf.coil = false ∧ t.sf.latch = s.sf.latch ∧ (∃ p, t.lg.stopRec = some p ∧ p.kind = 6 ∧ p.time = nowSec s)
        ∧ t.pair.st = .idle ∧ t.qu.regions = [] ∧ t.qu.waiters = [] ∧ (∀ g : Channel, t.ga.chans[g].st = .idle)
        ∧ t.pw.pass = .asleep ∧ t.pw.supply = true ∧ t.ck.t = s.ck.t ∧ t.ck.valid = s.ck.valid
        ∧ t.cm.params = s.cm.params ∧ t.ident = s.ident ∧ t.sp.table = s.sp.table ∧ t.sp.fuses = s.sp.fuses
        ∧ t.pending = s.pending)
    ∧ (¬(s.pw.ms = .stop ∧ s.pw.supply = true) → Gives (.stopSequenceComplete r) s s)

/-- On a served line, with no cause of higher rank in the same millisecond, taken already or waiting in the queue.
START, with no self-test running, in HELD under role SAFETY, or in KEEP entered by command under OPERATE, is
answered `ok start` and begins a START. STOP in RUN or SAFE under OPERATE is answered `ok stop` and leads to STOP
with the trip outputs off, the latch as it was, the attic and a waiting safety set dropped, and no vibration fit
under way; the stored parameters, the clock and the identity stand. In START and STOP each is answered `busy` with
its verb and changes nothing but the talk of the lines. (R23, R24, R26, R49, R80, R318, R329) -/
def Obligations.StartAndStopAreCommanded : Prop :=
  ∀ (rq : Req) (s : State), linesUp s = true →
    (outranked .startCommand s = false → rival .startCommand s = false → s.sp.test = none →
      ((s.pw.ms = .held ∧ (s.line rq.line).role = .safety)
        ∨ (s.pw.ms = .keep ∧ s.pw.byCommand = true ∧ 1 ≤ roleCode (s.line rq.line).role)) →
      ∃ t, exec (.start rq []) s = .next t ∧ Replied rq ["ok start"] s t ∧ Started s t ∧ t.pw.supply = true)
    ∧ (outranked .stopCommand s = false → rival .stopCommand s = false → measuring s = true → 1 ≤ roleCode (s.line rq.line).role →
      ∃ t, exec (.stop rq []) s = .next t ∧ Replied rq ["ok stop"] s t ∧ t.pw.ms = .stop
        ∧ t.sf.coil = false ∧ t.sf.latch = s.sf.latch ∧ t.cm.attic = [] ∧ t.cm.wait = none ∧ t.pw.stopClean = false
        ∧ (∀ r : Run, t.mx.fits[r] = none)
        ∧ t.cm.params = s.cm.params ∧ t.cm.pendingZ = s.cm.pendingZ ∧ t.ck.t = s.ck.t ∧ t.ident = s.ident
        ∧ t.ga = s.ga ∧ t.sp.table = s.sp.table ∧ t.pending = s.pending)
    ∧ ((s.pw.ms = .start ∨ s.pw.ms = .stop) →
      Answers rq (.start rq []) s ["busy start"] s ∧ Answers rq (.stop rq []) s ["busy stop"] s)

/-- SEAL_LOOP_CHANGE to the present state, or in COLD, changes nothing but the talk of the lines. Otherwise it takes the
new state and counts an opening; in KEEP it counts the opening of this KEEP and its first second; in RUN and SAFE it
writes the audit and raises event 40h on opening and 41h on closing, and in START, STOP and HELD it writes the
audit. DI_CHANGE, a level that has stood for its debounce time (20 ms for SAFE_KEY), with supply outside COLD sets
SAFE_KEY, or the level of DIx with its time where it changes; outside SAFE, and for an input that is not the trip
reset, the safety function stands, and so do the other inputs, the stored parameters, the clock and the runs. A
level that has stood for less changes nothing, and without supply or in COLD the inputs are not sampled. (R45, R58,
R69, R166, R299, R300, R315, R358, R360) -/
def Obligations.SealLoopAndInputsAreWatched : Prop :=
  ∀ s : State,
    (∀ o : Bool, (s.pw.ms = .cold ∨ s.pw.sealOpen = o) → Gives (.sealLoopChange o) s s)
    ∧ (∀ o : Bool, s.pw.ms ≠ .cold → s.pw.sealOpen ≠ o →
      let n := if o then s.pw.lcCount + 1 else s.pw.lcCount
      let u := { s with pw := { s.pw with sealOpen := o, lcCount := n, openedSince := s.pw.openedSince || o } }
      (s.pw.ms = .keep → Gives (.sealLoopChange o) s (if o then
        { u with pw := { u.pw with lcKeep := s.pw.lcKeep + 1, lcFirst := some (s.pw.lcFirst.getD (nowSec s)) } } else u))
      ∧ (s.pw.ms ∈ [ModState.start, .stop, .held] → GivesBooked (.sealLoopChange o) s u)
      ∧ (measuring s = true → GivesBooked (.sealLoopChange o) s { u with
          pw := { u.pw with pass := if s.pw.pass = .asleep then .event else s.pw.pass }
          ev := { s.ev with raised := s.ev.raised ++ [⟨if o then 0x40 else 0x41, 0, n.toNat, 0, 6, 0⟩] } }))
    ∧ (∀ (p : DigitalPin) (h : Bool) (n : Nat), (s.pw.supply = false ∨ s.pw.ms = .cold ∨ n < debounceOf s p) →
      Gives (.diChange p ⟨h, n⟩) s s)
    ∧ (s.pw.supply = true → s.pw.ms ≠ .cold →
      (∀ (h : Bool) (n : Nat), 20 ≤ n → Gives (.diChange .safeKey ⟨h, n⟩) s { s with pw := { s.pw with safeKey := h } })
      ∧ (∀ (x : Fin 4) (h : Bool) (n : Nat), s.io.di[x].high = h → Gives (.diChange (.di x) ⟨h, n⟩) s s)
      ∧ (∀ (x : Fin 4) (h : Bool) (n : Nat), pnat s (0x9302 + 0x10 * x.val) ≤ n → s.io.di[x].high ≠ h →
        (s.pw.ms ≠ .safe ∨ pget s 0xA003 ≠ x.val + 1) →
        ∃ t, exec (.diChange (.di x) ⟨h, n⟩) s = .next t ∧ t.io.di[x] = ⟨h, s.ck.mono⟩
          ∧ (∀ y : Fin 4, y ≠ x → t.io.di[y] = s.io.di[y]) ∧ t.io.po = s.io.po
          ∧ Booked { s with io := t.io } t))

/-- On a served line that holds METROLOGY or above, the module not the downstream end of an open session; D is the
wanted time less the present one. With the clock valid: within one second TIME SET starts a slew of D; beyond it,
forward, the whole seconds nearest D become a step due at the next second, with the remainder to slew after it;
backward with an interval record in the ledger it slews by one second and answers that time; backward without one it
puts the clock at the time at once. With the clock unset it puts the clock at the time and makes it valid. Each
replaces an older slew and step; where the clock is put at a time, the committed sets that wait for a whole second
wait for that of the new time. Beyond the ledger, the runs and the talk that a step brings, nothing else changes.
(R72, R74, R75, R76, R77) -/
def Obligations.TimeSetSlewsOrSteps : Prop :=
  ∀ (rq : Req) (s : State) (x : String) (ms : Int), linesUp s = true →
    ¬(s.pair.st = .opened ∧ s.pair.up = some false) → 2 ≤ roleCode (s.line rq.line).role → timeField x = .ok ms →
    let w := clampTime ms
    let d : Int := (w * msUnits : Nat) - s.ck.t
    let whole := (roundDiv d secUnits).toNat
    (s.ck.valid = true →
      (d.natAbs ≤ secUnits → AnswersBooked rq (.timeSet rq [x]) s [spaced ["ok time", msText w, "slew"]]
        { s with ck := { s.ck with slew := d, due := none } })
      ∧ ((secUnits : Int) < d → Answers rq (.timeSet rq [x]) s [spaced ["ok time", msText w, "step"]]
        { s with ck := { s.ck with
          due := some (nowSec s + 1, whole, d - (whole * secUnits : Nat))
          dueBy := (lineCode rq.line, roleCode (s.line rq.line).role) } })
      ∧ (d < -(secUnits : Int) → recordCount s 0 ≠ 0 →
        AnswersBooked rq (.timeSet rq [x]) s [spaced ["ok time", msText (nowMs s - 1000), "slew"]]
          { s with ck := { s.ck with slew := -(secUnits : Int), due := none } })
      ∧ (d < -(secUnits : Int) → recordCount s 0 = 0 →
        AnswersWorked rq (.timeSet rq [x]) s [spaced ["ok time", msText w, "step"]]
          { s with
            ck := { s.ck with t := w * msUnits, slew := 0, due := none }
            cm := { s.cm with due := moveDue (w * msUnits) s } }))
    ∧ (s.ck.valid = false → AnswersWorked rq (.timeSet rq [x]) s [spaced ["ok time", msText w, "step"]]
      { s with
        ck := { s.ck with t := w * msUnits, slew := 0, due := none, valid := true, fromCold := [] }
        cm := { s.cm with due := moveDue (w * msUnits) s } })

/-- Outside COLD, CLOCK_TRIM takes the die temperature, in 0.1 °C, and computes the correction in ppb: 0.034 ppm/°C²
times the square of its distance from 25 °C, and the factory offset of the crystal (a configured constant); in COLD
it does nothing. CLOCK_STEP without a step due, before its second, or while NRST holds the ledger writer (the
model's choice, log 82) changes nothing but the talk of the lines; at its second it adds the whole seconds of the
step to the clock, leaves the remainder to slew, moves the sets that wait for a whole second to that of the new
time, and, the boundary's measuring and records apart, changes nothing else. SLEW_COMPLETE works off a remainder
within one millisecond's part (500 units of 0.1 ns) and leaves a larger one alone. (R72, R74, R75, R76) -/
def Obligations.ClockIsTrimmedSteppedAndSlewed : Prop :=
  ∀ s : State,
    (∀ d : Int, s.pw.ms ≠ .cold → exec (.clockTrim d) s = .next { s with ck := { s.ck with
      temp := some d
      correction := roundDiv (34 * (d - 250) * (d - 250)) 100 + Config.crystalOffset } })
    ∧ (∀ d : Int, s.pw.ms = .cold → exec (.clockTrim d) s = .next s)
    ∧ (s.ck.due = none → Gives .clockStep s s)
    ∧ (∀ (sec n : Nat) (rem : Int), s.ck.due = some (sec, n, rem) →
      (nowSec s < sec ∨ s.pw.nrst = true → Gives .clockStep s s)
      ∧ (sec ≤ nowSec s → s.pw.nrst = false → GivesWorked .clockStep s
        { s with
          ck := { s.ck with t := s.ck.t + n * secUnits, slew := rem, due := none }
          cm := { s.cm with due := moveDue (s.ck.t + n * secUnits) s } }))
    ∧ (s.ck.slew.natAbs ≤ 500 →
      exec .slewComplete s = .next { s with ck := { s.ck with t := (s.ck.t + s.ck.slew).toNat, slew := 0 } })
    ∧ (500 < s.ck.slew.natAbs → exec .slewComplete s = .next s)

/-- A comparator is ready where it was, or where the signal since the row before fell to the threshold less its
hysteresis. Outside COLD, TALLY_CROSSING of a ready comparator above the threshold of its run, at least 50 µs after
the last counted one or the first, adds one to the run's counter, modulo 2^32, keeps its time, and the comparator is
no longer ready; any other crossing changes only whether it is ready, which a rise above the threshold ends. In COLD
it changes nothing. BLOCK_BOUNDARY outside COLD, in a later second than the last latch or as the first, latches all
four counters as they are. With the fast domain on and an earlier latch the block from that latch, with the counts
since it modulo 2^32, joins the blocks that wait for pricing; while fewer than 64 wait, or while NRST holds the fast
domain, only the runs, the marks of the block, the effective cadence, the waiting blocks and the current outputs
change; a ring of 64 is priced at once (log 78). In the second of the last latch, or in COLD, it changes nothing but
the talk of the lines. (R58, R59, R61, R65, R71, R77, R143, R289) -/
def Obligations.TallyIsCountedAndLatched : Prop :=
  ∀ s : State,
    (∀ (r : Run) (low mv us : Nat), s.pw.ms ≠ .cold →
      let ready := s.runs[r].tallyArmed = true ∨ 100 * low ≤ s.runs[r].threshold * (100 - pnat s (rp r 0x42))
      let free := s.runs[r].crossed = none ∨ ∃ c, s.runs[r].crossed = some c ∧ c + 50 ≤ us
      (ready → s.runs[r].threshold < mv → free → exec (.tallyCrossing r ⟨low, mv⟩ us) s =
        .next (s.modRun r fun q => { q with tally := q.tally + 1, crossed := some us, tallyArmed := false }))
      ∧ (¬(ready ∧ s.runs[r].threshold < mv ∧ free) →
        ∃ b : Bool, (b = true ↔ ready ∧ mv ≤ s.runs[r].threshold)
          ∧ exec (.tallyCrossing r ⟨low, mv⟩ us) s = .next (s.modRun r fun q => { q with tallyArmed := b })))
    ∧ (∀ (r : Run) (low mv us : Nat), s.pw.ms = .cold → exec (.tallyCrossing r ⟨low, mv⟩ us) s = .next s)
    ∧ (s.pw.ms ≠ .cold → (∀ x, s.lg.latchAt = some x → x < nowSec s) →
      let waiting := s.lg.closed.length + if fastOn s = true ∧ s.lg.latchAt ≠ none then 1 else 0
      ∃ t, exec .blockBoundary s = .next t
        ∧ (∀ r : Run, t.runs[r].latched = s.runs[r].tally ∧ t.runs[r].tally = s.runs[r].tally)
        ∧ (waiting < 64 ∨ fastFree s = false →
          (fastOn s = true → ∀ x, s.lg.latchAt = some x → ∃ b : ClosedBlock,
            t.lg.closed = s.lg.closed ++ [b] ∧ b.start = x
            ∧ b.whole = (s.pw.blockWhole && measuring s) ∧ b.unset = (!s.ck.valid || s.ck.partUnset)
            ∧ ∀ r : Run, b.runs[r].n = (s.runs[r].tally - s.runs[r].latched).toNat)
          ∧ ((fastOn s = false ∨ s.lg.latchAt = none) → t.lg.closed = s.lg.closed)
          ∧ t = { s with
            runs := t.runs, pw := { s.pw with blockWhole := measuring s, cad := cadence s }
            ck := { s.ck with partUnset := !s.ck.valid }
            lg := { s.lg with latchAt := some (nowSec s), closed := t.lg.closed }
            io := { s.io with co := t.io.co }, host := t.host, service := t.service })
        ∧ (64 ≤ waiting → fastFree s = true → t.lg.closed = [] ∧ t.lg.latchAt = some (nowSec s) ∧ Worked s t))
    ∧ ((s.pw.ms = .cold ∨ ∃ x, s.lg.latchAt = some x ∧ nowSec s ≤ x) → s.lg.closed.length < 64 → Gives .blockBoundary s s)

/-- INTERVAL_BOUNDARY, at or after a boundary that the open interval has not reached and with NRST high, stores the
present time, the pricing sets, the running totals and the settlement totals in ferroelectric memory; with the clock
valid the open interval starts at or after that boundary. In KEEP, past a boundary since the last keep record, it
writes one in the next place of the keep area and stores the time. In COLD it changes nothing but the talk of the
lines, and so it does before the boundary and while NRST holds the fast domain. KEEP_BACKLOG_WRITE in RUN with a
valid clock takes the oldest span, one that is within the retention, off the backlog; in any other state it changes
nothing but the talk of the lines. Measuring, settling and the records apart, nothing else changes. (R20, R25, R69,
R71, R73, R77, R155, R160, R162, R237) -/
def Obligations.IntervalBoundaryRecords : Prop :=
  ∀ s : State,
    let b := nowSec s / intSeconds s * intSeconds s
    (fastFree s = true → s.lg.intStart < b → ∃ t, exec .intervalBoundary s = .next t ∧ t.ck.stored = nowMs s
      ∧ (∀ r : Run, t.runs[r].qty.kept = t.runs[r].qty.pricing
        ∧ t.runs[r].qty.keptTotals = (t.runs[r].qty.totalV, t.runs[r].qty.totalM, t.runs[r].qty.totalE)
        ∧ t.se.runs[r].kept
          = (t.se.runs[r].totalM, t.se.runs[r].totalE, t.se.runs[r].lossM, t.se.runs[r].lossE))
      ∧ (s.ck.valid = true → b ≤ t.lg.intStart) ∧ Worked s t)
    ∧ (s.pw.ms = .keep → (s.lg.keeps.getLast?.map (·.time)).getD s.pw.keepAt < b →
      ∃ t, exec .intervalBoundary s = .next t ∧ t.ck.stored = nowMs s
        ∧ t.lg.keepNext = (s.lg.keepNext + 1) % 32768 ∧ Worked { s with pw := { s.pw with cellLow := false } } t)
    ∧ ((s.pw.ms = .cold ∨ (fastOn s = true ∧ (b ≤ s.lg.intStart ∨ s.pw.nrst = true))) → Gives .intervalBoundary s s)
    ∧ (∀ (sp : KeepSpan) (rest : List KeepSpan), s.pw.ms = .run → s.ck.valid = true → s.lg.backlog = sp :: rest →
      oldCut s ≤ sp.fromSec + sp.gone → ∃ t, exec .keepBacklogWrite s = .next t ∧ t.lg.backlog = rest ∧ Worked s t)
    ∧ ((s.pw.ms ≠ .run ∨ s.ck.valid = false ∨ s.lg.backlog = []) → Gives .keepBacklogWrite s s)

/-- With the fast domain on and NRST high, a valid clock and a day that ended, DAILY_CLOSE ends in a next state in
which, beyond measuring, settling and the records, only the ageing evaluation has changed, its day's means started
again. Where nothing waits to be priced or written and the open interval starts at or after midnight, it writes one
close record for each day from the one due to the last midnight, and the next day due starts at that midnight. With
no day due it changes nothing but the talk of the lines. THERMAL_ACCUMULATE outside COLD adds the equivalent hours
of one minute; at 40.0 °C they are one minute, 16 666 667 × 10^-9 h; in COLD it does nothing. (R25, R231, R232,
R263, R336, R337) -/
def Obligations.DaysThatEndedAreClosed : Prop :=
  ∀ s : State,
    (∀ d : Nat, fastFree s = true → s.ck.valid = true → s.lg.day = some d → d % 86400 = 0 → d + 86400 ≤ nowSec s →
      ∃ t, exec .dailyClose s = .next t
        ∧ (s.lg.backlog = [] → s.lg.closed = [] → nowSec s / 86400 * 86400 ≤ s.lg.intStart →
          t.lg.day = some (nowSec s / 86400 * 86400)
          ∧ t.lg.chains[1].written = s.lg.chains[1].written + (nowSec s / 86400 * 86400 - d) / 86400)
        ∧ Worked { s with sp := { s.sp with trends := t.sp.trends, counts := t.sp.counts, ages := t.sp.ages,
                                            warned := t.sp.warned, refDay := (0, 0) } } t)
    ∧ ((fastFree s = false ∨ s.ck.valid = false ∨ s.lg.day = none) → Gives .dailyClose s s)
    ∧ (∀ d : Int, s.pw.ms ≠ .cold →
      exec (.thermalAccumulate d) s = .next { s with sp := { s.sp with thermal := s.sp.thermal + thermalMinute d } })
    ∧ (∀ d : Int, s.pw.ms = .cold → exec (.thermalAccumulate d) s = .next s)
    ∧ thermalMinute 400 = 16666667

/-- In RUN and SAFE at a wake instant BURST_WAKE wakes the fast domain, and where no burst runs sets the end of the one
that begins and the inputs that owe a tap result. With one frame, banks that wait are exchanged, each sink is the
rounded and saturated sum of gain times source over the active bank, each saturated sink is counted, each tone
generator advances by its step and the count accumulator by a frame's 1024 clocks; the parameters, the machines, the
clock and the trip outputs stand. At another time it changes nothing but the talk of the lines. BURST_END, in a
burst at its end, gives each run its estimate: a run not restarting without an output free of anneal reads anneal,
one without a locked window nolock, both keeping the frequency; one with a window of at least four cycles tracked
within its limits takes ok and the frequency of the window. The fast domain stays awake in continuous cadence, else
ends a line pass under way or sleeps, with the matrix at rest and the stream packets closed. Beyond the runs, the
current outputs, the rotation vector and the queue nothing else changes; out of a burst or before its end nothing
does but the talk of the lines. (R57, R62, R63, R64, R102, R105, R106, R108, R134, R137, R138, R143) -/
def Obligations.BurstRunsItsFramesAndEnds : Prop :=
  ∀ s : State,
    (∀ b : Burst, (measuring s = false ∨ wakeInstant s = false) → Gives (.burstWake b) s s)
    ∧ (∀ b : Burst, measuring s = true → wakeInstant s = true →
      ∃ t, exec (.burstWake b) s = .next t ∧ t.pw.pass = .burst
        ∧ t.pw.burstTo = (if burstRuns s then s.pw.burstTo else burstEndAt s)
        ∧ (∀ f : Frame, b.frames = [f] →
          let m := ({ s.mx with axisAge := if burstRuns s then s.mx.axisAge else 0 } : Matrix).boundary.takeAxes f
          let u := allRuns.foldl (fastInputs (servingCells s) f) { s with mx := m }
          (∀ k : Fin 18, let v := sinkValue m.active (sources u (servingCells s) f) k.val
            t.mx.sinks[k] = v.1 ∧ t.mx.sat[k] = if v.2 then s.mx.sat[k] + 1 else s.mx.sat[k])
          ∧ (∀ j : Fin 4, t.mx.phase[j] = s.mx.phase[j] + toneStep s j) ∧ t.en.count = s.en.count + 1024)
        ∧ Worked { s with
            mx := { t.mx with beep := s.mx.beep }
            en := t.en
            ev := { t.ev with raised := s.ev.raised, posts := s.ev.posts, machines := s.ev.machines, levels := s.ev.levels }
            ga := { s.ga with raw := t.ga.raw }
            sf := { s.sf with
              taps := t.sf.taps, tapDue := t.sf.tapDue, wakeAt := if burstRuns s then s.sf.wakeAt else s.ck.mono }
            pw := { s.pw with burstTo := t.pw.burstTo } } t)
    ∧ ((s.pw.pass ≠ .burst ∨ s.ck.mono < s.pw.burstTo) → Gives (.burstEnd .found) s s)
    ∧ (s.pw.pass = .burst → s.pw.burstTo ≤ s.ck.mono →
      let stays := s.pw.cad.1 = true ∧ measuring s = true
      ∃ t, exec (.burstEnd .found) s = .next t
        ∧ (∀ r : Run, s.runs[r].fe.restarting = false →
          let e := s.runs[r].eng
          (e.track.clean = false → t.runs[r].eng.status = .anneal ∧ t.runs[r].eng.freq = e.freq)
          ∧ (e.track.clean = true → e.track.span = none →
            t.runs[r].eng.status = .nolock ∧ t.runs[r].eng.freq = e.freq)
          ∧ (∀ w : Span, e.track.clean = true → e.track.span = some w → 500 ≤ e.tracked → e.tracked ≤ freqLimit s r →
            4 * 2 ^ 24 ≤ (windowOf w).1 → 0 < (windowOf w).2 →
            t.runs[r].eng.status = .ok
            ∧ t.runs[r].eng.freq = some (roundDiv ((windowOf w).1 * 49152000000 : Nat) (2 ^ 24 * (windowOf w).2)).toNat))
        ∧ (∀ r : Run, t.runs[r].tally = s.runs[r].tally ∧ t.runs[r].fe = s.runs[r].fe)
        ∧ (stays → t.pw.pass = .burst ∧ t.mx = s.mx)
        ∧ (¬stays → t.pw.pass = (if linesQuiet s then .asleep else .line) ∧ t.mx = s.mx.rest
          ∧ ∀ k : Fin 17, t.en.bufs[k].words = [])
        ∧ Talked { s with
            runs := t.runs, qu := t.qu, mx := t.mx
            io := { s.io with co := t.io.co }
            en := { s.en with bufs := t.en.bufs }
            ev := { s.ev with rotVec := t.ev.rotVec, rot := t.ev.rot }
            pw := { s.pw with pass := t.pw.pass, burstTo := burstEndAt s } } t)

/-- DO_FE_LEADCAL on a served line in RUN, SAFE or HELD under METROLOGY with the seal loop open marks the run's
calibration as begun for that line. FE_LEADCAL_DONE ends a calibration that has its 64 conversions: their mean, 0 to
50.000 ohm, is scheduled as fe.lead of the run at the next whole second, class B; with fewer, or none running, it
changes nothing but the talk of the lines. FE_RESTART_DONE ends a restart of its run after 20 ms of awake time: both
fast paths anneal for their settling counts, the pilot's window and the block are disturbed, and the class S sets
whose restarts are all complete are noted; the other runs stand, and before that, or with no restart running, it
changes nothing but the talk of the lines. (R47, R86, R89, R91, R92, R131, R141, R146) -/
def Obligations.FrontEndIsCalibratedAndRestarted : Prop :=
  ∀ (r : Run) (s : State),
    (∀ (rq : Req) (rt : String), linesUp s = true → s.serving = true → sealOk s rq.line .m = true →
      runField rt = .ok r →
      Answers rq (.doFeLeadcal rq [rt]) s ["ok do fe.leadcal " ++ runText r ++ " started"] (s.modRun r fun t => t.modFe
        fun f => { f with
          leadcal := some ⟨rp r 0x217, 0, lineCode rq.line, (s.line rq.line).role⟩, leadcalSum := (0, 0) }))
    ∧ (∀ m : Member, s.runs[r].fe.leadcal = some m → m.param = rp r 0x217 →
      (s.runs[r].fe.leadcalSum.2 = 64 → Gives (.feLeadcalDone r .found) s
        { (s.modRun r fun t => t.modFe fun f => { f with leadcal := none }) with cm := { s.cm with due := s.cm.due ++
          [⟨.b, s.ck.mono + (1000 - nowMs s % 1000),
            [{ m with value := clampInt 0 50000 (roundDiv s.runs[r].fe.leadcalSum.1 64) }], lineOf m⟩] } })
      ∧ (s.runs[r].fe.leadcalSum.2 ≠ 64 → Gives (.feLeadcalDone r .found) s s))
    ∧ (s.runs[r].fe.leadcal = none → Gives (.feLeadcalDone r .found) s s)
    ∧ ((s.runs[r].fe.restarting = false ∨ s.ck.awake < s.runs[r].fe.restartAt + 20) → Gives (.feRestartDone r) s s)
    ∧ (s.runs[r].fe.restarting = true → s.runs[r].fe.restartAt + 20 ≤ s.ck.awake →
      ∃ t, exec (.feRestartDone r) s = .next t ∧ t.runs[r].fe = { s.runs[r].fe with restarting := false }
        ∧ t.runs[r].eng.liftAnneal = pathSettle s r false ∧ t.runs[r].eng.vibAnneal = pathSettle s r true
        ∧ t.runs[r].eng.pilot.disturbed = true ∧ t.runs[r].qty.cur.disturbed = true
        ∧ (∀ q : Run, q ≠ r → t.runs[q] = s.runs[q])
        ∧ Talked { s with runs := t.runs, cm := { s.cm with restarting := t.cm.restarting } } t
        ∧ ((∀ q : Run, q ≠ r → s.runs[q].fe.restarting = false) → t.cm.restarting = [])
        ∧ ((∃ q : Run, q ≠ r ∧ s.runs[q].fe.restarting = true) → t.cm.restarting = s.cm.restarting))

/-- On a served line in RUN, SAFE or HELD under METROLOGY with the seal loop open, for fields in their forms and a draft
that stays within 32 breakpoints. Each command edits the draft of its table (temperature or pressure; K correction;
density, enthalpy or Z), sorted by x, with x and y clamped to their ranges, and answers the number of breakpoints of
the draft. The live tables and everything else stand, the talk of the lines apart. (R97, R150, R154) -/
def Obligations.TablesAreEditedInDraft : Prop :=
  ∀ (rq : Req) (s : State) (r : Run) (rt kt xt yt : String) (k : Nat) (x : Int) (y : Option Int) (d : Table),
    linesUp s = true → s.serving = true → sealOk s rq.line .m = true → runField rt = .ok r → (parseDec xt).isSome = true →
    (numberLike yt = false ∨ (parseDec yt).isSome = true) →
    (wordField rq.tag.isSome ["temp", "press"] kt = .ok 0 →
      pointFields rq.tag.isSome 3 3 0 5000000 (-200000) 850000 xt yt = .ok (x, y) →
      editDraft x y s.runs[r].tabTemp = some d →
      d.live = s.runs[r].tabTemp.live ∧
      Answers rq (.doFePoint rq [rt, kt, xt, yt]) s [spaced ["ok do fe.point", runText r, "temp", natText d.draft.length]]
        (s.modRun r fun q => { q with tabTemp := d }))
    ∧ (wordField rq.tag.isSome ["temp", "press"] kt = .ok 1 →
      pointFields rq.tag.isSome 4 2 (-672000) 672000 0 10000000 xt yt = .ok (x, y) →
      editDraft x y s.runs[r].tabPress = some d →
      d.live = s.runs[r].tabPress.live ∧
      Answers rq (.doFePoint rq [rt, kt, xt, yt]) s [spaced ["ok do fe.point", runText r, "press", natText d.draft.length]]
        (s.modRun r fun q => { q with tabPress := d }))
    ∧ (pointFields rq.tag.isSome 3 3 500 8000000 (-10000) 10000 xt yt = .ok (x, y) →
      editDraft x y s.runs[r].tabK = some d →
      d.live = s.runs[r].tabK.live ∧
      Answers rq (.doKPoint rq [rt, xt, yt]) s [spaced ["ok do k.point", runText r, natText d.draft.length]]
        (s.modRun r fun q => { q with tabK := d }))
    ∧ (wordField rq.tag.isSome ["dens", "enth", "z"] kt = .ok k →
      (k = 0 → pointFields rq.tag.isSome 3 4 (-200000) 850000 1 300000000 xt yt = .ok (x, y) →
        editDraft x y s.runs[r].tabDens = some d →
        Answers rq (.doQPoint rq [rt, kt, xt, yt]) s [spaced ["ok do q.point", runText r, "dens", natText d.draft.length]]
          (s.modRun r fun q => { q with tabDens := d }))
      ∧ (k = 1 → pointFields rq.tag.isSome 3 6 (-200000) 850000 (-1000000) 10000000 xt yt = .ok (x, y) →
        editDraft x y s.runs[r].tabEnth = some d →
        Answers rq (.doQPoint rq [rt, kt, xt, yt]) s [spaced ["ok do q.point", runText r, "enth", natText d.draft.length]]
          (s.modRun r fun q => { q with tabEnth := d }))
      ∧ (k = 2 → pointFields rq.tag.isSome 2 4 0 10000000 500 30000 xt yt = .ok (x, y) →
        editDraft x y s.runs[r].tabZ = some d →
        Answers rq (.doQPoint rq [rt, kt, xt, yt]) s [spaced ["ok do q.point", runText r, "z", natText d.draft.length]]
          (s.modRun r fun q => { q with tabZ := d })))

/-- PILOT_RESULT takes the oldest window of its run that has ended, in RUN and SAFE. One that holds a disturbance is
reported and not judged: the status stays, idle turning to anneal. A judged result out of band on an element, the
second in a row, gives status loss and marks the element's input as open; the first loss raises the event of the
run. DO_PILOT_REF under METROLOGY with the seal loop open begins an average for its line. PILOT_REF_DONE with 250
results stores their rounded means as the references with an audit entry, ends the average, and leaves all else;
with fewer, or none running, it changes nothing but the talk of the lines. Outside RUN and SAFE, or with no window,
PILOT_RESULT changes nothing but the talk of the lines. (R139, R140, R141, R166, R237) -/
def Obligations.PilotIsJudgedAndReferenced : Prop :=
  ∀ (r : Run) (s : State),
    let p := s.runs[r].eng.pilot
    ((measuring s = false ∨ p.results = []) → Gives (.pilotResult r .found .found) s s)
    ∧ (∀ (l v : PilotValue) (cut : Bool) (rest : List (PilotValue × PilotValue × Bool)), measuring s = true →
      p.results = (l, v, cut) :: rest →
      (cut = true → Gives (.pilotResult r .found .found) s (s.modRun r fun t => t.modPilot fun q => { q with
        lift := some l, vib := some v, results := rest, status := if q.status = .idle then .anneal else q.status }))
      ∧ (cut = false → ∃ t, exec (.pilotResult r .found .found) s = .next t
        ∧ t.runs[r].eng.pilot.lift = some l ∧ t.runs[r].eng.pilot.vib = some v ∧ t.runs[r].eng.pilot.results = rest
        ∧ t.runs[r].eng.pilot.badLift = (if inBand s l p.refLift then 0 else p.badLift + 1)
        ∧ t.runs[r].eng.pilot.badVib = (if inBand s v p.refVib then 0 else p.badVib + 1)
        ∧ (inBand s l p.refLift = false → 1 ≤ p.badLift →
            t.runs[r].eng.pilot.status = .loss ∧ t.runs[r].fe.lift = .opened
            ∧ (p.status ≠ .loss → t.ev.raised = s.ev.raised ++ [⟨0x44 + r.val, r.val + 1, 0, 0, 7, 0⟩]))
        ∧ (inBand s l p.refLift = true → inBand s v p.refVib = true → p.status ≠ .loss →
            p.refLift.isSome = true → p.refVib.isSome = true →
            t.runs[r].eng.pilot.status = .ok ∧ t.ev.raised = s.ev.raised)
        ∧ (∀ q : Run, q ≠ r → t.runs[q] = s.runs[q])
        ∧ Talked { s with runs := t.runs, ev := { s.ev with raised := t.ev.raised },
                          mx := { s.mx with fits := t.mx.fits } } t))
    ∧ (∀ (rq : Req) (rt : String), linesUp s = true → s.serving = true → sealOk s rq.line .m = true → runField rt = .ok r →
      Answers rq (.doPilotRef rq [rt]) s ["ok do pilot.ref " ++ runText r ++ " started"]
        (s.modRun r fun t => t.modPilot fun q => { q with
          avg := some ⟨0, 0, 0, 0, 0, lineCode rq.line, (s.line rq.line).role, none⟩ }))
    ∧ (∀ a : PilotAvg, p.avg = some a → 250 ≤ a.n → GivesBooked (.pilotRefDone r) s
      (s.modRun r fun t => t.modPilot fun q => { q with
        refLift := some ⟨(roundDiv a.liftGain 250).toNat, roundDiv a.liftPhase 250⟩
        refVib := some ⟨(roundDiv a.vibGain 250).toNat, roundDiv a.vibPhase 250⟩, avg := none }))
    ∧ ((p.avg = none ∨ ∃ a, p.avg = some a ∧ a.n < 250) → Gives (.pilotRefDone r) s s)

/-- On a served line in RUN, SAFE or HELD under OPERATE. DO_MATRIX_VIBFIT begins a fit of its run over 1 to 300 seconds,
and VIBFIT_DONE with its outcome ends it, once those seconds have passed awake, and only notes the result; a failure
outside RUN and SAFE ends it too; before that, and with none running, it changes nothing but the talk of the lines.
DO_BEEP plays its pattern in place of one of the same or lower priority and is dropped behind a higher one;
DO_BEEP_STOP stops the pattern. BEEP_PATTERN_END ends a pattern of 20 ms (tick), 180 ms (ack) or 60 s (find) that
has run out, and leaves the others. The stored parameters, gains and everything else stand, the talk of the lines
apart. (R113, R115, R116) -/
def Obligations.FitsAndPatternsRunAndEnd : Prop :=
  ∀ s : State,
    (∀ (rq : Req), linesUp s = true → s.serving = true → 1 ≤ roleCode (s.line rq.line).role →
      (∀ (rt st : String) (r : Run) (n : Nat), runField rt = .ok r → countField 1 300 st = .ok n →
        Answers rq (.doMatrixVibfit rq [rt, st]) s ["ok do matrix.vibfit " ++ runText r ++ " started"]
          { s with mx := { s.mx with fits := s.mx.fits.set r.val (some (n, s.ck.awake)) r.isLt } })
      ∧ (∀ (name : String) (c : Nat), wordField rq.tag.isSome beepNames name = .ok c →
        ((∀ b, s.mx.beep = some b → b.1 ≤ c) →
          Answers rq (.doBeep rq [name]) s ["ok do beep " ++ beepNames.getD c ""]
            { s with mx := { s.mx with beep := some (c, true, s.ck.mono) } })
        ∧ ((∃ b, s.mx.beep = some b ∧ c < b.1) → Answers rq (.doBeep rq [name]) s ["ok do beep dropped"] s))
      ∧ Answers rq (.doBeepStop rq []) s ["ok do beep stop"] { s with mx := { s.mx with beep := none } })
    ∧ (∀ (r : Run) (lv vv ll : Int) (n c : Nat), s.mx.fits[r] = some (n, c) →
      (c + 1000 * n ≤ s.ck.awake → Gives (.vibfitDone r (.done lv vv ll)) s
        { s with mx := { s.mx with fits := s.mx.fits.set r.val none r.isLt } })
      ∧ (s.ck.awake < c + 1000 * n → Gives (.vibfitDone r (.done lv vv ll)) s s)
      ∧ (measuring s = false → Gives (.vibfitDone r .fail) s
        { s with mx := { s.mx with fits := s.mx.fits.set r.val none r.isLt } }))
    ∧ (∀ (r : Run) (o : VibfitOutcome), s.mx.fits[r] = none → Gives (.vibfitDone r o) s s)
    ∧ (∀ (c t n : Nat) (f : Bool), s.mx.beep = some (c, f, t) → (c, n) ∈ [(0, 20), (1, 180), (5, 60000)] →
      t + n ≤ s.ck.mono → exec .beepPatternEnd s = .next { s with mx := { s.mx with beep := none } })
    ∧ (∀ (c t : Nat) (f : Bool), s.mx.beep = some (c, f, t) → c ∈ [2, 3, 4] → exec .beepPatternEnd s = .next s)

/-- While the fast domain ticks, EVENT_TICK leaves no event raised. With no adoption or reset waiting and every LEVEL
instance off, a machine takes the next state of the first slot of its state whose condition holds on the events
raised and posted since the last tick, and stays where none holds; its live program stands. Only the event engine,
the pulse outputs, the channels, the pattern, the wakefulness of the fast domain, the ledger and the talk of the
lines may change. While the fast domain does not tick nothing changes but the talk of the lines. SM_TIMER_EXPIRY of
a timer that has run out stops it and marks it expired, and in RUN and SAFE wakes a fast domain that sleeps or
drains for events; of a timer that runs or is stopped it changes nothing. (R164, R176, R177, R178, R181, R182, R183) -/
def Obligations.EventTickRunsTheMachines : Prop :=
  ∀ s : State,
    (ticking s = false → Gives .eventTick s s)
    ∧ (ticking s = true → ∃ t, exec .eventTick s = .next t ∧ t.ev.raised = []
      ∧ ((∀ i : Fin 8, s.ev.machines[i].adoptNext = false ∧ s.ev.machines[i].resetNext = false
            ∧ pget s (0x6101 + 0x10 * i.val) = 0 ∧ s.ev.levels[i] = ⟨false, 0⟩) →
        ∀ i : Fin 8, t.ev.machines[i].live = s.ev.machines[i].live
          ∧ t.ev.machines[i].st = match chooseSlot s (s.ev.raised ++ s.ev.posts) i with
            | some w => bits w 26 5
            | none => s.ev.machines[i].st)
      ∧ Booked { s with
          ev := t.ev, io := { s.io with po := t.io.po }, ga := { s.ga with chans := t.ga.chans }
          mx := { s.mx with beep := t.mx.beep }, pw := { s.pw with pass := t.pw.pass } } t)
    ∧ (∀ (i : Fin 8) (k : Fin 2) (e : Nat), s.ev.machines[i].timers[k] = some e → e ≤ s.ck.mono →
      let u := s.modMachine i fun m => { m with
        timers := m.timers.set k.val none k.isLt, expired := m.expired.set k.val true k.isLt }
      exec (.smTimerExpiry i k) s = .next (if measuring s = true ∧ (s.pw.pass = .asleep ∨ s.pw.pass = .drain) then
        { u with pw := { u.pw with pass := .event }, ev := { u.ev with passRun := (s.ck.mono, 0) } } else u))
    ∧ (∀ (i : Fin 8) (k : Fin 2), (∀ e, s.ev.machines[i].timers[k] = some e → s.ck.mono < e) →
      exec (.smTimerExpiry i k) s = .next s)

/-- On a served line in RUN, SAFE or HELD with the seal of the machine satisfied (seal class S for M0, M for the
others), and fields in their forms. DO_SM_WORD stores a transition word, DO_SM_ACT an action word, DO_SM_FACTORY the
shipped program, each in the draft alone; DO_SM_RESET marks the machine for a reset at the next tick. Each answers
as stored. DO_TURN_REF under METROLOGY with the seal loop open stores the vector of the last wake, or (the model's
choice, log 95) asks for that of the next where there is none, as the tilt reference with an audit entry. Nothing
else changes but the talk of the lines. (R174, R177, R178, R182, R237) -/
def Obligations.ProgramsAreEditedInDraft : Prop :=
  ∀ (rq : Req) (s : State), linesUp s = true → s.serving = true →
    (∀ (i : Fin 8) (mt : String), machineField mt = .ok i → sealOk s rq.line (if i = 0 then .s else .m) = true →
      (∀ (st tt wt : String) (a b w : Nat), countField 0 31 st = .ok a → countField 0 3 tt = .ok b → wordOf wt = .ok w →
        Answers rq (.doSmWord rq [mt, st, tt, wt]) s
          [spaced ["ok do sm.word", machineText i, natText a, natText b, hexText 8 (storedTrans w).toNat]]
          (s.modMachine i fun m => { m with draft := store 0 m.draft (a * 4 + b) (storedTrans w) }))
      ∧ (∀ (it wt : String) (a w : Nat), countField 0 63 it = .ok a → wordOf wt = .ok w →
        Answers rq (.doSmAct rq [mt, it, wt]) s
          [spaced ["ok do sm.act", machineText i, natText a, hexText 8 (storedAct i w).toNat]]
          (s.modMachine i fun m => { m with draft := store 0 m.draft (128 + a) (storedAct i w) }))
      ∧ Answers rq (.doSmFactory rq [mt]) s ["ok do sm.factory " ++ machineText i]
          (s.modMachine i fun m => { m with draft := shippedProgram i.val })
      ∧ Answers rq (.doSmReset rq [mt]) s ["ok do sm.reset " ++ machineText i]
          (s.modMachine i fun m => { m with resetNext := true }))
    ∧ (sealOk s rq.line .m = true → AnswersBooked rq (.doTurnRef rq []) s ["ok do turn.ref"]
      { s with
        ev := { s.ev with
          tiltRef := if s.ev.tiltVec.isSome then s.ev.tiltVec else s.ev.tiltRef
          tiltWait := s.ev.tiltVec.isNone
          tiltArmed := true } })

/-- A level at or below knock.threshold, or in COLD, changes nothing. Any other KNOCK counts in comparator KC and sets
its flag; in KEEP it also adds to the count of this KEEP and keeps the first second. In RUN and SAFE, a KNOCK within
the dead time of the last one does no more. Outside it, it wakes a fast domain that sleeps or drains and is the last
knock: with no knock waiting it waits for a second; within the least to the greatest gap after a waiting one it
raises a double knock with the gap and its peak; beyond, it raises the waiting one as single and waits in its place;
below the least gap the waiting one stays. KNOCK_DOUBLE_MAX_RUN_OUT in RUN and SAFE raises a waiting knock as single
once its greatest gap has run out. Nothing else changes. (R58, R69, R168, R181) -/
def Obligations.KnocksAreSingleOrDouble : Prop :=
  ∀ (s : State) (peak : Nat),
    let woken := fun (u : State) => if s.pw.pass = .asleep ∨ s.pw.pass = .drain then
      { u with pw := { u.pw with pass := .event }, ev := { u.ev with passRun := (s.ck.mono, 0) } } else u
    let k := { s with pw := { s.pw with kcTotal := s.pw.kcTotal + 1, kcFlag := true } }
    let w := woken { k with ev := { s.ev with knockAt := some s.ck.mono } }
    ((s.pw.ms = .cold ∨ (peak : Int) ≤ 10 * pget s 0x6000) → exec (.knock peak) s = .next s)
    ∧ (s.pw.ms ≠ .cold → 10 * pget s 0x6000 < (peak : Int) →
      (s.pw.ms = .keep → exec (.knock peak) s = .next { k with pw := { k.pw with
        kcCount := s.pw.kcCount + 1, kcFirst := some (s.pw.kcFirst.getD (nowSec s)) } })
      ∧ (s.pw.ms ≠ .keep → measuring s = false → exec (.knock peak) s = .next k)
      ∧ (measuring s = true →
        (∀ t, s.ev.knockAt = some t → s.ck.mono < t + pnat s 0x6003 → exec (.knock peak) s = .next k)
        ∧ ((∀ t, s.ev.knockAt = some t → t + pnat s 0x6003 ≤ s.ck.mono) →
          (s.ev.knock = none →
            exec (.knock peak) s = .next { w with ev := { w.ev with knock := some (s.ck.mono, peak) } })
          ∧ (∀ t f : Nat, s.ev.knock = some (t, f) →
            (s.ck.mono - t < pnat s 0x6001 → exec (.knock peak) s = .next w)
            ∧ (pnat s 0x6001 ≤ s.ck.mono - t → s.ck.mono - t ≤ pnat s 0x6002 →
              exec (.knock peak) s = .next { w with ev := { w.ev with
                knock := none, raised := s.ev.raised ++ [⟨0x15, 0, (s.ck.mono - t : Nat), peak, 0, 0⟩] } })
            ∧ (pnat s 0x6001 ≤ s.ck.mono - t → pnat s 0x6002 < s.ck.mono - t →
              exec (.knock peak) s = .next { w with ev := { w.ev with
                knock := some (s.ck.mono, peak), raised := s.ev.raised ++ [⟨0x14, 0, f, 0, 0, 0⟩] } })))))
    ∧ (∀ t f : Nat, measuring s = true → s.ev.knock = some (t, f) → t + pnat s 0x6002 ≤ s.ck.mono →
      let u := woken { s with ev := { s.ev with knock := none } }
      exec .knockDoubleMaxRunOut s = .next { u with ev := { u.ev with
        raised := s.ev.raised ++ [⟨0x14, 0, f, 0, 0, 0⟩] } })
    ∧ ((measuring s = false ∨ ∀ t f : Nat, s.ev.knock = some (t, f) → s.ck.mono < t + pnat s 0x6002) →
      exec .knockDoubleMaxRunOut s = .next s)

/-- Each row takes the oldest find of its recogniser, and with none changes nothing; outside RUN and SAFE the find
raises nothing. A hammer that began outside the dead time of the last one of its run raises its event with peak and
duration. A discarded interval empties the intervals; the eighth interval within its limits in a row gives the
period as their rounded mean and the regularity, and switches cadence on with its event where it was off and the
regularity lies within its band; a missing pulse empties the intervals and switches it off with its event. A free
fall raises its event. A judged second whose vibration has fallen below its share of a reference above the floor,
after a high second, raises release. A rotation raises its event. A tilt, the angle of the last wake's vector
against the reference, is reported; above the threshold and armed it raises its event and disarms, and below 0.8 of
it it is armed again. Nothing else changes. (R169, R170, R171, R172, R173, R174) -/
def Obligations.RecognisersRaiseTheirEvents : Prop :=
  ∀ s : State,
    let raised := fun (e : Event) => { s.ev with raised := s.ev.raised ++ [e] }
    (∀ r : Run,
      (s.runs[r].recog.hammers = [] → exec (.hammer r .found .found) s = .next s)
      ∧ (s.runs[r].recog.beats = [] → exec (.cadence r .found) s = .next s)
      ∧ (s.runs[r].recog.windows = [] → exec (.release r .found .found) s = .next s)
      ∧ (s.ev.falls = [] → exec (.releaseFall .found .found) s = .next s)
      ∧ (s.ev.turns = [] → exec (.turnRot .found) s = .next s)
      ∧ (s.ev.tiltDue = false → exec (.turnTilt .found) s = .next s))
    ∧ (∀ (r : Run) (began peak us : Nat) (rest : List (Nat × Nat × Nat)),
      s.runs[r].recog.hammers = (began, peak, us) :: rest →
      (measuring s = true → hammerFree s r began = true →
        exec (.hammer r .found .found) s = .next { s.modRecog r (fun c => { c with hammers := rest, hammer := some began }) with
          ev := raised ⟨0x10 + r.val, r.val + 1, peak, us, 0, 0⟩ })
      ∧ ((measuring s = false ∨ hammerFree s r began = false) →
        exec (.hammer r .found .found) s = .next (s.modRecog r fun c => { c with hammers := rest })))
    ∧ (∀ (r : Run) (e : CadenceInput) (rest : List CadenceInput), s.runs[r].recog.beats = e :: rest →
      ((measuring s = false ∨ pget s (rp r 0x510) = 0) →
        exec (.cadence r .found) s = .next (s.modRecog r fun c => { c with beats := rest }))
      ∧ (measuring s = true → pget s (rp r 0x510) ≠ 0 →
        (∀ x : Nat, e = .interval x false →
          exec (.cadence r .found) s = .next (s.modRecog r fun c => { c with beats := rest, ivls := [] }))
        ∧ (∀ x : Nat, e = .interval x true → 1000 * pnat s (rp r 0x512) ≤ x → x ≤ 1000 * pnat s (rp r 0x513) →
          let xs := (x :: s.runs[r].recog.ivls).take 8
          let p := (roundDiv (xs.sum : Nat) 8).toNat
          (s.runs[r].recog.ivls.length < 7 →
            exec (.cadence r .found) s = .next (s.modRecog r fun c => { c with beats := rest, ivls := xs }))
          ∧ (7 ≤ s.runs[r].recog.ivls.length → s.runs[r].recog.cadOn = false →
            regularity xs ≤ 10 * pnat s (rp r 0x514) →
            exec (.cadence r .found) s = .next { s.modRecog r (fun c => { c with
                beats := rest, ivls := xs, cadence := some (p, regularity xs), cadOn := true }) with
              ev := raised ⟨0x18 + r.val, r.val + 1, p, regularity xs, 1, 0⟩ }))
        ∧ (∀ p g : Nat, e = .noPulse → s.runs[r].recog.cadOn = true → s.runs[r].recog.cadence = some (p, g) →
          exec (.cadence r .found) s = .next { s.modRecog r (fun c => { c with beats := rest, ivls := [], cadOn := false }) with
            ev := raised ⟨0x1C + r.val, r.val + 1, p, g, 1, 0⟩ })))
    ∧ (∀ (b l : Nat) (rest : List (Nat × Nat)), s.ev.falls = (b, l) :: rest →
      (measuring s = true → exec (.releaseFall .found .found) s = .next { s with
        ev := { raised ⟨0x20, 0, b, l, 2, 0⟩ with falls := rest, fallAt := s.ck.mono } })
      ∧ (measuring s = false → exec (.releaseFall .found .found) s = .next { s with ev := { s.ev with falls := rest } }))
    ∧ (∀ (r : Run) (rms : Nat) (judged : Bool) (rest : List (Nat × Bool)),
      s.runs[r].recog.windows = (rms, judged) :: rest →
      let c := s.runs[r].recog
      ((measuring s = false ∨ judged = false) →
        exec (.release r .found .found) s = .next (s.modRecog r fun x => { x with windows := rest }))
      ∧ (measuring s = true → judged = true → 100 * rms < pnat s (rp r 0x520) * c.relRef → c.relHigh = true →
        releaseFloor s r < c.relRef → 2 * rms < c.relRef →
        exec (.release r .found .found) s = .next { s.modRecog r (fun x => { x with windows := rest, relHigh := false }) with
          ev := raised ⟨0x24 + r.val, r.val + 1, roundDiv (rms * 1000 : Nat) c.relRef, roundDiv c.relRef 1000, 2, 0⟩ }))
    ∧ (∀ (a : Nat) (rest : List Nat), s.ev.turns = a :: rest →
      (measuring s = true →
        exec (.turnRot .found) s = .next { s with ev := { raised ⟨0x28, 0, a, 0, 3, 0⟩ with turns := rest } })
      ∧ (measuring s = false → exec (.turnRot .found) s = .next { s with ev := { s.ev with turns := rest } }))
    ∧ (∀ v w : Vector Int 3, s.ev.tiltDue = true → s.ev.tiltVec = some v → s.ev.tiltRef = some w → pget s 0x6F01 = 0 →
      measuring s = true →
      let a := tiltTenths v w
      (s.ev.tiltArmed = true → pnat s 0x6030 < a → exec (.turnTilt .found) s = .next { s with
        ev := { raised ⟨0x29, 0, a, 0, 3, 0⟩ with tilt := some a, tiltArmed := false, tiltDue := false } })
      ∧ (a ≤ pnat s 0x6030 → exec (.turnTilt .found) s = .next { s with
        ev := { s.ev with
          tilt := some a
          tiltArmed := s.ev.tiltArmed || decide (10 * a < 8 * pnat s 0x6030)
          tiltDue := false } }))
    ∧ ((measuring s = false ∨ s.ev.tiltVec = none ∨ s.ev.tiltRef = none ∨ pget s 0x6F01 ≠ 0) → s.ev.tiltDue = true →
      exec (.turnTilt .found) s = .next { s with ev := { s.ev with tiltDue := false } })

/-- The update takes the frequency of the tracker's phase and the count since the update before; where none lies 100 ms
back, or no clock has passed, it is the tracked frequency (the model's choice, log 20). LIMITER_UPDATE out of a
burst, of RUN and SAFE, of mode limit or of a tenth of a second changes nothing but the talk of the lines. Else, in
RUN without a force, with a valid rate: a limiter that runs moves its integral part by ki × error ÷ (ceiling × its
unit), held within what the position limits leave, and its position toward p + i by at most slew × 0.1 s; one that
takes over takes the position its current represents, within its limits, with the integral part that continues it.
With an invalid rate it holds its position until its hold time is over and then, by its parameter, moves toward its
fail position. Only this output, the ledger and the talk of the lines change. (R292, R293, R294, R295, R301) -/
def Obligations.LimiterHoldsItsCeiling : Prop :=
  ∀ (x : Fin 4) (s : State),
    let f := limiterFreq s x
    (∀ (t : Nat) (phase count : Acc), s.io.co[x].mark = some (t, phase, count) → s.ck.mono ≤ t + 101 →
      0 < (s.en.count - count).toNat →
      f = windowFreq (s.runs[x].eng.phase - phase).toNat (s.en.count - count).toNat)
    ∧ (s.io.co[x].mark = none → f = s.runs[x].eng.tracked)
    ∧ ((measuring s = false ∨ pget s (coBase x + 0x20) ≠ 3 ∨ s.pw.pass ≠ .burst ∨ nowMs s % 100 ≠ 0) →
      Gives (.limiterUpdate x .found) s s)
    ∧ (s.pw.ms = .run → pget s (coBase x + 0x20) = 3 → s.pw.pass = .burst → nowMs s % 100 = 0 →
      ∃ t, exec (.limiterUpdate x .found) s = .next t
        ∧ (∀ y : Fin 4, y ≠ x → t.io.co[y] = s.io.co[y])
        ∧ t.io.co[x].mark = some (s.ck.mono, s.runs[x].eng.phase, s.en.count)
        ∧ Booked { s with io := { s.io with co := t.io.co } } t
        ∧ (s.io.co[x].force = none →
          let c := s.io.co[x]
          (∀ r : Int, controlRate s x (pget s (coBase x + 0x30) = 1) f = .ok r →
            t.io.co[x].rate = some r ∧ t.io.co[x].invalid = 0 ∧ t.io.co[x].lim = .run
            ∧ ((c.takeOver = true ∨ c.lim = .hold ∨ c.lim = .fail) →
              t.io.co[x].u = clampInt (limMin s x) (limMax s x) (codePosition s x c.code)
              ∧ t.io.co[x].i = t.io.co[x].u - limiterP s x r)
            ∧ (c.takeOver = false → c.lim ≠ .hold → c.lim ≠ .fail →
              let p := limiterP s x r
              let i := c.i + roundDiv (pget s (coBase x + 0x32) * (pget s (coBase x + 0x31) - r) * 1000000)
                (pget s (coBase x + 0x31) * pget s (coBase x + 0x33)).toNat
              (limMin s x ≤ p + i → p + i ≤ limMax s x →
                t.io.co[x].i = i ∧ t.io.co[x].u = slewed s x c.u (p + i))
              ∧ (limMax s x < p + i → limMin s x ≤ limMax s x →
                t.io.co[x].i = limMax s x - p ∧ t.io.co[x].u = slewed s x c.u (limMax s x))))
          ∧ (∀ k : Nat, controlRate s x (pget s (coBase x + 0x30) = 1) f = .error k →
            t.io.co[x].rate = none ∧ t.io.co[x].invalid = c.invalid + 1
            ∧ (c.invalid + 1 ≤ 10 * pnat s (coBase x + 0x37) → t.io.co[x].lim = .hold ∧ t.io.co[x].u = c.u)
            ∧ (10 * pnat s (coBase x + 0x37) < c.invalid + 1 → pget s (coBase x + 0x38) = 1 →
              t.io.co[x].lim = .fail
              ∧ t.io.co[x].u = slewed s x c.u (tenthPercent (pget s (coBase x + 0x39)))))))

/-- On a served line in RUN under OPERATE. DO_CO_FORCE gives the output the nearest code of 3.600 to 21.500 mA for 1 to
600 seconds, with status forced; DO_CO_FORCE_END and FORCE_EXPIRY once its time is over end the force. Each writes
the audit. CO_READBACK in RUN and SAFE takes the loop as open when the read-back has stood for 100 ms below half of
a commanded current above 1 mA, and as closed when it has stood at or above that. The other outputs, the inputs and
the pulse outputs stand, and so does everything but the ledger and the talk of the lines. A force that is not over,
or none, and a read-back in another state or that has stood for less change nothing. (R290, R301, R302, R312) -/
def Obligations.ForcesAndReadBackActOnOneOutput : Prop :=
  ∀ (x : Fin 4) (s : State),
    (∀ (rq : Req) (ct mt st : String) (ua : Int) (n : Nat), linesUp s = true → s.pw.ms = .run →
      1 ≤ roleCode (s.line rq.line).role → coField ct = .ok x → decField 3 3600 21500 mt = .ok ua →
      countField 1 600 st = .ok n →
      ∃ t, exec (.doCoForce rq [ct, mt, st]) s = .next t
        ∧ Replied rq [spaced ["ok do co.force", coText x, decText 3 ua, natText n]] s t
        ∧ t.io.co[x].force = some (maCode ua 1000, s.ck.mono + 1000 * n) ∧ t.io.co[x].code = maCode ua 1000
        ∧ t.io.co[x].status = .forced ∧ (∀ y : Fin 4, y ≠ x → t.io.co[y] = s.io.co[y])
        ∧ Booked { s with io := { s.io with co := t.io.co } } t)
    ∧ (∀ (rq : Req) (ct : String), linesUp s = true → s.pw.ms = .run → 1 ≤ roleCode (s.line rq.line).role →
      coField ct = .ok x →
      ∃ t, exec (.doCoForceEnd rq [ct]) s = .next t
        ∧ Replied rq [spaced ["ok do co.force", coText x, "end"]] s t
        ∧ t.io.co[x].force = none ∧ (∀ y : Fin 4, y ≠ x → t.io.co[y] = s.io.co[y])
        ∧ Booked { s with io := { s.io with co := t.io.co } } t)
    ∧ (∀ c u : Nat, s.io.co[x].force = some (c, u) → u ≤ s.ck.mono →
      ∃ t, exec (.forceExpiry x) s = .next t ∧ t.io.co[x].force = none
        ∧ (∀ y : Fin 4, y ≠ x → t.io.co[y] = s.io.co[y]) ∧ Booked { s with io := { s.io with co := t.io.co } } t)
    ∧ ((∀ c u : Nat, s.io.co[x].force = some (c, u) → s.ck.mono < u) → Gives (.forceExpiry x) s s)
    ∧ (∀ ua stood : Nat, measuring s = true → 100 ≤ stood →
      ∃ t, exec (.coReadback x ⟨ua, stood⟩) s = .next t
        ∧ (t.io.co[x].loopOpen = true ↔ 1000 < codeMicroAmp s.io.co[x].code ∧ 2 * ua < codeMicroAmp s.io.co[x].code)
        ∧ (∀ y : Fin 4, y ≠ x → t.io.co[y] = s.io.co[y]) ∧ t = { s with io := { s.io with co := t.io.co } })
    ∧ (∀ ua stood : Nat, (measuring s = false ∨ stood < 100) → exec (.coReadback x ⟨ua, stood⟩) s = .next s)

/-- PULSE_ISSUE in RUN and SAFE, for an output of mode total with pulses pending whose last pulse and gap are over,
counts the pulse and energises the output for its width, with a gap as long behind it; else it changes nothing but
the talk of the lines. VALVE_DISCREPANCY with supply outside COLD: without a contradiction it clears the valve's
state; a contradiction that has persisted for its feedback time since it began, and is not noted yet, becomes the
valve's state; a newer one starts its time. Without supply or in COLD it changes nothing but the talk of the lines.
The other outputs, the inputs and everything but the ledger and the talk of the lines stand. (R296, R297, R298,
R299, R300) -/
def Obligations.PulsesAndValvesAreWatched : Prop :=
  ∀ (x : Fin 4) (s : State),
    (measuring s = true → pget s (0x9200 + 0x10 * x.val) = 1 → 0 < poPending s x → pulseFree s x = true →
      ∃ t, exec (.pulseIssue x) s = .next t ∧ t.io.po[x].issued = s.io.po[x].issued + 1
        ∧ t.io.po[x].onUntil = some (s.ck.mono + pnat s (0x9204 + 0x10 * x.val))
        ∧ t.io.po[x].free = s.ck.mono + 2 * pnat s (0x9204 + 0x10 * x.val) ∧ t.io.po[x].base = s.io.po[x].base
        ∧ (∀ y : Fin 4, y ≠ x → t.io.po[y] = s.io.po[y])
        ∧ Talked { s with io := { s.io with po := t.io.po } } t)
    ∧ ((measuring s = false ∨ pget s (0x9200 + 0x10 * x.val) ≠ 1 ∨ poPending s x ≤ 0 ∨ pulseFree s x = false) →
      Gives (.pulseIssue x) s s)
    ∧ ((s.pw.supply = false ∨ s.pw.ms = .cold) → Gives (.valveDiscrepancy x) s s)
    ∧ (s.pw.supply = true → s.pw.ms ≠ .cold →
      (valveFault s x = none →
        Gives (.valveDiscrepancy x) s (s.modCo x fun c => { c with valve := 0, valveFrom := none }))
      ∧ (∀ k d t0 : Nat, valveFault s x = some (k, d) → s.io.co[x].valveFrom = some (k, t0) →
        (s.io.co[x].valve = 0 → t0 + d ≤ s.ck.mono →
          GivesBooked (.valveDiscrepancy x) s (s.modCo x fun c => { c with valve := k }))
        ∧ ((s.io.co[x].valve ≠ 0 ∨ s.ck.mono < t0 + d) → Gives (.valveDiscrepancy x) s s))
      ∧ (∀ k d : Nat, valveFault s x = some (k, d) → s.io.co[x].valveFrom = none → 0 < d →
        Gives (.valveDiscrepancy x) s (s.modCo x fun c => { c with valveFrom := some (k, s.ck.mono) })))

/-- In RUN, with no supply loss of the same millisecond waiting. SAFETY_JUDGEMENT with a diagnostic code 20h to 2Eh
reported, or with one waiting tap result of an armed input, of status ok or range, at or above its limit and the
last of as many in a row as safety.count asks, trips the module: SAFE, the latch set, the trip outputs off. So it
does where an armed input owes its tap result of the last wake for 5 ms. So do WELDED_CONTACT, with the contact's
mark, and EVALUATOR_RESTART with a failed self-check. With no result waiting, none reported, none standing and no
demand, SAFETY_JUDGEMENT changes only the standing list and the talk of the lines. A passed restart changes nothing
but the talk of the lines, and so do both outside the states with the fast domain, but in the millisecond of a
supply loss. In SAFE a judgement leaves the latch set and the trip outputs as they were. Where a supply loss of the
same millisecond waits, the judgement only keeps its causes for it: the loss sets the latch. (R26, R304, R306, R307,
R310, R311, R312, R313, R314, R316) -/
def Obligations.JudgementTripsTheModule : Prop :=
  ∀ s : State,
    (∀ (cs : List Nat) (c : Nat), s.pw.ms = .run → lossWaits s = false → c ∈ cs → 0x20 ≤ c → c ≤ 0x2E →
      ∃ t, exec (.safetyJudgement cs) s = .next t ∧ Tripped s t)
    ∧ (∀ (cs : List Nat) (c : Nat), s.pw.ms = .run → lossWaits s = true → c ∈ cs → 0x20 ≤ c → c ≤ 0x2E →
      ∃ t, exec (.safetyJudgement cs) s = .next t ∧ c ∈ t.sf.atLoss ∧ t.sf.latch = s.sf.latch ∧ t.sf.coil = s.sf.coil
        ∧ Talked { s with sf := t.sf } t)
    ∧ (∀ (cs : List Nat) (q : Tap), s.pw.ms = .run → lossWaits s = false → s.sf.taps = [q] → armed s q.run q.temp = true →
      (q.status = .ok ∨ q.status = .range) → tapLimit s q.run q.temp ≤ q.value →
      pnat s 0xA005 ≤ (judgedOf s q.run q.temp).count + 1 →
      ∃ t, exec (.safetyJudgement cs) s = .next t ∧ Tripped s t)
    ∧ (∀ (cs : List Nat) (r : Run) (temp : Bool), s.pw.ms = .run → lossWaits s = false → (r, temp) ∈ s.sf.tapDue →
      armed s r temp = true → s.sf.wakeAt + 5 ≤ s.ck.mono →
      ∃ t, exec (.safetyJudgement cs) s = .next t ∧ Tripped s t)
    ∧ (s.sf.taps = [] → s.sf.sticky = [] → ownDiags s = [] → m0Demand s = [] →
      Gives (.safetyJudgement []) s { s with sf := { s.sf with standing := [] } })
    ∧ (∀ cs : List Nat, s.pw.ms = .safe → ∃ t, exec (.safetyJudgement cs) s = .next t
        ∧ t.pw.ms = .safe ∧ t.sf.latch = s.sf.latch ∧ t.sf.coil = s.sf.coil ∧ (∀ c ∈ s.sf.causes, c ∈ t.sf.causes)
        ∧ Booked { s with sf := t.sf } t)
    ∧ (∀ k : Relay, s.pw.ms = .run → lossWaits s = false → ∃ t, exec (.weldedContact k) s = .next t ∧ Tripped s t
        ∧ 0x2E ∈ t.sf.sticky ∧ (match k with | .a => t.sf.welded.1 | .b => t.sf.welded.2) = true)
    ∧ (s.pw.ms = .run → lossWaits s = false → ∃ t, exec (.evaluatorRestart false) s = .next t ∧ Tripped s t)
    ∧ Gives (.evaluatorRestart true) s s
    ∧ (fastOn s = false → sameTick s 1 = false → Gives (.evaluatorRestart false) s s ∧ ∀ k : Relay, Gives (.weldedContact k) s s)

/-- On a served line in SAFE under OPERATE with safety.reset.cmd on. Where every armed input has been clear for a
second, no diagnostic stands, no fresh demand and no safety set waits, DO_SAFETY_RESET is answered `ok`, clears the
latch and its causes, energises the trip outputs and leads to RUN, where the idle channels G5 to G7 with auto on
start; the stored parameters and sets, the clock and the identity stand. Otherwise it is answered `no state` and
changes nothing but the ledger and the talk of the lines. (R22, R220, R315, R316) -/
def Obligations.ResetLeavesSafe : Prop :=
  ∀ (rq : Req) (s : State), linesUp s = true → s.pw.ms = .safe → pget s 0xA004 = 1 →
    1 ≤ roleCode (s.line rq.line).role →
    (resetOk s = true → ∃ t, exec (.doSafetyReset rq []) s = .next t ∧ Replied rq ["ok do safety.reset"] s t
      ∧ t.pw.ms = .run ∧ t.sf.latch = false ∧ t.sf.causes = [] ∧ t.sf.coil = true
      ∧ t.cm = s.cm ∧ t.ck = s.ck ∧ t.ident = s.ident ∧ t.mx = s.mx ∧ t.pair = s.pair ∧ t.io.di = s.io.di
      ∧ t.pending = s.pending
      ∧ ∀ g : Channel, let starts := 5 ≤ g.val ∧ pget s (chanBase g + 9) = 1 ∧ s.ga.chans[g].st = .idle
        (starts → t.ga.chans[g].st = .run ∧ t.ga.chans[g].pc = pnat s (chanBase g))
        ∧ (¬starts → t.ga.chans[g] = s.ga.chans[g]))
    ∧ (resetOk s = false → AnswersBooked rq (.doSafetyReset rq []) s ["no state"] s)

/-- On a served line in RUN, SAFE or HELD that gave the waiting safety set, before its deadline, for a code of four
digits. The right code, with the conditions of seal class S met, schedules the set at its boundary with a note to
its line: class F at once, B and S at the next whole second, class Z with the pending set; a set of class I, neither
a fast-cell assignment nor safety.reset.di among it, is stored at once. A wrong code is answered `no word` and
counted; the third drops the set. SAFETY_CONFIRM_TIMEOUT drops the set once its deadline has come and else changes
nothing but the talk of the lines. Nothing else changes but the ledger and the talk of the lines. (R47, R50, R317,
R318) -/
def Obligations.SafetySetsAreConfirmed : Prop :=
  ∀ (s : State) (w : WaitSet), s.cm.wait = some w →
    (∀ (rq : Req) (ct : String) (n : Nat), linesUp s = true → s.serving = true → w.line = rq.line →
      s.ck.mono < w.deadline → ct.toList.length = 4 → parseNat ct = some n →
      (n = w.code → sealOk s rq.line .s = true → w.set.cls = strictest w.set.members →
        strictest w.set.members ≠ .i → strictest w.set.members ≠ .z →
        AnswersBooked rq (.doSafetyConfirm rq [ct]) s ["ok do safety.confirm " ++ natText w.set.members.length]
          { s with cm := { s.cm with wait := none, due := s.cm.due ++ [⟨strictest w.set.members,
            if strictest w.set.members = .f then s.ck.mono else s.ck.mono + (1000 - nowMs s % 1000),
            w.set.members, some w.line⟩] } })
      ∧ (n = w.code → sealOk s rq.line .s = true → strictest w.set.members = .z →
        AnswersBooked rq (.doSafetyConfirm rq [ct]) s ["ok do safety.confirm " ++ natText w.set.members.length]
          { s with cm := { s.cm with wait := none, pendingZ := mergeZ s.cm.pendingZ w.set.members } })
      ∧ (n = w.code → sealOk s rq.line .s = true → strictest w.set.members = .i →
        (∀ m ∈ w.set.members, cellKind m.param = none ∧ m.param ≠ 0xA003) →
        ∃ t, exec (.doSafetyConfirm rq [ct]) s = .next t
          ∧ Replied rq ["ok do safety.confirm " ++ natText w.set.members.length] s t
          ∧ t.cm.params = ((w.set.members.filter fun m => m.param < 0x5000)
            ++ w.set.members.filter fun m => 0x5000 ≤ m.param).foldl (fun ps m => pStore ps m.param m.value) s.cm.params
          ∧ t.cm.wait = none ∧ t.cm.due = s.cm.due ∧ t.pw.ms = s.pw.ms ∧ t.sf = s.sf)
      ∧ (n = w.code → sealOk s rq.line .s = true → ∃ t, exec (.doSafetyConfirm rq [ct]) s = .next t
        ∧ Replied rq ["ok do safety.confirm " ++ natText w.set.members.length] s t ∧ t.cm.wait = none)
      ∧ (n ≠ w.code → w.wrong < 2 → Answers rq (.doSafetyConfirm rq [ct]) s ["no word"]
          { s with cm := { s.cm with wait := some { w with wrong := w.wrong + 1 } } })
      ∧ (n ≠ w.code → 2 ≤ w.wrong → AnswersBooked rq (.doSafetyConfirm rq [ct]) s ["no word"]
          { s with cm := { s.cm with wait := none } }))
    ∧ (w.deadline ≤ s.ck.mono → ∃ t, exec .safetyConfirmTimeout s = .next t ∧ t.cm.wait = none
      ∧ Booked { s with cm := { s.cm with wait := none } } t)
    ∧ (s.ck.mono < w.deadline → ∃ t, exec .safetyConfirmTimeout s = .next t ∧ t.cm.wait = some w ∧ Talked s t)

/-- On a served line under OPERATE with no test running. In HELD, TEST of an item or of all is answered `ok test` with
its name, marks the test as running for that line, and empties the journal queue where the cellar is among its
items. TEST of leads, cells or ref on one run whose safety function is not armed, in RUN, SAFE or HELD, also
restarts that run's front end. TEST_COMPLETE ends the test with a result record of occasion 4, its items, the number
of failures and the verdict, ahead of at most 15 older ones; without a failure and with no row at its limit the
verdict is 0, pass. The copies of the ledger, the failed units and the records apart nothing else changes. With no
test running it changes nothing but the talk of the lines. (R200, R326, R328, R329, R330) -/
def Obligations.SelfTestsRunOnCommand : Prop :=
  ∀ s : State,
    (∀ (rq : Req) (item : String) (i : Nat), linesUp s = true → s.sp.test = none → 1 ≤ roleCode (s.line rq.line).role →
      wordField rq.tag.isSome (itemNames ++ ["all"]) item = .ok i →
      let mask := if i = 8 then allItems s else if inMask (allItems s) i then 2 ^ i else 0
      (s.pw.ms = .held → Answers rq (.test rq [item]) s ["ok test " ++ (itemNames ++ ["all"]).getD i ""] { s with
        sp := { s.sp with test := some ⟨item, mask, none, rq.line⟩ }
        qu := if inMask mask 4 then s.qu.emptied else s.qu })
      ∧ (∀ (rt : String) (r : Run), s.serving = true → i < 3 → runField rt = .ok r → armedRun s r = false →
        ∃ t, exec (.test rq [item, rt]) s = .next t
          ∧ Replied rq ["ok test " ++ (itemNames ++ ["all"]).getD i ""] s t
          ∧ t.sp.test = some ⟨item, mask, some r, rq.line⟩ ∧ t.runs[r].fe.restarting = true
          ∧ t.runs[r].fe.lift = .idle ∧ t.runs[r].fe.vib = .idle ∧ (∀ q : Run, q ≠ r → t.runs[q] = s.runs[q])
          ∧ Talked { s with sp := { s.sp with test := t.sp.test }, runs := t.runs, mx := { s.mx with fits := t.mx.fits } } t))
    ∧ (∀ (r : TestRun) (b : TestBusy), s.sp.test = some b →
      ∃ t, exec (.testComplete r) s = .next t ∧ t.sp.test = none
        ∧ (∃ x, t.lg.results = (x :: s.lg.results).take 16 ∧ x.occasion = 4 ∧ x.itemsRun = b.items ∧ x.millis = r.millis
          ∧ x.count = (foundIn s b.items r.failures).length
          ∧ (foundIn s b.items r.failures = [] → x.verdict = 0 ∧ x.itemsFailed = 0))
        ∧ Worked { s with sp := { s.sp with test := none, failedCells := t.sp.failedCells, failedRows := t.sp.failedRows } } t)
    ∧ (∀ r : TestRun, s.sp.test = none → Gives (.testComplete r) s s)

/-- On a served line with no test running and the seal satisfied. DO_REPAIR_CELL of a cell that serves no input, with a
free cell of its kind that passed its last test, joins a soft entry with the present time; where the cell serves an
input the entry is the same with the spare, and the input's assignment to the spare is scheduled at the next whole
second. DO_REPAIR_ROW in HELD on a PZM-4S remaps the row to the lowest free spare row and zeroes its error count.
DO_REPAIR_CLEAR marks a soft entry as cleared. DO_REPAIR_BURN in RUN or HELD at 20 V or more takes the next of 32
fuses: where the fuse reads back as burnt the entry is burnt into it, else (a free value of the model, log 13) the
fuse is void and the answer is `no state`. DO_AGE_BACKUP_FITTED takes the present second and a charge of 0. Each
writes the ledger; nothing else changes but the talk of the lines. (R332, R333, R334, R335, R339) -/
def Obligations.RepairsAreEnteredAndBurnt : Prop :=
  ∀ (rq : Req) (s : State), linesUp s = true → s.serving = true → s.sp.test = none →
    (∀ (ft kt : String) (f k : Nat), cellField rq.tag.isSome ft = .ok f → cellField rq.tag.isSome kt = .ok k →
      fastUnit f = fastUnit k → k ≠ f → unitCode k ∈ passedFree s (fastUnit f) →
      (s.pw.ms = .held ∨ cellArmed s f = false) → sealOk s rq.line (if cellArmed s f then .s else .m) = true →
      s.sp.table.length < 96 → (∀ e ∈ s.sp.table, ¬(e.st = 1 ∧ liveEntry e false f = true)) →
      let u := fun (spare : Nat) => { s with sp := { s.sp with table := s.sp.table ++
        [⟨if fastUnit f then 1 else 2, 1, f, spare, nowSec s, none⟩] } }
      (cellInput s f = none →
        AnswersBooked rq (.doRepairCell rq [ft, kt]) s [spaced ["ok do repair cell", unitName f, unitName k]] (u 0))
      ∧ (∀ p, cellInput s f = some p →
        AnswersBooked rq (.doRepairCell rq [ft, kt]) s [spaced ["ok do repair cell", unitName f, unitName k]]
          { u k with cm := { s.cm with due := s.cm.due ++
            [⟨.s, s.ck.mono + (1000 - nowMs s % 1000), [⟨p, unitCode k, 0, .view⟩], none⟩] } }))
    ∧ (sealOk s rq.line .m = true →
      (∀ (rt : String) (row k : Nat) (ks : List Nat), s.pw.ms = .held → s.ident.variant = .s4 →
        countField 0 1023 rt = .ok row → freeRows s = k :: ks → s.sp.table.length < 96 →
        (∀ e ∈ s.sp.table, ¬(e.st = 1 ∧ liveEntry e true row = true)) →
        AnswersBooked rq (.doRepairRow rq [rt]) s [spaced ["ok do repair row", natText row]]
          { s with sp := { s.sp with table := s.sp.table ++ [⟨3, 1, row, k, nowSec s, none⟩]
                                     rowErrors := store 0 s.sp.rowErrors row 0 } })
      ∧ (∀ (it : String) (i : Nat) (e : Repair), countField 0 95 it = .ok i → s.sp.table[i]? = some e → e.st = 1 →
        AnswersBooked rq (.doRepairClear rq [it]) s [spaced ["ok do repair clear", natText i]]
          { s with sp := { s.sp with table := s.sp.table.set i { e with st := 3 } } }
        ∧ ((s.pw.ms = .run ∨ s.pw.ms = .held) → 20000 ≤ s.pw.vsup → s.sp.fuses.length < 32 →
          (burnTakes s = true →
            AnswersBooked rq (.doRepairBurn rq [it]) s
              [spaced ["ok do repair burn", natText i, "fuse", natText s.sp.fuses.length]]
              { s with sp := { s.sp with
                fuses := s.sp.fuses ++ [(if e.kind = 3 then 2 else 1, e.failed, e.spare)]
                table := s.sp.table.set i { e with st := 2, fuse := some s.sp.fuses.length } } })
          ∧ (burnTakes s = false → AnswersBooked rq (.doRepairBurn rq [it]) s ["no state"]
              { s with sp := { s.sp with fuses := s.sp.fuses ++ [(3, e.failed, e.spare)] } }))))
    ∧ (1 ≤ roleCode (s.line rq.line).role →
      AnswersBooked rq (.doAgeBackupFitted rq []) s ["ok do age.backup fitted"]
        { s with sp := { s.sp with charge := 0, backupFitted := nowSec s, counts := s.sp.counts.set 0 [] } })

/-- On a served line in RUN, SAFE or HELD, for fields in their forms. LEDGER_INTERVAL answers the records of a run from
a time on, LEDGER_CLOSE the closes from a day on, LEDGER_EVENTS and LEDGER_AUDIT the records from a time on,
LEDGER_HEAD the four chains, LEDGER_RAW the records of a copy from an index on, LEDGER_VERIFY the records of a range
that fail their check. Where every record they check is case 1 of the check, they answer from the ledger as it
stands and change nothing but the talk of the lines. Where one is not, the readout still completes, and the repairs,
the counters, the notes and the talk with the partner alone change. (R226, R238, R240, R241, R243) -/
def Obligations.LedgerIsReadWithoutChange : Prop :=
  ∀ (rq : Req) (s : State), linesUp s = true → s.serving = true →
    (∀ (rt st : String) (more : List String) (r : Run) (ms : Int) (n : Nat), more.length ≤ 1 → timeField st = .ok ms →
      countOr 1 96 1 more.head? = .ok n → runField rt = .ok r →
      let is := ((recordIndices s 0).filter fun i => (intAt s i).run = r.val + 1 ∧ ms ≤ 1000 * ((intAt s i).start : Int)).take n
      ((∀ i ∈ is, (caseOf s 0 i).1 = 1) → Answers rq (.ledgerInterval rq (rt :: st :: more)) s
        (ledgerReply (is.map (intervalLine s)) is.length) s)
      ∧ ∃ ls, AnswersWorked rq (.ledgerInterval rq (rt :: st :: more)) s ls s)
    ∧ (∀ (dt : String) (more : List String) (ms : Int) (n : Nat), more.length ≤ 1 → timeField dt = .ok ms →
      countOr 1 31 1 more.head? = .ok n →
      let is := ((recordIndices s 1).filter fun i => ms / 86400000 * 86400 ≤ (recordTime s 1 i : Int)).take n
      ((∀ i ∈ is, (caseOf s 1 i).1 = 1) → Answers rq (.ledgerClose rq (dt :: more)) s
        (ledgerReply (is.flatMap (closeLines s)) is.length) s)
      ∧ ∃ ls, AnswersWorked rq (.ledgerClose rq (dt :: more)) s ls s)
    ∧ (∀ (st : String) (more : List String) (ms : Int) (n : Nat), more.length ≤ 1 → timeField st = .ok ms →
      countOr 1 256 16 more.head? = .ok n →
      ((∀ i ∈ smallFrom s 2 ms n, (caseOf s 2 i).1 = 1) → Answers rq (.ledgerEvents rq (st :: more)) s
        (ledgerReply ((smallFrom s 2 ms n).map (eventLine s)) (smallFrom s 2 ms n).length) s)
      ∧ (∃ ls, AnswersWorked rq (.ledgerEvents rq (st :: more)) s ls s)
      ∧ ((∀ i ∈ smallFrom s 3 ms n, (caseOf s 3 i).1 = 1) → Answers rq (.ledgerAudit rq (st :: more)) s
        (ledgerReply ((smallFrom s 3 ms n).map (auditText s)) (smallFrom s 3 ms n).length) s)
      ∧ ∃ ls, AnswersWorked rq (.ledgerAudit rq (st :: more)) s ls s)
    ∧ Answers rq (.ledgerHead rq []) s (ledgerReply ((List.finRange 4).map fun k => spaced ["chain", areaName k,
        natText s.lg.chains[k].written, natText s.lg.chains[k].next, groupText (baseOf s k), groupText (headOf s k)]) 4) s
    ∧ (∀ (ct kt it : String) (more : List String) (c i n : Nat), more.length ≤ 1 → numberLike it = true →
      countOr 1 16 1 more.head? = .ok n → wordField rq.tag.isSome ["a", "b"] ct = .ok c →
      wordField rq.tag.isSome ["keep", "events", "audit", "interval", "close"] kt = .ok 0 → countField 0 32767 it = .ok i →
      let lines := ((List.range n).map fun j => (i + j) % 32768).filterMap (rawLine s (if c = 0 then s.mem.a else s.mem.b) none)
      Answers rq (.ledgerRaw rq (ct :: kt :: it :: more)) s (ledgerReply lines lines.length) s)
    ∧ (∀ (ct kt it : String) (more : List String) (k : Fin 4) (a c i n : Nat), more.length ≤ 1 → numberLike it = true →
      countOr 1 16 1 more.head? = .ok n → wordField rq.tag.isSome ["a", "b"] ct = .ok c →
      wordField rq.tag.isSome ["keep", "events", "audit", "interval", "close"] kt = .ok a → rawArea a = some k →
      countField 0 (areaSize k - 1) it = .ok i →
      let is := (List.range n).map fun j => (i + j) % areaSize k
      let lines := is.filterMap (rawLine s (if c = 0 then s.mem.a else s.mem.b) (some k))
      ((∀ j ∈ is, recordExists s k j = true → (caseOf s k j).1 = 1) →
        Answers rq (.ledgerRaw rq (ct :: kt :: it :: more)) s (ledgerReply lines lines.length) s)
      ∧ ∃ ls, AnswersWorked rq (.ledgerRaw rq (ct :: kt :: it :: more)) s ls s)
    ∧ (∀ (ct ft tt : String) (k : Fin 4) (f t : Nat), numberLike ft = true → numberLike tt = true →
      wordField rq.tag.isSome ["interval", "close", "events", "audit"] ct = .ok k.val →
      countField 0 (areaSize k - 1) ft = .ok f → countField 0 (areaSize k - 1) tt = .ok t →
      ((∀ i, recordExists s k i = true → (caseOf s k i).1 = 1) →
        Answers rq (.ledgerVerify rq [ct, ft, tt]) s ["ok ledger " ++ natText 0] s)
      ∧ ∃ ls, AnswersWorked rq (.ledgerVerify rq [ct, ft, tt]) s ls s)

/-- In RUN, SAFE and HELD. LEDGER_SCRUB of a record that passes its check, and is not the newest audit record, changes
nothing but the talk of the lines; the newest audit record also sets the time of the scrub. With both copies in use,
a record of an other case than check-damaged or data-damaged is counted as a repair and both copies then hold the
same content. A check-damaged record of the event or audit chain is counted as such. The repairs, the counters, the
notes and the talk with the partner apart nothing changes. Out of these states, and for no record, it changes
nothing but the talk of the lines. (R240, R241, R242, R244) -/
def Obligations.ScrubChecksAndRepairs : Prop :=
  ∀ (k : Fin 4) (i : Nat) (s : State),
    ((s.serving = false ∨ recordExists s k i = false) → Gives (.ledgerScrub k i) s s)
    ∧ (s.serving = true → recordExists s k i = true →
      let c := caseOf s k i
      let newest : Bool := k = 3 ∧ (i + 1) % areaSize 3 = s.lg.chains[3].next
      (c.1 = 1 → Gives (.ledgerScrub k i) s
        { s with lg := { s.lg with scrubLast := if newest then some (nowSec s) else s.lg.scrubLast } })
      ∧ (c.1 ≠ 1 → c.1 ≠ 4 → (c.1 = 5 → c.2 ≠ 0) → ∃ t, exec (.ledgerScrub k i) s = .next t
          ∧ t.lg.repairs = s.lg.repairs + 1 ∧ contentAt t.mem.a k i = contentAt t.mem.b k i ∧ Worked s t)
      ∧ (c.1 = 4 → (k = 2 ∨ k = 3) → ∃ t, exec (.ledgerScrub k i) s = .next t
          ∧ t.lg.checkDamaged = s.lg.checkDamaged + 1 ∧ t.lg.repairs = s.lg.repairs ∧ Worked s t)
      ∧ GivesWorked (.ledgerScrub k i) s s)

/-- On a served line under OPERATE. GATHER_SHOW, GATHER_RING and GATHER_READ in RUN, SAFE and HELD answer the channels,
the last completion records and the words of the address map, and change nothing. In RUN and SAFE: GATHER_WORD with
G5, G6 and G7 idle or halted stores up to 8 words from C00h on in program memory and its ferroelectric copy;
GATHER_START of an idle G5, G6 or G7 starts its program with its loops idle; GATHER_STOP of one of them asks a
channel that is not idle to stop. Of a halted channel GATHER_RESUME issues the failing word again, GATHER_SKIP goes
on after the descriptor, and GATHER_RESET ends the program, where G0 to G4 start again; of another it is answered
`no state`. START and STOP of G0 to G4 that meet no other bar are answered `no role`. Nothing else changes but the
talk of the lines and, by a write, the ledger. (R214, R217, R218, R220, R222) -/
def Obligations.GatherRequestsAreAnswered : Prop :=
  ∀ (rq : Req) (s : State), linesUp s = true → 1 ≤ roleCode (s.line rq.line).role →
    (s.serving = true →
      Answers rq (.gatherShow rq []) s
        ((List.finRange 8).map (fun g => "part " ++ chanLine s g) ++ ["ok gather show"]) s
      ∧ (∀ (ct : String) (g : Channel), chanField ct = .ok g →
        Answers rq (.gatherShow rq [ct]) s ["part " ++ chanLine s g, "ok gather show"] s)
      ∧ (∀ (nt : String) (n : Nat), countField 1 256 nt = .ok n →
        let rs := s.ga.ring.drop (s.ga.ring.length - n)
        Answers rq (.gatherRing rq [nt]) s
          (rs.map (fun r => "part " ++ spaced (r.map fun w => hexText 8 w.toNat)) ++ ["ok gather ring " ++ natText rs.length]) s)
      ∧ (∀ (at_ ct : String) (a n : Nat), hexField at_ = .ok a → countField 1 64 ct = .ok n →
        Answers rq (.gatherRead rq [at_, ct]) s
          (((List.range n).map fun i => "part " ++ spaced [hexText 8 (a / 4 * 4 + 4 * i),
            match memWord s (a / 4 * 4 + 4 * i) with | some w => hexText 8 w.toNat | none => "-"]) ++ ["ok gather read"]) s))
    ∧ (measuring s = true →
      (∀ (at_ wt : String) (a v : Nat), hexField at_ = .ok a → hexField wt = .ok v → v < 2 ^ 32 → 0xC00 ≤ a → a ≤ 0xFFF →
        ([5, 6, 7].all fun (k : Channel) => s.ga.chans[k].st = .idle || s.ga.chans[k].st = .halt) = true →
        ∃ w : Word, storedWords s a [BitVec.ofNat 32 v] = [(a, w)]
          ∧ AnswersBooked rq (.gatherWord rq [at_, wt]) s [spaced ["ok gather word", hexText 4 a, hexText 8 w.toNat]]
            { s with ga := { s.ga with prog := (a, w) :: s.ga.prog.filter fun q => q.1 ≠ a
                                       hostCopy := store 0 s.ga.hostCopy a w } })
      ∧ (∀ (ct : String) (g : Channel), chanField ct = .ok g →
        (5 ≤ g.val → s.ga.chans[g].st = .idle → ∃ t, exec (.gatherStart rq [ct]) s = .next t
          ∧ Replied rq ["ok gather start " ++ chanText g] s t ∧ t.ga.chans[g].st = .run
          ∧ t.ga.chans[g].pc = pnat s (chanBase g) ∧ t.ga.chans[g].moved = 0
          ∧ t.ga.chans[g].loops = Vector.replicate 4 none ∧ t.ga.chans[g].flags = s.ga.chans[g].flags
          ∧ (∀ h : Channel, h ≠ g → t.ga.chans[h] = s.ga.chans[h])
          ∧ Talked { s with ga := { s.ga with chans := t.ga.chans } } t)
        ∧ (g.val < 5 → Answers rq (.gatherStart rq [ct]) s ["no role"] s ∧ Answers rq (.gatherStop rq [ct]) s ["no role"] s)
        ∧ (5 ≤ g.val → Answers rq (.gatherStop rq [ct]) s ["ok gather stop " ++ chanText g]
          (s.modChan g fun c => { c with stopReq := decide (c.st ≠ .idle) }))
        ∧ (s.ga.chans[g].st ≠ .halt → Answers rq (.gatherResume rq [ct]) s ["no state"] s
          ∧ Answers rq (.gatherSkip rq [ct]) s ["no state"] s ∧ Answers rq (.gatherReset rq [ct]) s ["no state"] s)
        ∧ (s.ga.chans[g].st = .halt →
          Answers rq (.gatherResume rq [ct]) s [spaced ["ok gather", "resume", chanText g]]
            (s.modChan g fun c => { c with st := .run, fault := none })
          ∧ (∃ t, exec (.gatherSkip rq [ct]) s = .next t ∧ Replied rq [spaced ["ok gather", "skip", chanText g]] s t
            ∧ t.ga.chans[g].st = .run ∧ (s.ga.chans[g].fault.isSome = true → t.ga.chans[g].pc = s.ga.chans[g].pc + 4
              ∧ t.ga.chans[g].fault = none ∧ t.ga.chans[g].moved = 0)
            ∧ (∀ h : Channel, h ≠ g → t.ga.chans[h] = s.ga.chans[h]) ∧ Gathered s t)
          ∧ (∃ t, exec (.gatherReset rq [ct]) s = .next t ∧ Replied rq [spaced ["ok gather", "reset", chanText g]] s t
            ∧ t.ga.chans[g].st = (if g.val < 5 then .run else .idle) ∧ t.ga.chans[g].fault = none
            ∧ t.ga.chans[g].moved = 0 ∧ (∀ h : Channel, h ≠ g → t.ga.chans[h] = s.ga.chans[h])
            ∧ Talked { s with ga := { s.ga with chans := t.ga.chans } } t))))

/-- For a channel that may execute and stands at an owned MOVE of one word. Where the bus is another's at its burst
boundary it waits. With the bus, no memory error, no pace, no ring record and descriptors left alone: where the
source is a word of the address map that is no port and the destination a word of SRAM the channel may write, the
word is stored there, the working addresses go on by 4 where they are not fixed, the CRC takes the word, and the
channel goes on 4 words on. Where the destination does not exist in the map and the channel halts on errors, it
halts at its descriptor with the address, as a write of kind 3, in its fault latch, and the other channels and the
cellar stand. In every case an owned MOVE completes, with no other effect than on the engine, the queue, SRAM, the
cellar and the talk of the lines, and, where an uncorrectable header word resets the queue, on the ledger; a channel
that does not stand at one, or may not execute, does nothing. (R191, R199, R203, R204, R205, R206, R211, R212, R216,
R218) -/
def Obligations.MoveCarriesAWord : Prop :=
  ∀ (g : Channel) (s : State),
    let c := s.ga.chans[g]
    let w0 := wordAt s g
    let pick := fun (w old : Word) => if w = 0xFFFFFFFF then old else w &&& 0xFFFFFFFC
    let src := pick (progWord s (c.pc + 1)) c.src
    let dst := pick (progWord s (c.pc + 2)) c.dst
    (∀ e : Option (Nat × TransferError), (chanReady s g = false ∨ standsAt s g 1 = false) → Gives (.move g e) s s)
    ∧ (∀ e : Option (Nat × TransferError), chanReady s g = true → standsAt s g 1 = true →
      bits w0 27 1 = 1 → ∃ t, exec (.move g e) s = .next t
        ∧ ((∀ n, e ≠ some (n, .uncorrectable)) → Gathered s t) ∧ ∃ u, Gathered s u ∧ Booked u t)
    ∧ (chanReady s g = true → standsAt s g 1 = true → bits w0 27 1 = 1 → c.moved = 0 → max 1 (bits w0 0 16) = 1 →
      pget s (chanBase g + 2) = 0 → src ≠ 0x20000000 → src ≠ 0x20000010 → s.ga.hostFifo = [] →
      (hasBus s g = false → c.burst = 0 → ∃ t, exec (.move g none) s = .next t ∧ t.ga.chans[g].pc = c.pc
        ∧ t.ga.chans[g].moved = 0 ∧ t.mem = s.mem ∧ t.qu = s.qu ∧ Gathered s t)
      ∧ (∀ w : Word, hasBus s g = true → memWord s src.toNat = some w →
        (g.val < 5 ∨ 0x80000 ≤ src.toNat ∨ (0x60000 ≤ src.toNat ∧ src.toNat < 0x7C000)) → dst.toNat < 0x80000 →
        (g.val < 5 ∨ (0x60000 ≤ dst.toNat ∧ dst.toNat < 0x7C000)) → bits w0 20 1 = 0 → pget s (chanBase g + 6) = 0 →
        Gives (.move g none) s
          { s.modChan g (fun d => { d with
              src := if bits w0 26 1 = 1 then src else src + 4, dst := if bits w0 25 1 = 1 then dst else dst + 4
              crc := crc32Word d.crc w, pc := d.pc + 4, burst := 0, shedMove := false, st := .run }) with
            mem := { s.mem with sram := store 0 s.mem.sram (dst.toNat / 4) w }
            ga := { (s.modChan g fun d => { d with
              src := if bits w0 26 1 = 1 then src else src + 4, dst := if bits w0 25 1 = 1 then dst else dst + 4
              crc := crc32Word d.crc w, pc := d.pc + 4, burst := 0, shedMove := false, st := .run }).ga with
              partnerFifo := [], served := (takeBus g s).ga.served } })
      ∧ (hasBus s g = true → 0x80000 ≤ dst.toNat → dst.toNat < 0x10000000 → pget s (chanBase g + 5) = 0 →
        ∃ t, exec (.move g none) s = .next t ∧ t.ga.chans[g].st = .halt
          ∧ t.ga.chans[g].fault = some ⟨dst, true, 3⟩ ∧ t.ga.chans[g].pc = c.pc
          ∧ (∀ h : Channel, h ≠ g → t.ga.chans[h] = s.ga.chans[h]) ∧ t.mem.cellar = s.mem.cellar ∧ Gathered s t))

/-- A channel that may not execute or stands at another instruction does nothing. LOOP with repeats left jumps back to
its address, at most its own, and at the last goes on with its counter idle. SIGNAL to a flag sets it and goes on.
WAIT on no condition or on a packet waits with its time-out. WAIT_SATISFIED of a condition that holds, with no stop
requested, goes on, a flag being consumed. WAIT_TIMEOUT of a wait whose time is over, whose condition does not hold
and which names no jump, goes on. MARK with a reservation that a WAIT has obtained goes on; one that must wait
stalls. END, a MOVE that is not owned and an undefined opcode end the program: the final CRC is kept, the running
one starts again, the loops are idle, and the channel is idle, or runs from its entry where END restarts. The other
channels stand, but for a flag that is set or consumed; nothing outside the engine, the queue and the memories
changes. (R205, R207, R208, R209, R210, R211, R214, R216) -/
def Obligations.ProgramsStepThroughTheirWords : Prop :=
  ∀ (g : Channel) (s : State),
    let c := s.ga.chans[g]
    let w := wordAt s g
    let others := fun (t : State) => ∀ h : Channel, h ≠ g → t.ga.chans[h] = s.ga.chans[h]
    (chanReady s g = false → exec (.loop g) s = .next s ∧ exec (.wait g) s = .next s ∧ exec (.signal g) s = .next s
      ∧ exec (.mark g) s = .next s ∧ exec (.endProg g) s = .next s ∧ exec (.opcodeFault g) s = .next s)
    ∧ (chanReady s g = true →
      (∀ k : Fin 4, standsAt s g 2 = true → bits w 14 2 = k.val →
        let n := c.loops[k].getD (max 1 (bits w 16 12)) - 1
        ∃ t, exec (.loop g) s = .next t ∧ others t
          ∧ t.ga.chans[g].pc = (if 0 < n then min (bits w 0 12) c.pc else c.pc + 1)
          ∧ t.ga.chans[g].loops = c.loops.set k.val (if 0 < n then some n else none) k.isLt
          ∧ t = { s with ga := { s.ga with chans := t.ga.chans } })
      ∧ (standsAt s g 3 = true → waitCond w = 0 ∨ waitCond w = 3 →
        exec (.wait g) s = .next (s.modChan g fun d => { d with
          st := .wait, waitUntil := some (1000 * s.ck.mono + waitMicros w) }))
      ∧ (standsAt s g 3 = true → ∃ t, exec (.wait g) s = .next t ∧ Gathered s t)
      ∧ (∀ h : Channel, standsAt s g 4 = true → bits w 27 1 = 0 → bits w 24 3 = h.val →
        ∃ t, exec (.signal g) s = .next t ∧ t.ga.chans[g].pc = c.pc + 1
          ∧ t.ga.chans[h].flags = s.ga.chans[h].flags ||| (1#32 <<< (bits w 16 5 % 32))
          ∧ (∀ k : Channel, k ≠ g → k ≠ h → t.ga.chans[k] = s.ga.chans[k])
          ∧ t = { s with ga := { s.ga with chans := t.ga.chans } })
      ∧ (standsAt s g 4 = true → bits w 27 1 = 1 → ∃ t, exec (.signal g) s = .next t
          ∧ t.ga.chans[g].pc = c.pc + 1 ∧ others t ∧ t.qu = s.qu ∧ Gathered s t)
      ∧ (standsAt s g 5 = true → c.markReady = true → ∃ t, exec (.mark g) s = .next t ∧ t.ga.chans[g].pc = c.pc + 1
          ∧ t.ga.chans[g].markReady = false ∧ others t ∧ t = { s with ga := { s.ga with chans := t.ga.chans } })
      ∧ (standsAt s g 5 = true → c.markReady = false → longest s (chanOrigin g) < bits w 10 8 + 1 →
        ∃ t, exec (.mark g) s = .next t ∧ t.ga.chans[g].st = .stall ∧ t.ga.chans[g].pc = c.pc ∧ others t
          ∧ t.mem = s.mem ∧ Gathered s t)
      ∧ (standsAt s g 5 = true → ∃ t, exec (.mark g) s = .next t ∧ others t ∧ Gathered s t)
      ∧ (standsAt s g 6 = true → ∃ t, exec (.endProg g) s = .next t ∧ others t
          ∧ t.ga.chans[g].crcOut = some (c.crc ^^^ 0xFFFFFFFF) ∧ t.ga.chans[g].crc = 0xFFFFFFFF
          ∧ t.ga.chans[g].loops = Vector.replicate 4 none
          ∧ (bits w 27 1 = 0 → t.ga.chans[g].st = .idle) ∧ (bits w 27 1 = 1 → t.ga.chans[g].pc = pnat s (chanBase g))
          ∧ Gathered s t)
      ∧ ((4096 ≤ c.pc ∨ bits w 28 4 = 0 ∨ 7 ≤ bits w 28 4) → ∃ t, exec (.opcodeFault g) s = .next t ∧ others t
          ∧ t.ga.chans[g].crcOut = some (c.crc ^^^ 0xFFFFFFFF) ∧ t.ga.chans[g].st = .idle ∧ Gathered s t)
      ∧ (standsAt s g 1 = true → bits w 27 1 = 0 → c.moved = 0 → ∃ t, exec (.move g none) s = .next t ∧ others t
          ∧ t.ga.chans[g].crcOut = some (c.crc ^^^ 0xFFFFFFFF) ∧ t.ga.chans[g].st = .idle ∧ Gathered s t))
    ∧ (engineOn s = true → c.st = .wait → c.stopReq = false → waitHolds s g = true →
      ∃ t, exec (.waitSatisfied g) s = .next t ∧ t.ga.chans[g].pc = c.pc + 1 ∧ t.ga.chans[g].waitUntil = none
        ∧ ((waitCond w = 1 ∨ waitCond w = 2) →
          t.ga.chans[waitBank w].flags = s.ga.chans[waitBank w].flags &&& ~~~ waitMask w)
        ∧ (∀ k : Channel, k ≠ g → k ≠ waitBank w → t.ga.chans[k] = s.ga.chans[k])
        ∧ t = { s with ga := { s.ga with chans := t.ga.chans } })
    ∧ ((engineOn s = false ∨ c.st ≠ .wait ∨ c.stopReq = true ∨ waitHolds s g = false) → exec (.waitSatisfied g) s = .next s)
    ∧ (∀ e : Nat, c.waitUntil = some e → c.st = .wait → c.stopReq = false → e ≤ 1000 * s.ck.mono → (engineOn s = false ∨ waitHolds s g = false) →
      ∃ t, exec (.waitTimeout g) s = .next t ∧ t.ga.chans[g].waitUntil = none ∧ t.ga.chans[g].st ≠ .wait
        ∧ (bits w 27 1 = 0 → t.ga.chans[g].pc = c.pc + 1) ∧ others t ∧ Gathered s t)
    ∧ ((c.st ≠ .wait ∨ c.stopReq = true ∨ ∀ e, c.waitUntil = some e → 1000 * s.ck.mono < e) → exec (.waitTimeout g) s = .next s)

/-- PORT_STALL_END of a channel stalled in a MOVE that could move a word now, and PACE_RESUME of a paused channel
without a pace or whose level has reached its high mark, run it again while the engine runs; else they do nothing.
CHANNEL_STOPPED of a channel asked to stop, at a descriptor boundary or in a stall, with no record that waits for a
slot, makes it idle with its loops idle and its open reservation given up; else it changes nothing but the talk of
the lines. RING_POST_TIMEOUT of a record that has waited 10 ms for a slot drops and counts it, and before does
nothing. The other channels stand, and nothing outside the engine, the queue and the memories changes. (R204, R213,
R214, R217) -/
def Obligations.ChannelsStallPauseAndStop : Prop :=
  ∀ (g : Channel) (s : State),
    let c := s.ga.chans[g]
    (engineOn s = true → c.st = .stall → standsAt s g 1 = true → canMove s g = true →
      exec (.portStallEnd g) s = .next (s.modChan g fun d => { d with st := .run }))
    ∧ ((engineOn s = false ∨ c.st ≠ .stall ∨ standsAt s g 1 = false ∨ canMove s g = false) →
      exec (.portStallEnd g) s = .next s)
    ∧ (engineOn s = true → c.st = .paused → (∀ l, paceLevel s g = some l → pnat s (chanBase g + 3) ≤ l) →
      exec (.paceResume g) s = .next (s.modChan g fun d => { d with st := .run }))
    ∧ ((engineOn s = false ∨ c.st ≠ .paused ∨ ∃ l, paceLevel s g = some l ∧ l < pnat s (chanBase g + 3)) →
      exec (.paceResume g) s = .next s)
    ∧ (c.stopReq = true → c.st ≠ .idle → c.st ≠ .halt → c.ringWait = none → (c.moved = 0 ∨ c.st = .stall) →
      ∃ t, exec (.channelStopped g) s = .next t ∧ t.ga.chans[g].st = .idle ∧ t.ga.chans[g].stopReq = false
        ∧ t.ga.chans[g].moved = 0 ∧ t.ga.chans[g].loops = Vector.replicate 4 none ∧ t.ga.chans[g].crc = 0xFFFFFFFF
        ∧ t.ga.chans[g].reserved = false ∧ (∀ h : Channel, h ≠ g → t.ga.chans[h] = s.ga.chans[h]) ∧ Gathered s t)
    ∧ ((c.stopReq = false ∨ c.st = .idle ∨ c.st = .halt ∨ c.ringWait ≠ none ∨ (c.moved ≠ 0 ∧ c.st ≠ .stall)) → Gives (.channelStopped g) s s)
    ∧ (∀ (r : List Word) (t0 : Nat), c.ringWait = some (r, t0) →
      (t0 + 10 ≤ s.ck.mono → ∃ t, exec (.ringPostTimeout g) s = .next t ∧ t.ga.chans[g] = { c with ringWait := none }
        ∧ t.ga.ringLost = s.ga.ringLost + 1 ∧ (∀ h : Channel, h ≠ g → t.ga.chans[h] = s.ga.chans[h])
        ∧ t = { s with ga := { s.ga with chans := t.ga.chans, ringLost := t.ga.ringLost } })
      ∧ (s.ck.mono < t0 + 10 → exec (.ringPostTimeout g) s = .next s))
    ∧ (c.ringWait = none → exec (.ringPostTimeout g) s = .next s)

/-- With the fast domain on and NRST high, RESERVATION_GRANT grants the first waiter in the order of granting that fits,
appending its region with the header written, a channel's with its next sequence, and a channel stalled for it goes
on; with none, or else, it does nothing. SHED_WAIT_TIMEOUT of a class 2 or 3 request of a channel that has waited
queue.shed.wait removes it, counts it by its class, and the channel, its words to be discarded, goes on where it
stalled; before, it changes nothing but the talk of the lines. SHED_SPELL_END a second after the last shed packet
ends the spell and records it; before, it does nothing. RESERVATION_TIMEOUT leaves no reservation that has stood
uncommitted for more than a second of awake time. QUEUE_RESET with the fast domain on is counted and frees the read
port, and beyond the engine, the queue, the ledger and the talk nothing changes; with it off nothing but the talk of
the lines does. LINGER_EXPIRY, with a packet that waits and the linger time over, counts, sets the flag, restarts
the timer, and in RUN and SAFE wakes a sleeping fast domain for a drain pass; else it changes nothing but the talk
of the lines. DRAIN_PASS_END of a drain pass with an empty queue or after 20 ms restarts the timer and puts the fast
domain to sleep, or back to a line pass under way, and else does nothing. A row delivered before it is due changes
nothing (log 15). (R57, R186, R187, R193, R194, R195, R196, R198, R199, R210) -/
def Obligations.QueueIsGrantedShedResetAndDrained : Prop :=
  ∀ s : State,
    ((fastFree s = false ∨ s.qu.waiters.filter (canGrant s) = []) → exec .reservationGrant s = .next s)
    ∧ (∀ w : Waiter, fastFree s = true → firstWaiter (s.qu.waiters.filter (canGrant s)) = some w →
      ∃ t, exec .reservationGrant s = .next t ∧ t.qu.waiters = s.qu.waiters.erase w
        ∧ t.qu.regions = s.qu.regions ++ [⟨w.origin, w.cls, w.len,
            if w.origin < 8 then w.words else w.words.map (· ||| BitVec.ofNat 32 (takeSeq s w.origin).1.toNat),
            decide (w.len ≤ w.words.length), false, s.ck.awake⟩]
        ∧ (∀ g : Channel, w.origin = 8 + g.val →
          (s.ga.chans[g].st = .stall → t.ga.chans[g].st = .run ∧ t.ga.chans[g].pc = s.ga.chans[g].pc + 1)
          ∧ (s.ga.chans[g].st ≠ .stall → t.ga.chans[g].markReady = true ∧ t.ga.chans[g].pc = s.ga.chans[g].pc))
        ∧ (∀ g : Channel, w.origin ≠ 8 + g.val → t.ga.chans[g] = s.ga.chans[g])
        ∧ t = { s with qu := t.qu, ga := { s.ga with chans := t.ga.chans } })
    ∧ (∀ (g : Channel) (w : Waiter), s.qu.waiters.find? (fun v => v.origin = chanOrigin g && v.cls ≠ 1) = some w →
      (w.since + pnat s 0x7005 ≤ s.ck.mono →
        ∃ t, exec (.shedWaitTimeout g) s = .next t ∧ t.qu.waiters = s.qu.waiters.erase w ∧ t.qu.regions = s.qu.regions
          ∧ t.qu.shed2 = (if w.cls = 2 then s.qu.shed2 + 1 else s.qu.shed2)
          ∧ t.qu.shed3 = (if w.cls = 3 then s.qu.shed3 + 1 else s.qu.shed3)
          ∧ t.ga.chans[g].discard = w.len - 1
          ∧ (s.ga.chans[g].st = .stall → t.ga.chans[g].st = .run ∧ t.ga.chans[g].pc = s.ga.chans[g].pc + 1)
          ∧ (∀ h : Channel, h ≠ g → t.ga.chans[h] = s.ga.chans[h])
          ∧ Talked { s with qu := t.qu, ga := { s.ga with chans := t.ga.chans } } t)
      ∧ (s.ck.mono < w.since + pnat s 0x7005 → Gives (.shedWaitTimeout g) s s))
    ∧ (∀ g : Channel, s.qu.waiters.find? (fun v => v.origin = chanOrigin g && v.cls ≠ 1) = none →
      Gives (.shedWaitTimeout g) s s)
    ∧ (∀ a b last n2 n3 : Nat, s.qu.spell = some (a, b, last, n2, n3) →
      (last + 1000 ≤ s.ck.mono → ∃ t, exec .shedSpellEnd s = .next t ∧ t.qu.spell = none ∧ Booked s t)
      ∧ (s.ck.mono < last + 1000 → exec .shedSpellEnd s = .next s))
    ∧ (∃ t, exec .reservationTimeout s = .next t
      ∧ (∀ r ∈ t.qu.regions, r.committed = true ∨ r.void = true ∨ s.ck.awake ≤ r.at_ + 1000)
      ∧ ((∀ r ∈ s.qu.regions, r.committed = true ∨ r.void = true ∨ s.ck.awake ≤ r.at_ + 1000) → t.qu = s.qu)
      ∧ (∀ g : Channel, t.ga.chans[g] = { s.ga.chans[g] with reserved := t.ga.chans[g].reserved })
      ∧ t = { s with qu := t.qu, ga := { s.ga with chans := t.ga.chans } })
    ∧ (∀ q : QueueFault, (fastOn s = true → ∃ t u, exec (.queueReset q) s = .next t ∧ t.qu.resets = s.qu.resets + 1
        ∧ t.qu.port = none ∧ Gathered s u ∧ Booked u t)
      ∧ (fastOn s = false → Gives (.queueReset q) s s))
    ∧ (fastOn s = true → (visible s).isSome = true → s.qu.lingerFrom + pnat s 0x7002 ≤ s.ck.mono →
      let wakes : Bool := s.pw.pass = .asleep && measuring s
      Gives .lingerExpiry s { s with
        pw := { s.pw with pass := if wakes then .drain else s.pw.pass }
        qu := { s.qu with lingers := s.qu.lingers + 1, lingerFlag := true, lingerFrom := s.ck.mono
                          drainAt := if wakes then s.ck.mono else s.qu.drainAt } })
    ∧ ((fastOn s = false ∨ visible s = none ∨ s.ck.mono < s.qu.lingerFrom + pnat s 0x7002) → Gives .lingerExpiry s s)
    ∧ (s.pw.pass = .drain → (fillOf s.qu = 0 ∨ s.qu.drainAt + 20 ≤ s.ck.mono) →
      exec .drainPassEnd s = .next { s with
        pw := { s.pw with pass := if linesQuiet s then .asleep else .line }
        qu := { s.qu with lingerFrom := s.ck.mono } })
    ∧ ((s.pw.pass ≠ .drain ∨ (fillOf s.qu ≠ 0 ∧ s.ck.mono < s.qu.drainAt + 20)) → exec .drainPassEnd s = .next s)

/-- DROP, on either line, where the verb is served: the reply is `ok drop` with the number of unread words of the packet
that is open at the read port. That number is added to queue.drop.words, the port is free, so the next read starts
at the next header, and the regions and waiters of the queue stand. A channel that held the packet in the middle of
a MOVE sees its packet end at once: its transfer is over and it stands behind its descriptor. If no packet is open,
the reply is `ok drop 0` and nothing changes. Nothing outside the gather engine, the queue and the talk of the lines
changes. (R197) -/
def Obligations.DropDiscardsTheOpenPacket : Prop :=
  ∀ (rq : Req) (s : State), linesUp s = true → s.serving = true →
    (∀ p : ReadPort, s.qu.port = some p →
      ∃ t, exec (.drop rq []) s = .next t ∧ Replied rq ["ok drop " ++ natText p.left.length] s t ∧ t.qu.port = none
        ∧ t.qu.dropWords = s.qu.dropWords + BitVec.ofNat 32 p.left.length ∧ t.qu.regions = s.qu.regions
        ∧ t.qu.waiters = s.qu.waiters
        ∧ (s.ga.chans[p.holder].moved ≠ 0 → fromPort s p.holder = true → s.ga.chans[p.holder].st ≠ .halt →
          t.ga.chans[p.holder].moved = 0 ∧ t.ga.chans[p.holder].pc = s.ga.chans[p.holder].pc + 4)
        ∧ (∀ g : Channel, g ≠ p.holder → t.ga.chans[g] = s.ga.chans[g]) ∧ Gathered s t)
    ∧ (s.qu.port = none → Answers rq (.drop rq []) s ["ok drop " ++ natText 0] s)

/-- PAIR under METROLOGY with the seal open replaces the fingerprint, and changes nothing where it is the paired one.
HELLO_RETRY at an upstream end that is due, its hello not answered yet, sends hello with a fresh nonce. HELLO
resolves the role of the session and is refused for its first fault, in the order version, key, length; a good one
takes the upstream end from step 1 to step 2, and is answered hello and prove by the downstream end; in an open
session it is a loss; two downstream ends only hear it. PROVE that verifies is answered prove by the upstream end,
and opens the downstream one; another is refused. REFUSE ends the opening. The ack 0 of step 4 opens the upstream
end. OPENING_TIMEOUT sends the opening back to its first step and SILENT_TIMEOUT makes the session silent, each only
once its time is over, and each wakes a sleeping fast domain. (R234, R249, R250, R251, R252, R253, R284) -/
def Obligations.SessionsAreOpened : Prop :=
  ∀ s : State,
    (∀ (rq : Req) (x : String), linesUp s = true → s.serving = true → fingerprintForm x = true →
      sealOk s rq.line .m = true →
      let known : Bool := s.lg.keys.any fun k => fingerprintText k.1 = lowerText x;
      (s.pair.fingerprint = some (lowerText x) → Answers rq (.pair rq [x]) s ["ok pair"] s)
      ∧ (s.pair.fingerprint ≠ some (lowerText x) → (known = true ∨ s.lg.keys.length < 16) →
        AnswersBooked rq (.pair rq [x]) s ["ok pair"]
          { s with pair := { s.pair with fingerprint := some (lowerText x), fresh := !known } })
      ∧ (s.pair.fingerprint ≠ some (lowerText x) → known = false → 16 ≤ s.lg.keys.length →
        Answers rq (.pair rq [x]) s ["busy pair"] s))
    ∧ (let due : Bool := talking s && pget s 0x8100 = 1 && s.pair.up ≠ some false && s.pair.st ≠ .opened
        && s.pair.pause ≤ s.ck.mono && !(s.pair.st = .opening && 2 ≤ s.pair.step)
      let n := fit 8 0 (Config.nonce s.pair.drawn)
      (due = true → Gives .helloRetry s (s.spoken fun p =>
        { Pair.says s (frameBody 1 "hello" 0 (spaced ["1", natText s.ident.serial, "up", natText s.lg.intLen,
              msText (1000 * wantTime s), bytesText s.ident.key, bytesText n]))
            { p with nonce := n, drawn := p.drawn + 1, st := .opening, nextSeq := 1, expect := 1, accepted := false } with
          step := 1, pause := s.ck.mono + 5000 + s.ident.serial % 16 * 250 }))
      ∧ (due = false → Gives .helloRetry s s))
    ∧ (∀ (h : FrameHead) (f : HelloFields),
      let bothDown : Bool := pget s 0x8100 ≠ 1 && !f.up
      let up : Bool := pget s 0x8100 = 1 && (!f.up || s.ident.serial < f.serial)
      let fault : Option RefuseReason := if f.version ≠ 1 then some .version
        else if s.pair.fingerprint ≠ some (fingerprintText f.key) then some .key
        else if f.minutes ≠ s.lg.intLen then some .length else none
      (talking s = false → Gives (.hello h f) s s)
      ∧ (talking s = true → s.pair.st ≠ .opened → bothDown = true →
        Gives (.hello h f) s (s.spoken fun p => { p with rxAt := s.ck.mono }))
      ∧ (talking s = true → s.pair.st ≠ .opened → bothDown = false →
        ∃ t, exec (.hello h f) s = .next t ∧ t.pair.up = some up ∧ t.pair.rxAt = s.ck.mono ∧ Worked s t
          ∧ (∀ r : RefuseReason, fault = some r → t.pair.st = .refused ∧ t.pair.step = 0
            ∧ t.pair.pause = (if up then s.ck.mono + 60000 else s.pair.pause)
            ∧ t.pair.sent = (s.pair.says s (frameBody s.pair.nextSeq "refuse" (ackField s.pair) (refuseWord r))).sent
            ∧ s.lg.chains[2].written < t.lg.chains[2].written)
          ∧ (fault = none → t.pair.st = .opening ∧ t.pair.serial = f.serial ∧ t.pair.peerKey = f.key
            ∧ t.pair.peerNonce = f.nonce ∧ t.pair.want = f.want / 1000
            ∧ (up = true → t.pair.step = (if s.pair.step = 1 then 2 else s.pair.step) ∧ t.pair.sent = s.pair.sent)
            ∧ (up = false → t.pair.step = 3 ∧ t.pair.nonce = fit 8 0 (Config.nonce s.pair.drawn)
              ∧ t.pair.drawn = s.pair.drawn + 1 ∧ t.pair.sent.length = s.pair.sent.length + 2))
          ∧ (pget s 0x8100 = 1 → f.up = true → s.pair.up = none → s.lg.chains[2].written < t.lg.chains[2].written))
      ∧ (talking s = true → s.pair.st = .opened → ∃ t, exec (.hello h f) s = .next t ∧ t.pair.st ≠ .opened
        ∧ t.pair.resync = s.pair.resync + 1 ∧ t.pair.out = [] ∧ Worked s t))
    ∧ (∀ (h : FrameHead) (sig : List Byte),
      ((talking s = false ∨ s.pair.st ≠ .opening) → Gives (.prove h sig) s s)
      ∧ (talking s = true → s.pair.st = .opening →
        (s.pair.up = some true → s.pair.step = 2 → proofOk s false sig = true →
          Gives (.prove h sig) s (s.spoken fun p => { Pair.says s (frameBody p.nextSeq "prove" (ackField p)
              (bytesText (fit 64 0 (Config.edSign s.ident.key (proofMessage p.peerNonce p.nonce s.ident.serial true)))))
              { p with rxAt := s.ck.mono } with step := 3 }))
        ∧ (s.pair.up = some false → s.pair.step = 3 → proofOk s true sig = true →
          ∃ t, exec (.prove h sig) s = .next t ∧ t.pair.st = .opened ∧ t.pair.expect = 1 ∧ t.pair.accepted = false
            ∧ s.lg.chains[2].written < t.lg.chains[2].written ∧ Worked s t)
        ∧ (∀ up : Bool, s.pair.up = some up → s.pair.step = (if up then 2 else 3) → proofOk s (!up) sig = false →
          ∃ t, exec (.prove h sig) s = .next t ∧ t.pair.st = .refused ∧ t.pair.step = 0
            ∧ t.pair.pause = (if up then s.ck.mono + 60000 else s.pair.pause)
            ∧ t.pair.sent = (s.pair.says s (frameBody s.pair.nextSeq "refuse" (ackField s.pair) "key")).sent
            ∧ t.lg.chains[2].written = s.lg.chains[2].written + 1 ∧ Worked s t)))
    ∧ (∀ (h : FrameHead) (r : RefuseReason),
      ((talking s = false ∨ s.pair.st ≠ .opening) → Gives (.refuse h r) s s)
      ∧ (talking s = true → s.pair.st = .opening → GivesBooked (.refuse h r) s (s.spoken fun p => { p with
          rxAt := s.ck.mono, st := .refused, step := 0
          pause := if p.up ≠ some false then s.ck.mono + 60000 else p.pause })))
    ∧ (∀ h : FrameHead, talking s = true → s.pair.st = .opening → s.pair.up = some true → s.pair.step = 3 → h.ack = 0 →
      ∃ t, exec (.ack h) s = .next t ∧ t.pair.st = .opened ∧ t.pair.expect = 1 ∧ t.pair.accepted = false
        ∧ s.lg.chains[2].written < t.lg.chains[2].written ∧ Worked s t)
    ∧ (let late : Bool := talking s && s.pair.st = .opening && s.pair.txAt + 5000 ≤ s.ck.mono;
      (late = true → Gives .openingTimeout s (s.spoken fun p => { p with step := 0 }))
      ∧ (late = false → Gives .openingTimeout s s))
    ∧ (let quiet : Bool := talking s && s.pw.ms = .run && pget s 0x8100 = 2 && s.pair.st ≠ .opened
        && s.pair.rxAt + 60000 ≤ s.ck.mono;
      (quiet = true → Gives .silentTimeout s (s.spoken fun p => { p with st := .silent }))
      ∧ (quiet = false → Gives .silentTimeout s s))

/-- For ivl, close, csig, cosig, decline, damage, tq and tr. With the conversation off nothing changes but the talk of
the lines; before a session is open the frame is only heard. In an open full-duplex session with nothing
outstanding: a gap of 1 to 7 sends nak with the expected sequence and gap, unless it was naked within pair.rto, a
duplicate sends ack, any other sequence ahead loses the session. The expected frame advances the expected sequence,
and: an ivl not held joins the partner table, an identical copy is ignored, and with the own undecided record there
the pair is decided; a close waits for its csig; its csig is declined where the signature fails or the day had an
equivocation, waits where records of the day are missing, is co-signed as the first close with all records there,
and is declined where the totals differ; a cosig that verifies is stored and another is noted; a decline and a
damage are noted; a tq is answered tr by the upstream end; a tr of the latest tq gives the offset of least delay
among the last 8, which sets an unset clock, slews from 2 ms on, and is only noted beyond the limit. An ivl that is
no 56 bytes and a close that is no 80 bytes are protocol errors, which lose the session. (R246, R254, R255, R259,
R262, R263, R264, R265, R266, R267, R271, R281) -/
def Obligations.FramesAreTakenInOrder : Prop :=
  ∀ (h : FrameHead) (s : State),
    (∀ (rec_ chain sig : List Byte) (n kase t1 t2 t3 : Nat) (k : Fin 4) (d : DeclineReason),
      ∀ i ∈ [Instr.ivl h rec_, .close h rec_, .csig h n chain sig, .cosig h n sig, .decline h n d, .damage h k n kase,
        .tq h t1, .tr h t1 t2 t3],
      (talking s = false → Gives i s s)
      ∧ (talking s = true → s.pair.st ≠ .opened → Gives i s (s.spoken fun p => { p with rxAt := s.ck.mono }))
      ∧ (talking s = true → s.pair.st = .opened → s.pair.out = [] → s.pair.offers = [] → halfDuplex s = false →
        let ahead := (h.tag + 65535 - s.pair.expect) % 65535;
        (1 ≤ ahead → ahead ≤ 7 → (∃ q ∈ recentNaks s, q.1 = s.pair.expect) →
          Gives i s (s.spoken fun p => { p with rxAt := s.ck.mono }))
        ∧ (1 ≤ ahead → ahead ≤ 7 → s.pw.ms ≠ .stop → (∀ q ∈ recentNaks s, q.1 ≠ s.pair.expect) → Gives i s (s.spoken fun p =>
          Pair.says s (frameBody p.nextSeq "nak" (ackField p) (natText p.expect ++ " gap"))
            { p with rxAt := s.ck.mono, naks := (p.expect, s.ck.mono) :: recentNaks s }))
        ∧ (65527 ≤ ahead → Gives i s (s.spoken fun p =>
          Pair.says s (frameBody p.nextSeq "ack" (ackField p) "") { p with rxAt := s.ck.mono }))
        ∧ (8 ≤ ahead → ahead < 65527 → GivesBooked i s (s.spoken fun p => { p with rxAt := s.ck.mono }.lose))))
    ∧ (talking s = true → s.pair.st = .opened → s.pair.out = [] → s.pair.offers = [] → halfDuplex s = false →
      s.pw.ms ≠ .stop → s.pair.unacked < 3 → (h.tag + 65535 - s.pair.expect) % 65535 = 0 →
      let p1 : Pair := { s.pair with
        rxAt := s.ck.mono, expect := seqAfter s.pair.expect, accepted := true, unacked := s.pair.unacked + 1
        acceptAt := if s.pair.unacked = 0 then s.ck.mono else s.pair.acceptAt }
      (∀ rec_ : List Byte, rec_.length = 56 → s.pair.waiting = [] →
        let r := readInt rec_;
        (∀ e : Entry, entryOf s r.run r.start = some e → e.tag = (rec_.drop 48).take 8 →
          Gives (.ivl h rec_) s (s.spoken fun _ => p1))
        ∧ (entryOf s r.run r.start = none → s.se.table.length < 8192 →
          (findInt s r.run r.start = none →
            let seen := (r.run, r.start) ∈ s.pair.taken
            let days := if seen then s.pair.days else addDay r s.pair.days
            let taken := if seen then s.pair.taken else ((r.run, r.start) :: s.pair.taken).take 153600
            Gives (.ivl h rec_) s { s.spoken (fun _ => { p1 with days := days, taken := taken }) with
              se := { s.se with table := s.se.table ++ [⟨r.run, r.start, (rec_.drop 48).take 8, r.m, r.e, r.total, r.flags,
                r.cU + r.cK + r.cX, false, false⟩] } })
          ∧ (∀ i : Nat, findInt s r.run r.start = some i → outcomeAt s i = 255 → s.mem.wf = true →
            ∃ t, exec (.ivl h rec_) s = .next t ∧ outcomeAt t i ≠ 255 ∧ t.pair.expect = seqAfter s.pair.expect
              ∧ Worked s t)))
      ∧ (∀ rec_ : List Byte, (rec_.length ≠ 56 → ∃ t, exec (.ivl h rec_) s = .next t ∧ t.pair.st = .lost
          ∧ t.pair.proto = s.pair.proto + 1 ∧ t.pair.resync = s.pair.resync + 1 ∧ Worked s t)
        ∧ (rec_.length ≠ 80 → ∃ t, exec (.close h rec_) s = .next t ∧ t.pair.st = .lost
          ∧ t.pair.proto = s.pair.proto + 1 ∧ t.pair.resync = s.pair.resync + 1 ∧ Worked s t)
        ∧ (rec_.length = 80 → Gives (.close h rec_) s (s.spoken fun _ => { p1 with closeRec := some rec_ })))
      ∧ (∀ (n : Nat) (chain sig : List Byte),
        (s.pair.closeRec = none → Gives (.csig h n chain sig) s (s.spoken fun _ => p1))
        ∧ (∀ rec_ : List Byte, s.pair.closeRec = some rec_ →
          let w := partnerClose s rec_ chain sig
          let p2 : Pair := { p1 with closeRec := none }
          let held := ((s.pair.days.find? fun d => d.1 = w.day).map (·.2.1)).getD 0
          let sums := ((s.pair.days.find? fun d => d.1 = w.day).map (·.2.2)).getD (List.replicate 4 (0, 0))
          let signed := Config.edVerify s.pair.peerKey (closeMessage chain) sig;
          (w.number ≠ n → Gives (.csig h n chain sig) s (s.spoken fun _ => p2))
          ∧ (w.number = n → signed = false → Gives (.csig h n chain sig) s (s.spoken fun _ =>
            Pair.carries s 3 (frameBody p2.nextSeq "decline" (ackField p2) (spaced [natText n, "sig"])) p2))
          ∧ (w.number = n → signed = true → s.pair.lastClose = none → w.day ∈ s.pair.foul →
            Gives (.csig h n chain sig) s (s.spoken fun _ =>
              Pair.carries s 3 (frameBody p2.nextSeq "decline" (ackField p2) (spaced [natText n, "total"])) p2))
          ∧ (w.number = n → signed = true → s.pair.lastClose = none → held ≠ w.count → w.day ∉ s.pair.foul →
            Gives (.csig h n chain sig) s (s.spoken fun _ => { p2 with waiting := p2.waiting ++ [w] }))
          ∧ (w.number = n → signed = true → s.pair.lastClose = none → held = w.count → w.day ∉ s.pair.foul →
            Gives (.csig h n chain sig) s (s.spoken fun _ =>
              Pair.carries s 2 (frameBody p2.nextSeq "cosig" (ackField p2)
                (spaced [natText n, bytesText (fit 64 0 (Config.edSign s.ident.key ((0x02 : Byte) :: chain)))]))
                { p2 with lastClose := some w }))
          ∧ (∀ p : PartnerClose, w.number = n → signed = true → s.pair.lastClose = some p → p.key = w.key →
            p.number + 1 = w.number → held = w.count → w.day ∉ s.pair.foul →
            (w.totals.zip p.totals).map (fun q => (q.1.1 - q.2.1, q.1.2 - q.2.2)) ≠ sums →
            Gives (.csig h n chain sig) s (s.spoken fun _ =>
              Pair.carries s 3 (frameBody p2.nextSeq "decline" (ackField p2) (spaced [natText n, "total"])) p2))))
      ∧ (∀ (n : Nat) (sig : List Byte),
        (∀ i : Nat, closeSlot s n = some i →
          Config.edVerify s.pair.peerKey ((0x02 : Byte) :: valueAt s 1 i) sig = true →
          Gives (.cosig h n sig) s (putBytes (putBytes (putBytes (s.spoken fun _ => p1) (recOff 1 i + 248) (fit 64 0 sig))
            (recOff 1 i + 312) (0x03 :: leBytes 1 (keyIndex s s.pair.peerKey))) (recOff 1 i + 316) (leBytes 4 (nowSec s))))
        ∧ ((∀ i : Nat, closeSlot s n = some i →
            Config.edVerify s.pair.peerKey ((0x02 : Byte) :: valueAt s 1 i) sig = false) →
          ∃ t, exec (.cosig h n sig) s = .next t ∧ t.lg.chains[2].written = s.lg.chains[2].written + 1
            ∧ Booked (s.spoken fun _ => p1) t))
      ∧ (∀ (n kase : Nat) (k : Fin 4) (d : DeclineReason), ∀ i ∈ [Instr.decline h n d, .damage h k n kase],
        ∃ t, exec i s = .next t ∧ t.lg.chains[2].written = s.lg.chains[2].written + 1
          ∧ Booked (s.spoken fun _ => p1) t)
      ∧ (∀ t1 : Nat, (s.pair.up ≠ some true → Gives (.tq h t1) s (s.spoken fun _ => p1))
        ∧ (s.pair.up = some true → Gives (.tq h t1) s (s.spoken fun _ =>
          Pair.carries s 1 (frameBody p1.nextSeq "tr" (ackField p1)
            (spaced [msText t1, msText h.stamp] ++ " " ++ msText (nowMs s))) p1)))
      ∧ (∀ t1 t2 t3 : Nat,
        (¬(s.pair.up = some false ∧ s.pair.tq = some t1) → Gives (.tr h t1 t2 t3) s (s.spoken fun _ => p1))
        ∧ (s.pair.up = some false → s.pair.tq = some t1 →
          let pairs : List (Int × Int) :=
            ((((t2 : Int) - t1) + ((t3 : Int) - h.stamp), ((h.stamp : Int) - t1) - ((t3 : Int) - t2)) :: s.pair.thetas).take 8
          ∃ b ∈ pairs, (∀ q ∈ pairs, b.2 ≤ q.2) ∧
            let p2 : Pair := { p1 with thetas := pairs, offset := roundDiv b.1 2, delay := b.2 }
            let far := 2000 * pnat s 0x8106 < b.1.natAbs;
            (s.ck.valid = true → b.1.natAbs < 4 → ¬far → Gives (.tr h t1 t2 t3) s (s.spoken fun _ => p2))
            ∧ (s.ck.valid = true → 4 ≤ b.1.natAbs → ¬far → GivesBooked (.tr h t1 t2 t3) s
              { s.spoken (fun _ => p2) with ck := { s.ck with slew := b.1 * 5000000, due := none } })
            ∧ (s.ck.valid = true → far → GivesBooked (.tr h t1 t2 t3) s
              (s.spoken fun _ => { p2 with clockNoted := true }))
            ∧ (s.ck.valid = false → ∃ t, exec (.tr h t1 t2 t3) s = .next t ∧ t.ck.valid = true
              ∧ t.ck.t = (s.ck.t + b.1 * 5000000).toNat ∧ t.ck.slew = 0
              ∧ t.cm = { s.cm with due := moveDue (s.ck.t + b.1 * 5000000).toNat s } ∧ t.sf = s.sf))))

/-- In a full-duplex session with no offer waiting, ACK frees the frame its field names and all before it, and the first
sample sets the round trip and the timeout; one that names none is only heard. In half-duplex an ack passes the
turn, which comes into force pair.turn.guard later. NAK counts its class and sends its frame and every later one
again, or loses the session where one of them has been sent again pair.retry times; it sends nothing where that
frame was sent again in the same millisecond. RTO_EXPIRY, once due, doubles the timeout up to 60 s and sends every
outstanding frame again, or loses the session likewise. ACK_DELAY acknowledges what was accepted 50 ms ago.
FRAME_CHECK_FAIL in a session sends nak with the check computed, once within pair.rto for one sequence.
PROTOCOL_ERROR is counted and loses an open session. BYE ends the session idle. With the conversation off none of
them does anything. (R247, R248, R254, R256, R257, R258, R259, R260, R269) -/
def Obligations.FramesAreAcknowledgedOrSentAgain : Prop :=
  ∀ s : State,
    (∀ (h : FrameHead) (q : Nat) (c : NakCheck) (tag : Option Nat) (k : Option (BitVec 16)), talking s = false →
      ∀ i ∈ [Instr.ack h, .nak h q c, .bye h, .frameCheckFail tag k, .protocolError tag, .rtoExpiry, .ackDelay], Gives i s s)
    ∧ (∀ h : FrameHead, talking s = true → s.pair.st ≠ .opened →
      ¬(s.pair.st = .opening ∧ s.pair.up = some true ∧ s.pair.step = 3 ∧ h.ack = 0) →
      Gives (.ack h) s (s.spoken fun p => { p with rxAt := s.ck.mono }))
    ∧ (∀ h : FrameHead, talking s = true → s.pair.st = .opened → s.pair.offers = [] →
      (halfDuplex s = false →
        ((∀ f ∈ s.pair.out, f.seq ≠ h.ack) → Gives (.ack h) s (s.spoken fun p => { p with rxAt := s.ck.mono }))
        ∧ (∀ (before after : List OutFrame) (f : OutFrame), s.pair.out = before ++ [f] ++ after → f.seq = h.ack →
          (∀ g ∈ before, g.seq ≠ h.ack) →
          ∃ t, exec (.ack h) s = .next t ∧ t.pair.out = after ∧ t.pair.st = .opened ∧ t.pair.sent = s.pair.sent
            ∧ Worked s t
            ∧ (before = [] → f.resends = 0 → f.kind ≠ 4 → s.pair.rtt = none →
              let r := 1000 * (s.ck.mono - f.sentAt)
              let v := (roundDiv r 2).toNat
              t.pair.rtt = some (r, v)
              ∧ t.pair.rto = some (max (rtoFloor s) (min 60000000 (r + max (4 * v) 20000))))))
      ∧ (halfDuplex s = true → s.pair.out = [] →
        Gives (.ack h) s (s.spoken fun p => { p with
          rxAt := s.ck.mono, turn := true, turnFrom := s.ck.mono + pnat s 0x8105 })))
    ∧ (∀ (h : FrameHead) (q : Nat) (c : NakCheck), talking s = true → s.pair.st = .opened → halfDuplex s = false →
      (∀ f ∈ s.pair.out, f.seq ≠ h.ack) →
      let late := s.pair.out.dropWhile fun f => f.seq ≠ q
      let held := (s.pair.out.find? fun f => f.seq = q).map (·.check)
      ∃ t, exec (.nak h q c) s = .next t ∧ Worked s t
        ∧ t.pair.gaps = (if c = .gap then s.pair.gaps + 1 else s.pair.gaps)
        ∧ (t.pair.checkDmg, t.pair.dataDmg) = (match c with
          | .gap => (s.pair.checkDmg, s.pair.dataDmg)
          | .none => (s.pair.checkDmg, s.pair.dataDmg + 1)
          | .hex x => if held = some x then (s.pair.checkDmg + 1, s.pair.dataDmg)
            else (s.pair.checkDmg, s.pair.dataDmg + 1))
        ∧ ((∃ f ∈ s.pair.out, s.pair.out.find? (fun g => g.seq = q) = some f ∧ 0 < f.resends ∧ f.sentAt = s.ck.mono) →
          t.pair.out = s.pair.out ∧ t.pair.sent = s.pair.sent ∧ t.pair.retrans = s.pair.retrans)
        ∧ ((∀ f ∈ late, f.sentAt < s.ck.mono ∧ f.resends < pnat s 0x8103) → t.pair.st = .opened
          ∧ t.pair.retrans = s.pair.retrans + BitVec.ofNat 32 late.length ∧ t.pair.out.map (·.seq) = s.pair.out.map (·.seq)
          ∧ (s.ck.mono < s.pair.txAt + 50 →
            t.pair.sent = s.pair.sent ++ late.map fun f => f.text ++ checkField f.text))
        ∧ ((∀ f ∈ late, f.sentAt < s.ck.mono) → (∃ f ∈ late, pnat s 0x8103 ≤ f.resends) →
          t.pair.st = .lost ∧ t.pair.resync = s.pair.resync + 1
          ∧ t.pair.out = []))
    ∧ (∀ (h : FrameHead) (q : Nat) (c : NakCheck), talking s = true → s.pair.st ≠ .opened →
      Gives (.nak h q c) s (s.spoken fun p => { p with rxAt := s.ck.mono }))
    ∧ (∀ h : FrameHead, talking s = true → ∃ t, exec (.bye h) s = .next t ∧ t.pair.st = .idle ∧ t.pair.out = []
      ∧ t.pair.offers = [] ∧ t.pair.rxAt = s.ck.mono ∧ Worked s t)
    ∧ (∀ (tag : Option Nat) (k : Option (BitVec 16)), talking s = true →
      (s.pair.st ≠ .opened → Gives (.frameCheckFail tag k) s (s.spoken id))
      ∧ (s.pair.st = .opened → (∃ x ∈ recentNaks s, x.1 = tag.getD s.pair.expect) →
        Gives (.frameCheckFail tag k) s (s.spoken id))
      ∧ (s.pair.st = .opened → s.pair.offers = [] → (∀ x ∈ recentNaks s, x.1 ≠ tag.getD s.pair.expect) → s.pw.ms ≠ .stop →
        let q := tag.getD s.pair.expect
        (halfDuplex s = false → Gives (.frameCheckFail tag k) s (s.spoken fun p =>
          Pair.says s (frameBody p.nextSeq "nak" (ackField p) (natText q ++ " " ++ nakText k))
            { p with naks := (q, s.ck.mono) :: recentNaks s }))
        ∧ (halfDuplex s = true → holdsTurn s = false → Gives (.frameCheckFail tag k) s (s.spoken fun p =>
          { p with naks := (q, s.ck.mono) :: recentNaks s, offers := [⟨8, natText q ++ " " ++ nakText k⟩] })))
      ∧ (s.pair.st = .opened → GivesBooked (.protocolError tag) s (s.spoken fun p =>
        { p with rxAt := s.ck.mono, proto := p.proto + 1 }.lose))
      ∧ (s.pair.st ≠ .opened → Gives (.protocolError tag) s (s.spoken fun p =>
        { p with rxAt := s.ck.mono, proto := p.proto + 1 })))
    ∧ (s.pair.out = [] → Gives .rtoExpiry s s)
    ∧ (∀ (f : OutFrame) (fs : List OutFrame), s.pair.out = f :: fs →
      let rto := s.pair.rto.getD 0
      let due : Bool := talking s && s.pair.st = .opened && 1000 * f.sentAt + rto ≤ 1000 * s.ck.mono;
      (due = false → Gives .rtoExpiry s s)
      ∧ (due = true → (halfDuplex s = false ∨ holdsTurn s = true) → (∀ g ∈ s.pair.out, g.resends < pnat s 0x8103) →
        ∃ t, exec .rtoExpiry s = .next t ∧ t.pair.st = .opened ∧ t.pair.rto = some (min 60000000 (2 * rto))
          ∧ t.pair.out = s.pair.out.map (fun g => { g with resends := g.resends + 1, sentAt := s.ck.mono })
          ∧ t.pair.retrans = s.pair.retrans + BitVec.ofNat 32 s.pair.out.length
          ∧ t.pair.sent.length = s.pair.sent.length + s.pair.out.length ∧ Worked s t)
      ∧ (due = true → (halfDuplex s = false ∨ holdsTurn s = true) → (∃ g ∈ s.pair.out, pnat s 0x8103 ≤ g.resends) →
        ∃ t, exec .rtoExpiry s = .next t ∧ t.pair.st = .lost ∧ t.pair.resync = s.pair.resync + 1 ∧ t.pair.out = []
          ∧ Worked s t))
    ∧ (let due : Bool := talking s && s.pair.st = .opened && 0 < s.pair.unacked && s.pair.acceptAt + 50 ≤ s.ck.mono;
      (due = true → halfDuplex s = false → Gives .ackDelay s (s.spoken fun p =>
        Pair.says s (frameBody p.nextSeq "ack" (ackField p) "") p))
      ∧ ((due = false ∨ halfDuplex s = true) → Gives .ackDelay s s))

/-- In an open session. KEEPALIVE_DUE after pair.keepalive without a frame sends an ack, which in half-duplex only the
holder of the turn does and which passes the turn. SESSION_SILENCE after three times pair.keepalive without a good
frame loses the session. TURN_RETAKE at an upstream end of a half-duplex line, pair.rto after its last frame, takes
the turn back and with nothing to send sends ack again. TQ_DUE at the downstream end of a full-duplex line with
nothing waiting, at the opening and 60 s after the last, sends tq with the present time. Before its time, and
outside an open session, each changes nothing but the talk of the lines. (R254, R259, R260, R266) -/
def Obligations.SessionTimersActWhenDue : Prop :=
  ∀ s : State,
    let open_ : Bool := talking s && s.pair.st = .opened
    let ackText := frameBody s.pair.nextSeq "ack" (ackField s.pair) "";
    (let due : Bool := open_ && s.pair.txAt + 1000 * pnat s 0x8104 ≤ s.ck.mono;
      (due = true → halfDuplex s = false → Gives .keepaliveDue s (s.spoken fun p => Pair.says s ackText p))
      ∧ (due = true → halfDuplex s = true → holdsTurn s = true →
        Gives .keepaliveDue s (s.spoken fun p => { Pair.says s ackText p with turn := false }))
      ∧ ((due = false ∨ (halfDuplex s = true ∧ holdsTurn s = false)) → Gives .keepaliveDue s s))
    ∧ (let due : Bool := open_ && s.pair.rxAt + 3000 * pnat s 0x8104 ≤ s.ck.mono;
      (due = true → GivesBooked .sessionSilence s (s.spoken Pair.lose))
      ∧ (due = false → Gives .sessionSilence s s))
    ∧ (let due : Bool := open_ && halfDuplex s && s.pair.up = some true && !s.pair.turn
        && 1000 * s.pair.txAt + s.pair.rto.getD 0 ≤ 1000 * s.ck.mono;
      (due = true → s.pair.offers = [] →
        Gives .turnRetake s (s.spoken fun p => { Pair.says s ackText p with turn := false, turnFrom := s.ck.mono }))
      ∧ (due = false → Gives .turnRetake s s))
    ∧ (let due : Bool := open_ && s.pair.up = some false && (match s.pair.tq with
        | some x => decide (x + 60000 ≤ nowMs s)
        | none => true);
      (due = true → halfDuplex s = false → s.pw.ms ≠ .stop → s.pair.offers = [] → s.pair.out = [] →
        Gives .tqDue s (s.spoken fun p =>
          { Pair.carries s 0 (frameBody p.nextSeq "tq" (ackField p) (msText (nowMs s))) p with tq := some (nowMs s) }))
      ∧ (due = false → Gives .tqDue s s))
end

