-- ==== Sys2Proof/Laws/State.lean ====
section
/-! SUPPORT. What each named update of the state leaves alone and what it changes: one lemma per field and update. -/

namespace Sys2Proof.Machine

@[simp] theorem State.modRun_pending (s : State) (r : Run) (f : RunSt → RunSt) : (s.modRun r f).pending = s.pending := rfl
@[simp] theorem State.modRun_ident (s : State) (r : Run) (f : RunSt → RunSt) : (s.modRun r f).ident = s.ident := rfl
@[simp] theorem State.modRun_pw (s : State) (r : Run) (f : RunSt → RunSt) : (s.modRun r f).pw = s.pw := rfl
@[simp] theorem State.modRun_ck (s : State) (r : Run) (f : RunSt → RunSt) : (s.modRun r f).ck = s.ck := rfl
@[simp] theorem State.modRun_host (s : State) (r : Run) (f : RunSt → RunSt) : (s.modRun r f).host = s.host := rfl
@[simp] theorem State.modRun_service (s : State) (r : Run) (f : RunSt → RunSt) : (s.modRun r f).service = s.service := rfl
@[simp] theorem State.modRun_cm (s : State) (r : Run) (f : RunSt → RunSt) : (s.modRun r f).cm = s.cm := rfl
@[simp] theorem State.modRun_mx (s : State) (r : Run) (f : RunSt → RunSt) : (s.modRun r f).mx = s.mx := rfl
@[simp] theorem State.modRun_en (s : State) (r : Run) (f : RunSt → RunSt) : (s.modRun r f).en = s.en := rfl
@[simp] theorem State.modRun_ev (s : State) (r : Run) (f : RunSt → RunSt) : (s.modRun r f).ev = s.ev := rfl
@[simp] theorem State.modRun_qu (s : State) (r : Run) (f : RunSt → RunSt) : (s.modRun r f).qu = s.qu := rfl
@[simp] theorem State.modRun_ga (s : State) (r : Run) (f : RunSt → RunSt) : (s.modRun r f).ga = s.ga := rfl
@[simp] theorem State.modRun_mem (s : State) (r : Run) (f : RunSt → RunSt) : (s.modRun r f).mem = s.mem := rfl
@[simp] theorem State.modRun_lg (s : State) (r : Run) (f : RunSt → RunSt) : (s.modRun r f).lg = s.lg := rfl
@[simp] theorem State.modRun_pair (s : State) (r : Run) (f : RunSt → RunSt) : (s.modRun r f).pair = s.pair := rfl
@[simp] theorem State.modRun_se (s : State) (r : Run) (f : RunSt → RunSt) : (s.modRun r f).se = s.se := rfl
@[simp] theorem State.modRun_io (s : State) (r : Run) (f : RunSt → RunSt) : (s.modRun r f).io = s.io := rfl
@[simp] theorem State.modRun_sf (s : State) (r : Run) (f : RunSt → RunSt) : (s.modRun r f).sf = s.sf := rfl
@[simp] theorem State.modRun_sp (s : State) (r : Run) (f : RunSt → RunSt) : (s.modRun r f).sp = s.sp := rfl

@[simp] theorem State.modQueue_pending (s : State) (f : Queue → Queue) : (s.modQueue f).pending = s.pending := rfl
@[simp] theorem State.modQueue_ident (s : State) (f : Queue → Queue) : (s.modQueue f).ident = s.ident := rfl
@[simp] theorem State.modQueue_pw (s : State) (f : Queue → Queue) : (s.modQueue f).pw = s.pw := rfl
@[simp] theorem State.modQueue_ck (s : State) (f : Queue → Queue) : (s.modQueue f).ck = s.ck := rfl
@[simp] theorem State.modQueue_host (s : State) (f : Queue → Queue) : (s.modQueue f).host = s.host := rfl
@[simp] theorem State.modQueue_service (s : State) (f : Queue → Queue) : (s.modQueue f).service = s.service := rfl
@[simp] theorem State.modQueue_cm (s : State) (f : Queue → Queue) : (s.modQueue f).cm = s.cm := rfl
@[simp] theorem State.modQueue_runs (s : State) (f : Queue → Queue) : (s.modQueue f).runs = s.runs := rfl
@[simp] theorem State.modQueue_mx (s : State) (f : Queue → Queue) : (s.modQueue f).mx = s.mx := rfl
@[simp] theorem State.modQueue_en (s : State) (f : Queue → Queue) : (s.modQueue f).en = s.en := rfl
@[simp] theorem State.modQueue_ev (s : State) (f : Queue → Queue) : (s.modQueue f).ev = s.ev := rfl
@[simp] theorem State.modQueue_ga (s : State) (f : Queue → Queue) : (s.modQueue f).ga = s.ga := rfl
@[simp] theorem State.modQueue_mem (s : State) (f : Queue → Queue) : (s.modQueue f).mem = s.mem := rfl
@[simp] theorem State.modQueue_lg (s : State) (f : Queue → Queue) : (s.modQueue f).lg = s.lg := rfl
@[simp] theorem State.modQueue_pair (s : State) (f : Queue → Queue) : (s.modQueue f).pair = s.pair := rfl
@[simp] theorem State.modQueue_se (s : State) (f : Queue → Queue) : (s.modQueue f).se = s.se := rfl
@[simp] theorem State.modQueue_io (s : State) (f : Queue → Queue) : (s.modQueue f).io = s.io := rfl
@[simp] theorem State.modQueue_sf (s : State) (f : Queue → Queue) : (s.modQueue f).sf = s.sf := rfl
@[simp] theorem State.modQueue_sp (s : State) (f : Queue → Queue) : (s.modQueue f).sp = s.sp := rfl

@[simp] theorem State.modChan_pending (s : State) (g : Channel) (f : Chan → Chan) : (s.modChan g f).pending = s.pending := rfl
@[simp] theorem State.modChan_ident (s : State) (g : Channel) (f : Chan → Chan) : (s.modChan g f).ident = s.ident := rfl
@[simp] theorem State.modChan_pw (s : State) (g : Channel) (f : Chan → Chan) : (s.modChan g f).pw = s.pw := rfl
@[simp] theorem State.modChan_ck (s : State) (g : Channel) (f : Chan → Chan) : (s.modChan g f).ck = s.ck := rfl
@[simp] theorem State.modChan_host (s : State) (g : Channel) (f : Chan → Chan) : (s.modChan g f).host = s.host := rfl
@[simp] theorem State.modChan_service (s : State) (g : Channel) (f : Chan → Chan) : (s.modChan g f).service = s.service := rfl
@[simp] theorem State.modChan_cm (s : State) (g : Channel) (f : Chan → Chan) : (s.modChan g f).cm = s.cm := rfl
@[simp] theorem State.modChan_runs (s : State) (g : Channel) (f : Chan → Chan) : (s.modChan g f).runs = s.runs := rfl
@[simp] theorem State.modChan_mx (s : State) (g : Channel) (f : Chan → Chan) : (s.modChan g f).mx = s.mx := rfl
@[simp] theorem State.modChan_en (s : State) (g : Channel) (f : Chan → Chan) : (s.modChan g f).en = s.en := rfl
@[simp] theorem State.modChan_ev (s : State) (g : Channel) (f : Chan → Chan) : (s.modChan g f).ev = s.ev := rfl
@[simp] theorem State.modChan_qu (s : State) (g : Channel) (f : Chan → Chan) : (s.modChan g f).qu = s.qu := rfl
@[simp] theorem State.modChan_mem (s : State) (g : Channel) (f : Chan → Chan) : (s.modChan g f).mem = s.mem := rfl
@[simp] theorem State.modChan_lg (s : State) (g : Channel) (f : Chan → Chan) : (s.modChan g f).lg = s.lg := rfl
@[simp] theorem State.modChan_pair (s : State) (g : Channel) (f : Chan → Chan) : (s.modChan g f).pair = s.pair := rfl
@[simp] theorem State.modChan_se (s : State) (g : Channel) (f : Chan → Chan) : (s.modChan g f).se = s.se := rfl
@[simp] theorem State.modChan_io (s : State) (g : Channel) (f : Chan → Chan) : (s.modChan g f).io = s.io := rfl
@[simp] theorem State.modChan_sf (s : State) (g : Channel) (f : Chan → Chan) : (s.modChan g f).sf = s.sf := rfl
@[simp] theorem State.modChan_sp (s : State) (g : Channel) (f : Chan → Chan) : (s.modChan g f).sp = s.sp := rfl

@[simp] theorem State.modMachine_pending (s : State) (m : Fin 8) (f : StMachine → StMachine) : (s.modMachine m f).pending = s.pending := rfl
@[simp] theorem State.modMachine_ident (s : State) (m : Fin 8) (f : StMachine → StMachine) : (s.modMachine m f).ident = s.ident := rfl
@[simp] theorem State.modMachine_pw (s : State) (m : Fin 8) (f : StMachine → StMachine) : (s.modMachine m f).pw = s.pw := rfl
@[simp] theorem State.modMachine_ck (s : State) (m : Fin 8) (f : StMachine → StMachine) : (s.modMachine m f).ck = s.ck := rfl
@[simp] theorem State.modMachine_host (s : State) (m : Fin 8) (f : StMachine → StMachine) : (s.modMachine m f).host = s.host := rfl
@[simp] theorem State.modMachine_service (s : State) (m : Fin 8) (f : StMachine → StMachine) : (s.modMachine m f).service = s.service := rfl
@[simp] theorem State.modMachine_cm (s : State) (m : Fin 8) (f : StMachine → StMachine) : (s.modMachine m f).cm = s.cm := rfl
@[simp] theorem State.modMachine_runs (s : State) (m : Fin 8) (f : StMachine → StMachine) : (s.modMachine m f).runs = s.runs := rfl
@[simp] theorem State.modMachine_mx (s : State) (m : Fin 8) (f : StMachine → StMachine) : (s.modMachine m f).mx = s.mx := rfl
@[simp] theorem State.modMachine_en (s : State) (m : Fin 8) (f : StMachine → StMachine) : (s.modMachine m f).en = s.en := rfl
@[simp] theorem State.modMachine_qu (s : State) (m : Fin 8) (f : StMachine → StMachine) : (s.modMachine m f).qu = s.qu := rfl
@[simp] theorem State.modMachine_ga (s : State) (m : Fin 8) (f : StMachine → StMachine) : (s.modMachine m f).ga = s.ga := rfl
@[simp] theorem State.modMachine_mem (s : State) (m : Fin 8) (f : StMachine → StMachine) : (s.modMachine m f).mem = s.mem := rfl
@[simp] theorem State.modMachine_lg (s : State) (m : Fin 8) (f : StMachine → StMachine) : (s.modMachine m f).lg = s.lg := rfl
@[simp] theorem State.modMachine_pair (s : State) (m : Fin 8) (f : StMachine → StMachine) : (s.modMachine m f).pair = s.pair := rfl
@[simp] theorem State.modMachine_se (s : State) (m : Fin 8) (f : StMachine → StMachine) : (s.modMachine m f).se = s.se := rfl
@[simp] theorem State.modMachine_io (s : State) (m : Fin 8) (f : StMachine → StMachine) : (s.modMachine m f).io = s.io := rfl
@[simp] theorem State.modMachine_sf (s : State) (m : Fin 8) (f : StMachine → StMachine) : (s.modMachine m f).sf = s.sf := rfl
@[simp] theorem State.modMachine_sp (s : State) (m : Fin 8) (f : StMachine → StMachine) : (s.modMachine m f).sp = s.sp := rfl

@[simp] theorem State.modPair_pending (s : State) (f : Pair → Pair) : (s.modPair f).pending = s.pending := rfl
@[simp] theorem State.modPair_ident (s : State) (f : Pair → Pair) : (s.modPair f).ident = s.ident := rfl
@[simp] theorem State.modPair_pw (s : State) (f : Pair → Pair) : (s.modPair f).pw = s.pw := rfl
@[simp] theorem State.modPair_ck (s : State) (f : Pair → Pair) : (s.modPair f).ck = s.ck := rfl
@[simp] theorem State.modPair_host (s : State) (f : Pair → Pair) : (s.modPair f).host = s.host := rfl
@[simp] theorem State.modPair_service (s : State) (f : Pair → Pair) : (s.modPair f).service = s.service := rfl
@[simp] theorem State.modPair_cm (s : State) (f : Pair → Pair) : (s.modPair f).cm = s.cm := rfl
@[simp] theorem State.modPair_runs (s : State) (f : Pair → Pair) : (s.modPair f).runs = s.runs := rfl
@[simp] theorem State.modPair_mx (s : State) (f : Pair → Pair) : (s.modPair f).mx = s.mx := rfl
@[simp] theorem State.modPair_en (s : State) (f : Pair → Pair) : (s.modPair f).en = s.en := rfl
@[simp] theorem State.modPair_ev (s : State) (f : Pair → Pair) : (s.modPair f).ev = s.ev := rfl
@[simp] theorem State.modPair_qu (s : State) (f : Pair → Pair) : (s.modPair f).qu = s.qu := rfl
@[simp] theorem State.modPair_ga (s : State) (f : Pair → Pair) : (s.modPair f).ga = s.ga := rfl
@[simp] theorem State.modPair_mem (s : State) (f : Pair → Pair) : (s.modPair f).mem = s.mem := rfl
@[simp] theorem State.modPair_lg (s : State) (f : Pair → Pair) : (s.modPair f).lg = s.lg := rfl
@[simp] theorem State.modPair_se (s : State) (f : Pair → Pair) : (s.modPair f).se = s.se := rfl
@[simp] theorem State.modPair_io (s : State) (f : Pair → Pair) : (s.modPair f).io = s.io := rfl
@[simp] theorem State.modPair_sf (s : State) (f : Pair → Pair) : (s.modPair f).sf = s.sf := rfl
@[simp] theorem State.modPair_sp (s : State) (f : Pair → Pair) : (s.modPair f).sp = s.sp := rfl

@[simp] theorem State.modCo_pending (s : State) (x : Fin 4) (f : Co → Co) : (s.modCo x f).pending = s.pending := rfl
@[simp] theorem State.modCo_ident (s : State) (x : Fin 4) (f : Co → Co) : (s.modCo x f).ident = s.ident := rfl
@[simp] theorem State.modCo_pw (s : State) (x : Fin 4) (f : Co → Co) : (s.modCo x f).pw = s.pw := rfl
@[simp] theorem State.modCo_ck (s : State) (x : Fin 4) (f : Co → Co) : (s.modCo x f).ck = s.ck := rfl
@[simp] theorem State.modCo_host (s : State) (x : Fin 4) (f : Co → Co) : (s.modCo x f).host = s.host := rfl
@[simp] theorem State.modCo_service (s : State) (x : Fin 4) (f : Co → Co) : (s.modCo x f).service = s.service := rfl
@[simp] theorem State.modCo_cm (s : State) (x : Fin 4) (f : Co → Co) : (s.modCo x f).cm = s.cm := rfl
@[simp] theorem State.modCo_runs (s : State) (x : Fin 4) (f : Co → Co) : (s.modCo x f).runs = s.runs := rfl
@[simp] theorem State.modCo_mx (s : State) (x : Fin 4) (f : Co → Co) : (s.modCo x f).mx = s.mx := rfl
@[simp] theorem State.modCo_en (s : State) (x : Fin 4) (f : Co → Co) : (s.modCo x f).en = s.en := rfl
@[simp] theorem State.modCo_ev (s : State) (x : Fin 4) (f : Co → Co) : (s.modCo x f).ev = s.ev := rfl
@[simp] theorem State.modCo_qu (s : State) (x : Fin 4) (f : Co → Co) : (s.modCo x f).qu = s.qu := rfl
@[simp] theorem State.modCo_ga (s : State) (x : Fin 4) (f : Co → Co) : (s.modCo x f).ga = s.ga := rfl
@[simp] theorem State.modCo_mem (s : State) (x : Fin 4) (f : Co → Co) : (s.modCo x f).mem = s.mem := rfl
@[simp] theorem State.modCo_lg (s : State) (x : Fin 4) (f : Co → Co) : (s.modCo x f).lg = s.lg := rfl
@[simp] theorem State.modCo_pair (s : State) (x : Fin 4) (f : Co → Co) : (s.modCo x f).pair = s.pair := rfl
@[simp] theorem State.modCo_se (s : State) (x : Fin 4) (f : Co → Co) : (s.modCo x f).se = s.se := rfl
@[simp] theorem State.modCo_sf (s : State) (x : Fin 4) (f : Co → Co) : (s.modCo x f).sf = s.sf := rfl
@[simp] theorem State.modCo_sp (s : State) (x : Fin 4) (f : Co → Co) : (s.modCo x f).sp = s.sp := rfl

@[simp] theorem State.modPo_pending (s : State) (x : Fin 4) (f : Po → Po) : (s.modPo x f).pending = s.pending := rfl
@[simp] theorem State.modPo_ident (s : State) (x : Fin 4) (f : Po → Po) : (s.modPo x f).ident = s.ident := rfl
@[simp] theorem State.modPo_pw (s : State) (x : Fin 4) (f : Po → Po) : (s.modPo x f).pw = s.pw := rfl
@[simp] theorem State.modPo_ck (s : State) (x : Fin 4) (f : Po → Po) : (s.modPo x f).ck = s.ck := rfl
@[simp] theorem State.modPo_host (s : State) (x : Fin 4) (f : Po → Po) : (s.modPo x f).host = s.host := rfl
@[simp] theorem State.modPo_service (s : State) (x : Fin 4) (f : Po → Po) : (s.modPo x f).service = s.service := rfl
@[simp] theorem State.modPo_cm (s : State) (x : Fin 4) (f : Po → Po) : (s.modPo x f).cm = s.cm := rfl
@[simp] theorem State.modPo_runs (s : State) (x : Fin 4) (f : Po → Po) : (s.modPo x f).runs = s.runs := rfl
@[simp] theorem State.modPo_mx (s : State) (x : Fin 4) (f : Po → Po) : (s.modPo x f).mx = s.mx := rfl
@[simp] theorem State.modPo_en (s : State) (x : Fin 4) (f : Po → Po) : (s.modPo x f).en = s.en := rfl
@[simp] theorem State.modPo_ev (s : State) (x : Fin 4) (f : Po → Po) : (s.modPo x f).ev = s.ev := rfl
@[simp] theorem State.modPo_qu (s : State) (x : Fin 4) (f : Po → Po) : (s.modPo x f).qu = s.qu := rfl
@[simp] theorem State.modPo_ga (s : State) (x : Fin 4) (f : Po → Po) : (s.modPo x f).ga = s.ga := rfl
@[simp] theorem State.modPo_mem (s : State) (x : Fin 4) (f : Po → Po) : (s.modPo x f).mem = s.mem := rfl
@[simp] theorem State.modPo_lg (s : State) (x : Fin 4) (f : Po → Po) : (s.modPo x f).lg = s.lg := rfl
@[simp] theorem State.modPo_pair (s : State) (x : Fin 4) (f : Po → Po) : (s.modPo x f).pair = s.pair := rfl
@[simp] theorem State.modPo_se (s : State) (x : Fin 4) (f : Po → Po) : (s.modPo x f).se = s.se := rfl
@[simp] theorem State.modPo_sf (s : State) (x : Fin 4) (f : Po → Po) : (s.modPo x f).sf = s.sf := rfl
@[simp] theorem State.modPo_sp (s : State) (x : Fin 4) (f : Po → Po) : (s.modPo x f).sp = s.sp := rfl

@[simp] theorem State.modDi_pending (s : State) (x : Fin 4) (f : Di → Di) : (s.modDi x f).pending = s.pending := rfl
@[simp] theorem State.modDi_ident (s : State) (x : Fin 4) (f : Di → Di) : (s.modDi x f).ident = s.ident := rfl
@[simp] theorem State.modDi_pw (s : State) (x : Fin 4) (f : Di → Di) : (s.modDi x f).pw = s.pw := rfl
@[simp] theorem State.modDi_ck (s : State) (x : Fin 4) (f : Di → Di) : (s.modDi x f).ck = s.ck := rfl
@[simp] theorem State.modDi_host (s : State) (x : Fin 4) (f : Di → Di) : (s.modDi x f).host = s.host := rfl
@[simp] theorem State.modDi_service (s : State) (x : Fin 4) (f : Di → Di) : (s.modDi x f).service = s.service := rfl
@[simp] theorem State.modDi_cm (s : State) (x : Fin 4) (f : Di → Di) : (s.modDi x f).cm = s.cm := rfl
@[simp] theorem State.modDi_runs (s : State) (x : Fin 4) (f : Di → Di) : (s.modDi x f).runs = s.runs := rfl
@[simp] theorem State.modDi_mx (s : State) (x : Fin 4) (f : Di → Di) : (s.modDi x f).mx = s.mx := rfl
@[simp] theorem State.modDi_en (s : State) (x : Fin 4) (f : Di → Di) : (s.modDi x f).en = s.en := rfl
@[simp] theorem State.modDi_ev (s : State) (x : Fin 4) (f : Di → Di) : (s.modDi x f).ev = s.ev := rfl
@[simp] theorem State.modDi_qu (s : State) (x : Fin 4) (f : Di → Di) : (s.modDi x f).qu = s.qu := rfl
@[simp] theorem State.modDi_ga (s : State) (x : Fin 4) (f : Di → Di) : (s.modDi x f).ga = s.ga := rfl
@[simp] theorem State.modDi_mem (s : State) (x : Fin 4) (f : Di → Di) : (s.modDi x f).mem = s.mem := rfl
@[simp] theorem State.modDi_lg (s : State) (x : Fin 4) (f : Di → Di) : (s.modDi x f).lg = s.lg := rfl
@[simp] theorem State.modDi_pair (s : State) (x : Fin 4) (f : Di → Di) : (s.modDi x f).pair = s.pair := rfl
@[simp] theorem State.modDi_se (s : State) (x : Fin 4) (f : Di → Di) : (s.modDi x f).se = s.se := rfl
@[simp] theorem State.modDi_sf (s : State) (x : Fin 4) (f : Di → Di) : (s.modDi x f).sf = s.sf := rfl
@[simp] theorem State.modDi_sp (s : State) (x : Fin 4) (f : Di → Di) : (s.modDi x f).sp = s.sp := rfl

@[simp] theorem State.modSafe_pending (s : State) (f : Safe → Safe) : (s.modSafe f).pending = s.pending := rfl
@[simp] theorem State.modSafe_ident (s : State) (f : Safe → Safe) : (s.modSafe f).ident = s.ident := rfl
@[simp] theorem State.modSafe_pw (s : State) (f : Safe → Safe) : (s.modSafe f).pw = s.pw := rfl
@[simp] theorem State.modSafe_ck (s : State) (f : Safe → Safe) : (s.modSafe f).ck = s.ck := rfl
@[simp] theorem State.modSafe_host (s : State) (f : Safe → Safe) : (s.modSafe f).host = s.host := rfl
@[simp] theorem State.modSafe_service (s : State) (f : Safe → Safe) : (s.modSafe f).service = s.service := rfl
@[simp] theorem State.modSafe_cm (s : State) (f : Safe → Safe) : (s.modSafe f).cm = s.cm := rfl
@[simp] theorem State.modSafe_runs (s : State) (f : Safe → Safe) : (s.modSafe f).runs = s.runs := rfl
@[simp] theorem State.modSafe_mx (s : State) (f : Safe → Safe) : (s.modSafe f).mx = s.mx := rfl
@[simp] theorem State.modSafe_en (s : State) (f : Safe → Safe) : (s.modSafe f).en = s.en := rfl
@[simp] theorem State.modSafe_ev (s : State) (f : Safe → Safe) : (s.modSafe f).ev = s.ev := rfl
@[simp] theorem State.modSafe_qu (s : State) (f : Safe → Safe) : (s.modSafe f).qu = s.qu := rfl
@[simp] theorem State.modSafe_ga (s : State) (f : Safe → Safe) : (s.modSafe f).ga = s.ga := rfl
@[simp] theorem State.modSafe_mem (s : State) (f : Safe → Safe) : (s.modSafe f).mem = s.mem := rfl
@[simp] theorem State.modSafe_lg (s : State) (f : Safe → Safe) : (s.modSafe f).lg = s.lg := rfl
@[simp] theorem State.modSafe_pair (s : State) (f : Safe → Safe) : (s.modSafe f).pair = s.pair := rfl
@[simp] theorem State.modSafe_se (s : State) (f : Safe → Safe) : (s.modSafe f).se = s.se := rfl
@[simp] theorem State.modSafe_io (s : State) (f : Safe → Safe) : (s.modSafe f).io = s.io := rfl
@[simp] theorem State.modSafe_sp (s : State) (f : Safe → Safe) : (s.modSafe f).sp = s.sp := rfl

@[simp] theorem State.modSettle_pending (s : State) (run : Nat) (f : SettleRun → SettleRun) : (s.modSettle run f).pending = s.pending := rfl
@[simp] theorem State.modSettle_ident (s : State) (run : Nat) (f : SettleRun → SettleRun) : (s.modSettle run f).ident = s.ident := rfl
@[simp] theorem State.modSettle_pw (s : State) (run : Nat) (f : SettleRun → SettleRun) : (s.modSettle run f).pw = s.pw := rfl
@[simp] theorem State.modSettle_ck (s : State) (run : Nat) (f : SettleRun → SettleRun) : (s.modSettle run f).ck = s.ck := rfl
@[simp] theorem State.modSettle_host (s : State) (run : Nat) (f : SettleRun → SettleRun) : (s.modSettle run f).host = s.host := rfl
@[simp] theorem State.modSettle_service (s : State) (run : Nat) (f : SettleRun → SettleRun) : (s.modSettle run f).service = s.service := rfl
@[simp] theorem State.modSettle_cm (s : State) (run : Nat) (f : SettleRun → SettleRun) : (s.modSettle run f).cm = s.cm := rfl
@[simp] theorem State.modSettle_runs (s : State) (run : Nat) (f : SettleRun → SettleRun) : (s.modSettle run f).runs = s.runs := rfl
@[simp] theorem State.modSettle_mx (s : State) (run : Nat) (f : SettleRun → SettleRun) : (s.modSettle run f).mx = s.mx := rfl
@[simp] theorem State.modSettle_en (s : State) (run : Nat) (f : SettleRun → SettleRun) : (s.modSettle run f).en = s.en := rfl
@[simp] theorem State.modSettle_ev (s : State) (run : Nat) (f : SettleRun → SettleRun) : (s.modSettle run f).ev = s.ev := rfl
@[simp] theorem State.modSettle_qu (s : State) (run : Nat) (f : SettleRun → SettleRun) : (s.modSettle run f).qu = s.qu := rfl
@[simp] theorem State.modSettle_ga (s : State) (run : Nat) (f : SettleRun → SettleRun) : (s.modSettle run f).ga = s.ga := rfl
@[simp] theorem State.modSettle_mem (s : State) (run : Nat) (f : SettleRun → SettleRun) : (s.modSettle run f).mem = s.mem := rfl
@[simp] theorem State.modSettle_lg (s : State) (run : Nat) (f : SettleRun → SettleRun) : (s.modSettle run f).lg = s.lg := rfl
@[simp] theorem State.modSettle_pair (s : State) (run : Nat) (f : SettleRun → SettleRun) : (s.modSettle run f).pair = s.pair := rfl
@[simp] theorem State.modSettle_io (s : State) (run : Nat) (f : SettleRun → SettleRun) : (s.modSettle run f).io = s.io := rfl
@[simp] theorem State.modSettle_sf (s : State) (run : Nat) (f : SettleRun → SettleRun) : (s.modSettle run f).sf = s.sf := rfl
@[simp] theorem State.modSettle_sp (s : State) (run : Nat) (f : SettleRun → SettleRun) : (s.modSettle run f).sp = s.sp := rfl

@[simp] theorem State.modRecog_pending (s : State) (r : Run) (f : RecogRun → RecogRun) : (s.modRecog r f).pending = s.pending := rfl
@[simp] theorem State.modRecog_ident (s : State) (r : Run) (f : RecogRun → RecogRun) : (s.modRecog r f).ident = s.ident := rfl
@[simp] theorem State.modRecog_pw (s : State) (r : Run) (f : RecogRun → RecogRun) : (s.modRecog r f).pw = s.pw := rfl
@[simp] theorem State.modRecog_ck (s : State) (r : Run) (f : RecogRun → RecogRun) : (s.modRecog r f).ck = s.ck := rfl
@[simp] theorem State.modRecog_host (s : State) (r : Run) (f : RecogRun → RecogRun) : (s.modRecog r f).host = s.host := rfl
@[simp] theorem State.modRecog_service (s : State) (r : Run) (f : RecogRun → RecogRun) : (s.modRecog r f).service = s.service := rfl
@[simp] theorem State.modRecog_cm (s : State) (r : Run) (f : RecogRun → RecogRun) : (s.modRecog r f).cm = s.cm := rfl
@[simp] theorem State.modRecog_mx (s : State) (r : Run) (f : RecogRun → RecogRun) : (s.modRecog r f).mx = s.mx := rfl
@[simp] theorem State.modRecog_en (s : State) (r : Run) (f : RecogRun → RecogRun) : (s.modRecog r f).en = s.en := rfl
@[simp] theorem State.modRecog_ev (s : State) (r : Run) (f : RecogRun → RecogRun) : (s.modRecog r f).ev = s.ev := rfl
@[simp] theorem State.modRecog_qu (s : State) (r : Run) (f : RecogRun → RecogRun) : (s.modRecog r f).qu = s.qu := rfl
@[simp] theorem State.modRecog_ga (s : State) (r : Run) (f : RecogRun → RecogRun) : (s.modRecog r f).ga = s.ga := rfl
@[simp] theorem State.modRecog_mem (s : State) (r : Run) (f : RecogRun → RecogRun) : (s.modRecog r f).mem = s.mem := rfl
@[simp] theorem State.modRecog_lg (s : State) (r : Run) (f : RecogRun → RecogRun) : (s.modRecog r f).lg = s.lg := rfl
@[simp] theorem State.modRecog_pair (s : State) (r : Run) (f : RecogRun → RecogRun) : (s.modRecog r f).pair = s.pair := rfl
@[simp] theorem State.modRecog_se (s : State) (r : Run) (f : RecogRun → RecogRun) : (s.modRecog r f).se = s.se := rfl
@[simp] theorem State.modRecog_io (s : State) (r : Run) (f : RecogRun → RecogRun) : (s.modRecog r f).io = s.io := rfl
@[simp] theorem State.modRecog_sf (s : State) (r : Run) (f : RecogRun → RecogRun) : (s.modRecog r f).sf = s.sf := rfl
@[simp] theorem State.modRecog_sp (s : State) (r : Run) (f : RecogRun → RecogRun) : (s.modRecog r f).sp = s.sp := rfl

@[simp] theorem State.modBuf_pending (s : State) (k : Fin 17) (b : StreamBuf) : (s.modBuf k b).pending = s.pending := rfl
@[simp] theorem State.modBuf_ident (s : State) (k : Fin 17) (b : StreamBuf) : (s.modBuf k b).ident = s.ident := rfl
@[simp] theorem State.modBuf_pw (s : State) (k : Fin 17) (b : StreamBuf) : (s.modBuf k b).pw = s.pw := rfl
@[simp] theorem State.modBuf_ck (s : State) (k : Fin 17) (b : StreamBuf) : (s.modBuf k b).ck = s.ck := rfl
@[simp] theorem State.modBuf_host (s : State) (k : Fin 17) (b : StreamBuf) : (s.modBuf k b).host = s.host := rfl
@[simp] theorem State.modBuf_service (s : State) (k : Fin 17) (b : StreamBuf) : (s.modBuf k b).service = s.service := rfl
@[simp] theorem State.modBuf_cm (s : State) (k : Fin 17) (b : StreamBuf) : (s.modBuf k b).cm = s.cm := rfl
@[simp] theorem State.modBuf_runs (s : State) (k : Fin 17) (b : StreamBuf) : (s.modBuf k b).runs = s.runs := rfl
@[simp] theorem State.modBuf_mx (s : State) (k : Fin 17) (b : StreamBuf) : (s.modBuf k b).mx = s.mx := rfl
@[simp] theorem State.modBuf_ev (s : State) (k : Fin 17) (b : StreamBuf) : (s.modBuf k b).ev = s.ev := rfl
@[simp] theorem State.modBuf_qu (s : State) (k : Fin 17) (b : StreamBuf) : (s.modBuf k b).qu = s.qu := rfl
@[simp] theorem State.modBuf_ga (s : State) (k : Fin 17) (b : StreamBuf) : (s.modBuf k b).ga = s.ga := rfl
@[simp] theorem State.modBuf_mem (s : State) (k : Fin 17) (b : StreamBuf) : (s.modBuf k b).mem = s.mem := rfl
@[simp] theorem State.modBuf_lg (s : State) (k : Fin 17) (b : StreamBuf) : (s.modBuf k b).lg = s.lg := rfl
@[simp] theorem State.modBuf_pair (s : State) (k : Fin 17) (b : StreamBuf) : (s.modBuf k b).pair = s.pair := rfl
@[simp] theorem State.modBuf_se (s : State) (k : Fin 17) (b : StreamBuf) : (s.modBuf k b).se = s.se := rfl
@[simp] theorem State.modBuf_io (s : State) (k : Fin 17) (b : StreamBuf) : (s.modBuf k b).io = s.io := rfl
@[simp] theorem State.modBuf_sf (s : State) (k : Fin 17) (b : StreamBuf) : (s.modBuf k b).sf = s.sf := rfl
@[simp] theorem State.modBuf_sp (s : State) (k : Fin 17) (b : StreamBuf) : (s.modBuf k b).sp = s.sp := rfl

@[simp] theorem State.modBuf_buf (s : State) (k : Fin 17) (b : StreamBuf) : (s.modBuf k b).en.bufs[k] = b := by
  simp [State.modBuf]

@[simp] theorem State.modLine_pending (s : State) (l : Line) (f : LineSt → LineSt) : (s.modLine l f).pending = s.pending := by
  cases l <;> rfl
@[simp] theorem State.modLine_ident (s : State) (l : Line) (f : LineSt → LineSt) : (s.modLine l f).ident = s.ident := by
  cases l <;> rfl
@[simp] theorem State.modLine_pw (s : State) (l : Line) (f : LineSt → LineSt) : (s.modLine l f).pw = s.pw := by
  cases l <;> rfl
@[simp] theorem State.modLine_ck (s : State) (l : Line) (f : LineSt → LineSt) : (s.modLine l f).ck = s.ck := by
  cases l <;> rfl
@[simp] theorem State.modLine_cm (s : State) (l : Line) (f : LineSt → LineSt) : (s.modLine l f).cm = s.cm := by
  cases l <;> rfl
@[simp] theorem State.modLine_runs (s : State) (l : Line) (f : LineSt → LineSt) : (s.modLine l f).runs = s.runs := by
  cases l <;> rfl
@[simp] theorem State.modLine_mx (s : State) (l : Line) (f : LineSt → LineSt) : (s.modLine l f).mx = s.mx := by
  cases l <;> rfl
@[simp] theorem State.modLine_en (s : State) (l : Line) (f : LineSt → LineSt) : (s.modLine l f).en = s.en := by
  cases l <;> rfl
@[simp] theorem State.modLine_ev (s : State) (l : Line) (f : LineSt → LineSt) : (s.modLine l f).ev = s.ev := by
  cases l <;> rfl
@[simp] theorem State.modLine_qu (s : State) (l : Line) (f : LineSt → LineSt) : (s.modLine l f).qu = s.qu := by
  cases l <;> rfl
@[simp] theorem State.modLine_ga (s : State) (l : Line) (f : LineSt → LineSt) : (s.modLine l f).ga = s.ga := by
  cases l <;> rfl
@[simp] theorem State.modLine_mem (s : State) (l : Line) (f : LineSt → LineSt) : (s.modLine l f).mem = s.mem := by
  cases l <;> rfl
@[simp] theorem State.modLine_lg (s : State) (l : Line) (f : LineSt → LineSt) : (s.modLine l f).lg = s.lg := by
  cases l <;> rfl
@[simp] theorem State.modLine_pair (s : State) (l : Line) (f : LineSt → LineSt) : (s.modLine l f).pair = s.pair := by
  cases l <;> rfl
@[simp] theorem State.modLine_se (s : State) (l : Line) (f : LineSt → LineSt) : (s.modLine l f).se = s.se := by
  cases l <;> rfl
@[simp] theorem State.modLine_io (s : State) (l : Line) (f : LineSt → LineSt) : (s.modLine l f).io = s.io := by
  cases l <;> rfl
@[simp] theorem State.modLine_sf (s : State) (l : Line) (f : LineSt → LineSt) : (s.modLine l f).sf = s.sf := by
  cases l <;> rfl
@[simp] theorem State.modLine_sp (s : State) (l : Line) (f : LineSt → LineSt) : (s.modLine l f).sp = s.sp := by
  cases l <;> rfl

@[simp] theorem State.modLine_line (s : State) (l : Line) (f : LineSt → LineSt) : (s.modLine l f).line l = f (s.line l) := by
  cases l <;> rfl

@[simp] theorem State.modQueue_qu (s : State) (f : Queue → Queue) : (s.modQueue f).qu = f s.qu := rfl
@[simp] theorem State.modPair_pair (s : State) (f : Pair → Pair) : (s.modPair f).pair = f s.pair := rfl
@[simp] theorem State.modSafe_sf (s : State) (f : Safe → Safe) : (s.modSafe f).sf = f s.sf := rfl

@[simp] theorem State.modRun_run (s : State) (r : Run) (f : RunSt → RunSt) : (s.modRun r f).runs[r] = f s.runs[r] := by
  simp [State.modRun]

@[simp] theorem State.modChan_chan (s : State) (g : Channel) (f : Chan → Chan) :
    (s.modChan g f).ga.chans[g] = f s.ga.chans[g] := by
  simp [State.modChan]

@[simp] theorem State.modMachine_machine (s : State) (m : Fin 8) (f : StMachine → StMachine) :
    (s.modMachine m f).ev.machines[m] = f s.ev.machines[m] := by
  simp [State.modMachine]

@[simp] theorem State.modCo_co (s : State) (x : Fin 4) (f : Co → Co) : (s.modCo x f).io.co[x] = f s.io.co[x] := by
  simp [State.modCo]

@[simp] theorem State.modPo_po (s : State) (x : Fin 4) (f : Po → Po) : (s.modPo x f).io.po[x] = f s.io.po[x] := by
  simp [State.modPo]

@[simp] theorem State.modDi_di (s : State) (x : Fin 4) (f : Di → Di) : (s.modDi x f).io.di[x] = f s.io.di[x] := by
  simp [State.modDi]

theorem State.modRun_other (s : State) (r q : Run) (f : RunSt → RunSt) (h : q ≠ r) :
    (s.modRun r f).runs[q] = s.runs[q] := by
  have h' : r.val ≠ q.val := fun e => h (Fin.ext e.symm)
  simp [State.modRun, h']

theorem State.modChan_other (s : State) (g k : Channel) (f : Chan → Chan) (h : k ≠ g) :
    (s.modChan g f).ga.chans[k] = s.ga.chans[k] := by
  have h' : g.val ≠ k.val := fun e => h (Fin.ext e.symm)
  simp [State.modChan, h']

/-! What a line transmits. -/

@[simp] theorem LineSt.echo_sent (x : LineSt) (cs : List Char) : (x.echo cs).sent = x.sent := rfl
@[simp] theorem LineSt.echo_buf (x : LineSt) (cs : List Char) : (x.echo cs).buf = x.buf := rfl
@[simp] theorem LineSt.echo_queue (x : LineSt) (cs : List Char) : (x.echo cs).queue = x.queue := rfl
@[simp] theorem LineSt.echo_role (x : LineSt) (cs : List Char) : (x.echo cs).role = x.role := rfl
@[simp] theorem LineSt.say_sent (x : LineSt) (ts : List String) : (x.say ts).sent = x.sent ++ ts := rfl
@[simp] theorem LineSt.say_buf (x : LineSt) (ts : List String) : (x.say ts).buf = x.buf := rfl
@[simp] theorem LineSt.say_queue (x : LineSt) (ts : List String) : (x.say ts).queue = x.queue := rfl
@[simp] theorem LineSt.say_role (x : LineSt) (ts : List String) : (x.say ts).role = x.role := rfl

/-! Everything of the module but the lines. -/

/-- Two states that differ in the lines alone. -/
def sameBody (s t : State) : Prop := ∃ h v, t = { s with host := h, service := v }

theorem sameBody.refl (s : State) : sameBody s s := ⟨s.host, s.service, rfl⟩

theorem sameBody.trans {s t u : State} (a : sameBody s t) (b : sameBody t u) : sameBody s u := by
  obtain ⟨h, v, rfl⟩ := a
  obtain ⟨h2, v2, rfl⟩ := b
  exact ⟨h2, v2, rfl⟩

theorem sameBody_modLine (s : State) (l : Line) (f : LineSt → LineSt) : sameBody s (s.modLine l f) := by
  cases l
  · exact ⟨f s.host, s.service, rfl⟩
  · exact ⟨s.host, f s.service, rfl⟩

theorem sameBody_foldl {α : Type} (g : State → α → State) (hg : ∀ s a, sameBody s (g s a)) :
    ∀ (xs : List α) (s : State), sameBody s (xs.foldl g s)
  | [], s => sameBody.refl s
  | x :: xs, s => (hg s x).trans (sameBody_foldl g hg xs (g s x))

end Sys2Proof.Machine
end

