-- ==== Sys2Proof/Laws/Lines.lean ====
section
/-! SUPPORT. What talking on the lines and booking in the ledger can do to the module: `Talked` and `Booked` hold of every
shared operation that answers, notes, audits or queues, and a line command's outcome in terms of its body. -/

namespace Sys2Proof.Machine

/-! ## Lines -/

theorem LineSt.talks_refl (x : LineSt) : x.talks x := rfl

theorem LineSt.talks_trans {x y z : LineSt} (a : x.talks y) (b : y.talks z) : x.talks z := by
  unfold LineSt.talks at *
  rw [b, a]

theorem Talked.refl (s : State) : Talked s s := ⟨rfl, rfl, rfl⟩

theorem Talked.trans {s t u : State} (a : Talked s t) (b : Talked t u) : Talked s u := by
  obtain ⟨a1, a2, a3⟩ := a
  obtain ⟨b1, b2, b3⟩ := b
  refine ⟨?_, LineSt.talks_trans a2 b2, LineSt.talks_trans a3 b3⟩
  rw [b1, a1]

theorem Talked.modLine (s : State) (l : Line) (f : LineSt → LineSt) (h : ∀ x : LineSt, x.talks (f x)) :
    Talked s (s.modLine l f) := by
  cases l
  · exact ⟨rfl, h _, rfl⟩
  · exact ⟨rfl, rfl, h _⟩

theorem Talked.foldl {α : Type} (g : State → α → State) (hg : ∀ s a, Talked s (g s a)) :
    ∀ (xs : List α) (s : State), Talked s (xs.foldl g s)
  | [], s => Talked.refl s
  | x :: xs, s => (hg s x).trans (Talked.foldl g hg xs (g s x))

theorem sendText_talked (s : State) (l : Line) (text : String) : Talked s (sendText s l text) := by
  unfold sendText
  refine Talked.modLine s l _ ?_
  intro x
  rfl

theorem sendReplies_talked (l : Line) (tag : Option Nat) (lines : List String) (s : State) :
    Talked s (sendReplies l tag lines s) :=
  Talked.modLine s l _ fun _ => rfl

theorem pump_talked (l : Line) (s : State) : Talked s (pump l s) :=
  Talked.modLine s l _ fun _ => rfl

theorem endLine_talks (now : Nat) (x : LineSt) : x.talks (endLine now x) := by
  unfold endLine; split <;> rfl

theorem pushNote_talks (w : Bool) (text : String) (x : LineSt) : x.talks (pushNote w text x) := by
  unfold pushNote; repeat' split
  all_goals rfl

theorem noteTo_talked (l : Line) (text : String) (s : State) : Talked s (noteTo l text s) := by
  unfold noteTo
  split
  · exact Talked.modLine s l _ (pushNote_talks _ _)
  · exact Talked.refl s

theorem noteAll_talked (text : String) (s : State) : Talked s (noteAll text s) :=
  (noteTo_talked .host text s).trans (noteTo_talked .service text _)

theorem noteSeries_talked (l : Line) (texts : List String) (s : State) : Talked s (noteSeries l texts s) := by
  unfold noteSeries
  split
  · exact Talked.modLine s l _ fun _ => rfl
  · exact Talked.refl s

theorem flushLine_talked (l : Line) (s : State) : Talked s (flushLine l s) := by
  unfold flushLine
  dsimp only
  split
  · refine Talked.trans (Talked.modLine s l _ ?_) (Talked.foldl _ (fun t n => sendText_talked t l _) _ _)
    intro x
    rfl
  · exact Talked.refl s

theorem flushNotes_talked (s : State) : Talked s (flushNotes s) :=
  (flushLine_talked .host s).trans (flushLine_talked .service _)

/-! ## What has been sent stays sent -/

/-- What stood as sent on a line still does, at the front. -/
def sentOn (l : Line) (s t : State) : Prop := ∃ more, (t.line l).sent = (s.line l).sent ++ more

theorem sentOn.refl (l : Line) (s : State) : sentOn l s s := ⟨[], by simp⟩

theorem sentOn.trans {l : Line} {s t u : State} (a : sentOn l s t) (b : sentOn l t u) : sentOn l s u := by
  obtain ⟨m, hm⟩ := a
  obtain ⟨n, hn⟩ := b
  exact ⟨m ++ n, by rw [hn, hm, List.append_assoc]⟩

theorem sentOn.modLine (l k : Line) (s : State) (f : LineSt → LineSt) (h : ∀ x, ∃ more, (f x).sent = x.sent ++ more) :
    sentOn l s (s.modLine k f) := by
  cases l <;> cases k
  all_goals first | exact h _ | exact ⟨[], by simp [State.line, State.modLine]⟩

theorem sentOn.foldl {α : Type} (l : Line) (g : State → α → State) (hg : ∀ s a, sentOn l s (g s a)) :
    ∀ (xs : List α) (s : State), sentOn l s (xs.foldl g s)
  | [], s => sentOn.refl l s
  | x :: xs, s => (hg s x).trans (sentOn.foldl l g hg xs (g s x))

theorem flushLine_sent (l k : Line) (s : State) : sentOn l s (flushLine k s) := by
  unfold flushLine
  dsimp only
  split
  · refine (sentOn.modLine l k s _ fun x => ⟨[], by simp⟩).trans (sentOn.foldl l _ (fun t n => ?_) _ _)
    exact sentOn.modLine l k t _ fun x => ⟨_, rfl⟩
  · exact sentOn.refl l s

theorem flushNotes_sent (l : Line) (s : State) : sentOn l s (flushNotes s) :=
  (flushLine_sent l .host s).trans (flushLine_sent l .service _)

theorem pump_sent (l k : Line) (s : State) : sentOn l s (pump k s) :=
  sentOn.modLine l k s _ fun _ => ⟨_, rfl⟩

/-! ## A line command -/

theorem endLine_sent (now : Nat) (x : LineSt) : (endLine now x).sent = x.sent := by
  unfold endLine; split <;> rfl

/-- A served line command whose body answers `lines` in state `t`. -/
theorem runLine_ok {rq : Req} {verb : String} {body : Body} {s t : State} {lines : List String}
    (hs : linesUp s = true) (hb : body s = .ok (t, lines)) :
    ∃ w, done (runLine rq verb body s) = .next w ∧ Talked t w ∧
      ∃ more, (w.line rq.line).sent = (t.line rq.line).sent ++ lines.map (replyText rq.tag) ++ more := by
  refine ⟨_, rfl, ?_, ?_⟩
  · simp only [runLine, hs, hb, if_true]
    exact (((sendReplies_talked _ _ _ _).trans (Talked.modLine _ _ _ (endLine_talks _))).trans (pump_talked _ _)).trans
      (flushNotes_talked _)
  · simp only [runLine, hs, hb, if_true]
    obtain ⟨m, hm⟩ := (pump_sent rq.line rq.line
      ((sendReplies rq.line rq.tag lines t).modLine rq.line (endLine s.ck.mono))).trans (flushNotes_sent rq.line _)
    refine ⟨m, ?_⟩
    rw [hm]
    simp [endLine_sent, sendReplies]

/-- A served line command that is refused: its one reply, and nothing else. -/
theorem runLine_error {rq : Req} {verb : String} {body : Body} {s : State} {r : Reason}
    (hs : linesUp s = true) (hb : body s = .error r) :
    ∃ w, done (runLine rq verb body s) = .next w ∧ Replied rq [refusal verb s r] s w ∧ Talked s w := by
  refine ⟨_, rfl, ?_, ?_⟩
  · simp only [runLine, hs, hb, if_true]
    obtain ⟨m, hm⟩ := (pump_sent rq.line rq.line ((sendReplies rq.line rq.tag [refusal verb s r] s).modLine rq.line
      (endLine s.ck.mono))).trans (flushNotes_sent rq.line _)
    refine ⟨m, ?_⟩
    rw [hm]
    simp [endLine_sent, sendReplies]
  · simp only [runLine, hs, hb, if_true]
    exact (((sendReplies_talked _ _ _ _).trans (Talked.modLine _ _ _ (endLine_talks _))).trans (pump_talked _ _)).trans
      (flushNotes_talked _)

theorem flushNotes_down {s : State} (hs : linesUp s = false) : flushNotes s = s := by
  simp [flushNotes, flushLine, canSend, hs]

/-- A line command on lines that are not served does nothing. -/
theorem runLine_down {rq : Req} {verb : String} {body : Body} {s : State} (hs : linesUp s = false) :
    done (runLine rq verb body s) = .next s := by
  simp [done, runLine, hs, flushNotes_down hs]

/-- As an answered statement: the body's next state leaves the line's sent text alone. -/
theorem answers_of_body {rq : Req} {i : Instr} {verb : String} {body : Body} {s u : State} {lines : List String}
    (hi : exec i s = done (runLine rq verb body s)) (hs : linesUp s = true) (hb : body s = .ok (u, lines))
    (hu : (u.line rq.line).sent = (s.line rq.line).sent) : Answers rq i s lines u := by
  obtain ⟨w, hw, ht, m, hm⟩ := runLine_ok (rq := rq) (verb := verb) hs hb
  exact ⟨w, hi.trans hw, ⟨m, by rw [hm, hu]⟩, ht⟩

theorem gives_of_done {i : Instr} {s u : State} (hi : exec i s = done u) : Gives i s u :=
  ⟨flushNotes u, hi, flushNotes_talked u⟩

/-! ## The ledger writer -/

theorem Booked.refl (s : State) : Booked s s := ⟨rfl, rfl, rfl⟩

theorem Booked.trans {s t u : State} (a : Booked s t) (b : Booked t u) : Booked s u := by
  obtain ⟨a1, a2, a3⟩ := a
  obtain ⟨b1, b2, b3⟩ := b
  refine ⟨?_, LineSt.talks_trans a2 b2, LineSt.talks_trans a3 b3⟩
  rw [b1, a1]

theorem Talked.booked {s t : State} (a : Talked s t) : Booked s t := by
  obtain ⟨a1, a2, a3⟩ := a
  refine ⟨?_, a2, a3⟩
  rw [a1]

theorem Booked.foldl {α : Type} (g : State → α → State) (hg : ∀ s a, Booked s (g s a)) :
    ∀ (xs : List α) (s : State), Booked s (xs.foldl g s)
  | [], s => Booked.refl s
  | x :: xs, s => (hg s x).trans (Booked.foldl g hg xs (g s x))

theorem modQueue_booked (s : State) (f : Queue → Queue) : Booked s (s.modQueue f) := ⟨rfl, rfl, rfl⟩

theorem putBytes_booked (s : State) (off : Nat) (bs : List Byte) : Booked s (putBytes s off bs) := ⟨rfl, rfl, rfl⟩

theorem writeDir_booked (s : State) : Booked s (writeDir s) := ⟨rfl, rfl, rfl⟩

theorem chains_booked (s : State) (v : Vector Chain 4) : Booked s { s with lg := { s.lg with chains := v } } :=
  ⟨rfl, rfl, rfl⟩

theorem writeChained_booked (s : State) (k : Fin 4) (d : List Byte) (parts : List (Nat × List Byte)) :
    Booked s (writeChained s k d parts) :=
  ((Booked.foldl _ (fun t p => putBytes_booked t p.1 p.2) parts s).trans (chains_booked _ _)).trans (writeDir_booked _)

/-- Only the journal queue changes. -/
def Queued (s t : State) : Prop := t = { s with qu := t.qu }

theorem Queued.refl (s : State) : Queued s s := rfl

theorem Queued.trans {s t u : State} (a : Queued s t) (b : Queued t u) : Queued s u := by
  unfold Queued at *
  rw [b, a]

theorem Queued.booked {s t : State} (a : Queued s t) : Booked s t := by
  rw [show t = s.modQueue fun _ => t.qu from a]
  exact modQueue_booked s _

theorem Queued.line {s t : State} (a : Queued s t) (l : Line) : t.line l = s.line l := by
  rw [show t = { s with qu := t.qu } from a]
  cases l <;> rfl

theorem Queued.mem {s t : State} (a : Queued s t) : t.mem = s.mem := by rw [show t = { s with qu := t.qu } from a]

theorem modQueue_queued (s : State) (f : Queue → Queue) : Queued s (s.modQueue f) := rfl

theorem settle_queued (n : Nat) (s : State) : Queued s (s.settle n) := by
  unfold State.settle
  exact modQueue_queued s _

theorem takeSeq_queued (s : State) (origin : Nat) : Queued s (takeSeq s origin).2 := rfl

theorem startPacket_queued (s : State) (w : Waiter) : Queued s (startPacket s w) := by
  unfold startPacket
  split
  · exact Queued.refl s
  · exact takeSeq_queued s _

theorem grant_queued (s : State) (w : Waiter) : Queued s (grant s w) :=
  ((startPacket_queued s w).trans (modQueue_queued _ _)).trans (settle_queued 0 _)

theorem ask_queued (s : State) (w : Waiter) : Queued s (ask s w) := by
  unfold ask
  split
  · exact grant_queued s w
  · exact modQueue_queued s _

theorem packet_queued (s : State) (origin subject : Nat) (payload : List Word) : Queued s (packet s origin subject payload) := by
  unfold packet
  split
  · exact (takeSeq_queued s _).trans (ask_queued _ _)
  · exact Queued.refl s

theorem packet_booked (s : State) (origin subject : Nat) (payload : List Word) : Booked s (packet s origin subject payload) :=
  (packet_queued s origin subject payload).booked

theorem ledgerPacket_booked (s : State) (kind : Nat) (bytes : List Byte) : Booked s (ledgerPacket s kind bytes) :=
  packet_booked _ _ _ _

theorem appendSmall_booked (s : State) (k : Fin 4) (content : List Byte) : Booked s (appendSmall s k content) :=
  (writeChained_booked _ _ _ _).trans (ledgerPacket_booked _ _ _)

theorem moduleNote_booked (s : State) (code : Nat) (payload : List Byte) : Booked s (moduleNote s code payload) :=
  appendSmall_booked _ _ _

theorem appendRing_booked (s : State) (type code : Nat) (payload : List Byte) : Booked s (appendRing s type code payload) :=
  appendSmall_booked _ _ _

theorem audit_booked (kind line role detail subject : Nat) (old new : Int) (s : State) :
    Booked s (audit kind line role detail subject old new s) := appendSmall_booked _ _ _

theorem auditLine_booked (l : Line) (kind detail subject : Nat) (old new : Int) (s : State) :
    Booked s (auditLine l kind detail subject old new s) := appendSmall_booked _ _ _

theorem ite_booked {s a b : State} {c : Prop} [Decidable c] (ha : Booked s a) (hb : Booked s b) :
    Booked s (if c then a else b) := by
  split
  · exact ha
  · exact hb

theorem shed_booked (s : State) (cls : Nat) : Booked s (shed s cls) :=
  ite_booked ((modQueue_booked s _).trans (noteAll_talked _ _).booked) (modQueue_booked s _)

/-! What is sent is no business of the ledger writer. -/

theorem putBytes_line (s : State) (off : Nat) (bs : List Byte) (l : Line) : (putBytes s off bs).line l = s.line l := by
  cases l <;> rfl

theorem putAll_line (parts : List (Nat × List Byte)) (l : Line) : ∀ s : State,
    (parts.foldl (fun t p => putBytes t p.1 p.2) s).line l = s.line l := by
  induction parts with
  | nil => intro s; rfl
  | cons p ps ih => intro s; exact (ih _).trans (putBytes_line s p.1 p.2 l)

theorem writeChained_line (s : State) (k : Fin 4) (d : List Byte) (parts : List (Nat × List Byte)) (l : Line) :
    (writeChained s k d parts).line l = s.line l := by
  refine Eq.trans ?_ (putAll_line parts l s)
  cases l <;> rfl

theorem packet_line (s : State) (origin subject : Nat) (payload : List Word) (l : Line) :
    (packet s origin subject payload).line l = s.line l := (packet_queued s origin subject payload).line l

theorem appendSmall_line (s : State) (k : Fin 4) (content : List Byte) (l : Line) :
    (appendSmall s k content).line l = s.line l :=
  (packet_line _ _ _ _ l).trans (writeChained_line _ _ _ _ l)

@[simp] theorem audit_line (kind line role detail subject : Nat) (old new : Int) (s : State) (l : Line) :
    (audit kind line role detail subject old new s).line l = s.line l := appendSmall_line _ _ _ _

@[simp] theorem auditLine_line (k : Line) (kind detail subject : Nat) (old new : Int) (s : State) (l : Line) :
    (auditLine k kind detail subject old new s).line l = s.line l := appendSmall_line _ _ _ _

@[simp] theorem moduleNote_line (s : State) (code : Nat) (payload : List Byte) (l : Line) :
    (moduleNote s code payload).line l = s.line l := appendSmall_line _ _ _ _

theorem noteTo_sent (l : Line) (text : String) (s : State) (k : Line) :
    ((noteTo l text s).line k).sent = (s.line k).sent := by
  unfold noteTo
  split
  · cases l <;> cases k <;> simp [State.line, State.modLine, pushNote] <;> (repeat' split) <;> rfl
  · rfl

theorem noteAll_sent (text : String) (s : State) (k : Line) : ((noteAll text s).line k).sent = (s.line k).sent := by
  rw [noteAll, noteTo_sent, noteTo_sent]

/-- A line command whose body books. -/
theorem booked_of_body {rq : Req} {i : Instr} {verb : String} {body : Body} {s t u : State} {lines : List String}
    (hi : exec i s = done (runLine rq verb body s)) (hs : linesUp s = true) (hb : body s = .ok (t, lines))
    (hl : (t.line rq.line).sent = (s.line rq.line).sent) (hu : Booked u t) : AnswersBooked rq i s lines u := by
  obtain ⟨w, hw, ht, m, hm⟩ := runLine_ok (rq := rq) (verb := verb) hs hb
  exact ⟨w, hi.trans hw, ⟨m, by rw [hm, hl]⟩, hu.trans ht.booked⟩

theorem givesBooked_of_done {i : Instr} {s t u : State} (hi : exec i s = done t) (hu : Booked u t) : GivesBooked i s u :=
  ⟨flushNotes t, hi, hu.trans (flushNotes_talked t).booked⟩

end Sys2Proof.Machine
end

