-- ==== Sys2Proof/Laws/Memory.lean ====
section
/-! SUPPORT. The sorted stores: a read after a write, other places, and the canonical form, which every memory operation
keeps. -/

namespace Sys2Proof.Machine

variable {α : Type} [DecidableEq α] {blank : α}

/-- Every key of a list lies above `k`. -/
def above (k : Nat) (m : List (Nat × α)) : Prop := ∀ p ∈ m, k < p.1

theorem sorted_tail {p : Nat × α} {m : List (Nat × α)} (h : sorted blank (p :: m) = true) : sorted blank m = true := by
  cases m with
  | nil => rfl
  | cons q r => obtain ⟨a, x⟩ := p; obtain ⟨b, y⟩ := q; simp [sorted] at h; exact h.2

theorem sorted_head {a : Nat} {x : α} {m : List (Nat × α)} (h : sorted blank ((a, x) :: m) = true) : x ≠ blank := by
  cases m with
  | nil => simpa [sorted] using h
  | cons q r => obtain ⟨b, y⟩ := q; simp [sorted] at h; exact h.1.1

theorem sorted_above {a : Nat} {x : α} {m : List (Nat × α)} (h : sorted blank ((a, x) :: m) = true) : above a m := by
  induction m generalizing a x with
  | nil => intro p hp; cases hp
  | cons q r ih =>
    obtain ⟨b, y⟩ := q
    have hab : a < b := by simp [sorted] at h; exact h.1.2
    have hr := ih (sorted_tail h)
    intro p hp
    rcases List.mem_cons.mp hp with rfl | hp
    · exact hab
    · exact Nat.lt_trans hab (hr p hp)

theorem sorted_cons {a : Nat} {x : α} {m : List (Nat × α)} (hx : x ≠ blank) (ha : above a m)
    (hm : sorted blank m = true) : sorted blank ((a, x) :: m) = true := by
  cases m with
  | nil => simpa [sorted] using hx
  | cons q r =>
    obtain ⟨b, y⟩ := q
    have : a < b := ha (b, y) (List.mem_cons_self ..)
    simp [sorted, hx, this, hm]

omit [DecidableEq α] in
theorem fetch_above {k : Nat} {m : List (Nat × α)} (h : above k m) : fetch blank m k = blank := by
  induction m with
  | nil => rfl
  | cons p r ih =>
    have h1 : k < p.1 := h p (List.mem_cons_self ..)
    have h2 : above k r := fun q hq => h q (List.mem_cons_of_mem _ hq)
    obtain ⟨a, x⟩ := p
    simp only [fetch]
    rw [if_neg (Nat.ne_of_gt h1)]
    exact ih h2

theorem store_above {j k : Nat} {v : α} {m : List (Nat × α)} (hj : j < k) (h : above j m) :
    above j (store blank m k v) := by
  induction m with
  | nil =>
    intro p hp
    simp only [store] at hp
    split at hp
    · cases hp
    · rcases List.mem_cons.mp hp with rfl | hp
      · exact hj
      · cases hp
  | cons p r ih =>
    obtain ⟨a, x⟩ := p
    have ha : j < a := h (a, x) (List.mem_cons_self ..)
    have hr : above j r := fun q hq => h q (List.mem_cons_of_mem _ hq)
    intro q hq
    simp only [store] at hq
    split at hq
    · split at hq
      · exact h q hq
      · rcases List.mem_cons.mp hq with rfl | hq
        · exact hj
        · exact h q hq
    · split at hq
      · split at hq
        · exact hr q hq
        · rcases List.mem_cons.mp hq with rfl | hq
          · exact hj
          · exact hr q hq
      · rcases List.mem_cons.mp hq with rfl | hq
        · exact ha
        · exact ih hr q hq

/-- A write keeps the canonical form. -/
theorem store_sorted {m : List (Nat × α)} (h : sorted blank m = true) (k : Nat) (v : α) :
    sorted blank (store blank m k v) = true := by
  induction m with
  | nil =>
    simp only [store]
    split
    · rfl
    · rename_i hv; simpa [sorted] using hv
  | cons p r ih =>
    obtain ⟨a, x⟩ := p
    have hx := sorted_head h
    have ha := sorted_above h
    have hr := sorted_tail h
    simp only [store]
    split
    · rename_i hk
      split
      · exact h
      · rename_i hv
        refine sorted_cons hv ?_ h
        intro q hq
        rcases List.mem_cons.mp hq with rfl | hq
        · exact hk
        · exact Nat.lt_trans hk (ha q hq)
    · rename_i hk
      split
      · rename_i he
        split
        · exact hr
        · rename_i hv; subst he; exact sorted_cons hv ha hr
      · rename_i he
        exact sorted_cons hx (store_above (by omega) ha) (ih hr)

/-- A read after a write to the same place. -/
theorem fetch_store_same {m : List (Nat × α)} (h : sorted blank m = true) (k : Nat) (v : α) :
    fetch blank (store blank m k v) k = v := by
  induction m with
  | nil =>
    simp only [store]
    split
    · rename_i hv; simp [fetch, hv]
    · simp [fetch]
  | cons p r ih =>
    obtain ⟨a, x⟩ := p
    have ha := sorted_above h
    simp only [store]
    split
    · rename_i hk
      split
      · rename_i hv
        rw [hv]
        refine fetch_above ?_
        intro q hq
        rcases List.mem_cons.mp hq with rfl | hq
        · exact hk
        · exact Nat.lt_trans hk (ha q hq)
      · simp [fetch]
    · split
      · rename_i he
        split
        · rename_i hv; rw [hv, he]; exact fetch_above ha
        · simp [fetch]
      · rename_i he
        simp only [fetch]
        rw [if_neg (fun e => he e.symm)]
        exact ih (sorted_tail h)

/-- A read after a write to another place. -/
theorem fetch_store_other {m : List (Nat × α)} {j k : Nat} (hj : j ≠ k) (v : α) :
    fetch blank (store blank m k v) j = fetch blank m j := by
  induction m with
  | nil =>
    simp only [store]
    split
    · rfl
    · simp [fetch, Ne.symm hj]
  | cons p r ih =>
    obtain ⟨a, x⟩ := p
    simp only [store]
    split
    · split
      · rfl
      · simp [fetch, Ne.symm hj]
    · split
      · rename_i he
        split
        · rw [fetch.eq_2, if_neg (by omega)]
        · simp only [fetch]; rw [if_neg (Ne.symm hj), if_neg (by omega)]
      · simp only [fetch, ih]

theorem storeAll_sorted (vs : List α) : ∀ {m : List (Nat × α)} (_ : sorted blank m = true) (k : Nat),
    sorted blank (storeAll blank m k vs) = true := by
  induction vs with
  | nil => intro m h k; exact h
  | cons v vs ih => intro m h k; exact ih (store_sorted h k v) (k + 1)

/-- Consecutive writes leave every other place alone. -/
theorem fetch_storeAll_other (vs : List α) : ∀ (m : List (Nat × α)) (k j : Nat) (_ : j < k ∨ k + vs.length ≤ j),
    fetch blank (storeAll blank m k vs) j = fetch blank m j := by
  induction vs with
  | nil => intro m k j _; rfl
  | cons v vs ih =>
    intro m k j h
    simp only [List.length_cons] at h
    rw [storeAll, ih _ (k + 1) j (by omega), fetch_store_other (by omega)]

/-- A place of the stored range reads as the item stored there. -/
theorem fetch_storeAll_at (vs : List α) : ∀ {m : List (Nat × α)} (_ : sorted blank m = true) (k i : Nat) (hi : i < vs.length),
    fetch blank (storeAll blank m k vs) (k + i) = vs[i] := by
  induction vs with
  | nil => intro m _ k i hi; cases hi
  | cons v vs ih =>
    intro m h k i hi
    cases i with
    | zero => rw [storeAll, fetch_storeAll_other vs _ _ _ (by omega)]; exact fetch_store_same h k v
    | succ i =>
      have := ih (store_sorted h k v) (k + 1) i (by simpa using hi)
      rw [storeAll, show k + (i + 1) = k + 1 + i by omega, this]
      simp

/-! ## The module's memories -/

theorem wf_iff (m : Memories) : m.wf = true ↔ sorted blankByte m.a = true ∧ sorted blankByte m.b = true ∧
    sorted 0 m.sram = true ∧ sorted 0 m.cellar = true := by
  simp [Memories.wf, Bool.and_eq_true, and_assoc]

/-! ## The delivered directory -/

theorem leBytes_length : ∀ (k n : Nat), (leBytes k n).length = k
  | 0, _ => rfl
  | k + 1, n => by simp [leBytes, leBytes_length k]

theorem fit_length (n : Nat) (pad : Byte) (bs : List Byte) : (fit n pad bs).length = n := by
  simp [fit]

theorem keyBytes_length (q : Option (List Byte × Nat)) : (keyBytes q).length = 36 := by
  cases q <;> simp [keyBytes, leBytes_length, fit_length]

theorem DirChain.bytes_length (c : DirChain) : c.bytes.length = 72 := by
  simp [DirChain.bytes, leBytes_length, fit_length]

theorem flatMap_length {α : Type} (f : α → List Byte) (n : Nat) (h : ∀ a, (f a).length = n) :
    ∀ xs : List α, (xs.flatMap f).length = n * xs.length
  | [] => rfl
  | x :: xs => by simp [h, flatMap_length f n h xs, Nat.mul_add, Nat.add_comm]

theorem dirOf_length (gen : Word) (serial : Nat) (key : List Byte) (keys : List (List Byte × Nat))
    (chains : List DirChain) (h : chains.length = 4) : (dirOf gen serial key keys chains).length = 1024 := by
  unfold dirOf
  dsimp only
  have a := flatMap_length (fun i => keyBytes keys[i]?) 36 (fun i => keyBytes_length _) (List.range 16)
  have b := flatMap_length DirChain.bytes 72 DirChain.bytes_length chains
  rw [List.length_append, List.length_append, List.length_append, List.length_append, List.length_append,
    List.length_append, a, b, h, leBytes_length, leBytes_length, leBytes_length, fit_length, List.length_replicate,
    List.length_range]
theorem deliveredDir_length (serial : Nat) (key : List Byte) : (deliveredDir serial key).length = 1024 :=
  dirOf_length _ _ _ _ _ (by rw [List.length_map, List.length_finRange])

theorem deliveredCopy_sorted : sorted blankByte deliveredCopy = true := by
  unfold deliveredCopy
  exact storeAll_sorted (deliveredDir 0 []) (by rfl) 0

/-- Beyond the directory, a copy as delivered is blank (R226). -/
theorem deliveredCopy_blank {a : Nat} (h : 1024 ≤ a) : fetch blankByte deliveredCopy a = blankByte := by
  unfold deliveredCopy
  exact fetch_storeAll_other (deliveredDir 0 []) [] 0 a (Or.inr (by rw [deliveredDir_length]; omega))

theorem reset_wf : State.reset.mem.wf = true := by
  rw [wf_iff]
  refine ⟨?_, ?_, rfl, rfl⟩
  · exact deliveredCopy_sorted
  · exact deliveredCopy_sorted

theorem putBytes_wf {s : State} (h : s.mem.wf = true) (off : Nat) (bs : List Byte) : (putBytes s off bs).mem.wf = true := by
  rw [wf_iff] at *
  simp only [putBytes]
  refine ⟨?_, ?_, h.2.2.1, h.2.2.2⟩
  · split
    · exact storeAll_sorted _ h.1 _
    · exact h.1
  · split
    · exact storeAll_sorted _ h.2.1 _
    · exact h.2.1

theorem putCopy_wf {s : State} (h : s.mem.wf = true) (copy off : Nat) (bs : List Byte) :
    (putCopy copy off bs s).mem.wf = true := by
  rw [wf_iff] at *
  simp only [putCopy]
  split
  · exact ⟨storeAll_sorted _ h.1 _, h.2.1, h.2.2.1, h.2.2.2⟩
  · exact ⟨h.1, storeAll_sorted _ h.2.1 _, h.2.2.1, h.2.2.2⟩

theorem pushRing_wf {s : State} (h : s.mem.wf = true) (w : List Word) : (pushRing s w).mem.wf = true := by
  rw [wf_iff] at *
  exact ⟨h.1, h.2.1, storeAll_sorted _ h.2.2.1 _, h.2.2.2⟩

theorem writeWord_wf {s : State} (h : s.mem.wf = true) (g : Channel) (a : Nat) (w : Word) :
    (writeWord g a w s).mem.wf = true := by
  have hf : (fillRegion g w s).mem = s.mem := by
    simp only [fillRegion]
    rfl
  unfold writeWord
  repeat' split
  all_goals first
    | (rw [hf]; exact h)
    | exact h
    | (rw [wf_iff] at *; exact ⟨h.1, h.2.1, store_sorted h.2.2.1 _ _, h.2.2.2⟩)
    | (rw [wf_iff] at *; exact ⟨h.1, h.2.1, h.2.2.1, store_sorted h.2.2.2 _ _⟩)

/-- The zero-fill of a START (R78). -/
theorem volatileReset_wf {s : State} (h : s.mem.wf = true) : (volatileReset s).mem.wf = true := by
  rw [wf_iff] at *
  exact ⟨h.1, h.2.1, rfl, rfl⟩

end Sys2Proof.Machine
end

