-- ==== Sys2Proof/Laws/Work.lean ====
section
/-! SUPPORT. What measuring, settling and conversing can do to the module: `Works` says that only what `Worked` names
changes, and that the memories keep their canonical form. One lemma per shared operation. -/

namespace Sys2Proof.Machine

/-- The canonical form of the memories is kept. -/
def Kept (s t : State) : Prop := s.mem.wf = true → t.mem.wf = true

theorem Kept.refl (s : State) : Kept s s := id
theorem Kept.trans {s t u : State} (a : Kept s t) (b : Kept t u) : Kept s u := fun h => b (a h)
theorem Kept.of_eq {s t : State} (h : t.mem = s.mem) : Kept s t := fun w => h ▸ w
theorem Talked.kept {s t : State} (h : Talked s t) : Kept s t := Kept.of_eq (by rw [h.1])

theorem Kept.foldl {α : Type} (g : State → α → State) (hg : ∀ s a, Kept s (g s a)) :
    ∀ (xs : List α) (s : State), Kept s (xs.foldl g s)
  | [], s => Kept.refl s
  | x :: xs, s => (hg s x).trans (Kept.foldl g hg xs (g s x))

theorem putBytes_kept (s : State) (off : Nat) (bs : List Byte) : Kept s (putBytes s off bs) :=
  fun h => putBytes_wf h off bs

theorem writeDir_kept (s : State) : Kept s (writeDir s) := fun h => putBytes_wf (s := { s with lg := _ }) h _ _

theorem writeChained_kept (s : State) (k : Fin 4) (d : List Byte) (parts : List (Nat × List Byte)) :
    Kept s (writeChained s k d parts) := by
  unfold writeChained
  dsimp only
  refine Kept.trans ?_ (writeDir_kept _)
  intro h
  exact Kept.foldl (fun (t : State) (p : Nat × List Byte) => putBytes t p.1 p.2) (fun t p => putBytes_kept t p.1 p.2)
    parts s h

theorem packet_mem (s : State) (origin subject : Nat) (payload : List Word) :
    (packet s origin subject payload).mem = s.mem := (packet_queued s origin subject payload).mem

theorem appendSmall_kept (s : State) (k : Fin 4) (content : List Byte) : Kept s (appendSmall s k content) :=
  (writeChained_kept _ _ _ _).trans (Kept.of_eq (packet_mem _ _ _ _))

/-! ## The relation -/

/-- `Worked`, and the memories' form is kept. -/
def Works (s t : State) : Prop := Worked s t ∧ Kept s t

theorem Worked.refl (s : State) : Worked s s := ⟨rfl, rfl, rfl⟩

theorem Worked.trans {s t u : State} (a : Worked s t) (b : Worked t u) : Worked s u := by
  obtain ⟨a1, a2, a3⟩ := a
  obtain ⟨b1, b2, b3⟩ := b
  refine ⟨?_, LineSt.talks_trans a2 b2, LineSt.talks_trans a3 b3⟩
  rw [b1, a1]

theorem Booked.worked {s t : State} (a : Booked s t) : Worked s t := by
  obtain ⟨a1, a2, a3⟩ := a
  refine ⟨?_, a2, a3⟩
  rw [a1]

theorem Works.refl (s : State) : Works s s := ⟨Worked.refl s, Kept.refl s⟩
theorem Works.trans {s t u : State} (a : Works s t) (b : Works t u) : Works s u := ⟨a.1.trans b.1, a.2.trans b.2⟩
theorem Talked.works {s t : State} (h : Talked s t) : Works s t := ⟨h.booked.worked, h.kept⟩

theorem Works.foldl {α : Type} (g : State → α → State) (hg : ∀ s a, Works s (g s a)) :
    ∀ (xs : List α) (s : State), Works s (xs.foldl g s)
  | [], s => Works.refl s
  | x :: xs, s => (hg s x).trans (Works.foldl g hg xs (g s x))

theorem Works.ite {s a b : State} {c : Prop} [Decidable c] (ha : Works s a) (hb : Works s b) :
    Works s (if c then a else b) := by
  split
  · exact ha
  · exact hb

/-! What each kind of plain update does. -/

theorem works_runs (s : State) (v : Vector RunSt 4) : Works s { s with runs := v } := ⟨⟨rfl, rfl, rfl⟩, id⟩
theorem works_io (s : State) (v : Io) : Works s { s with io := v } := ⟨⟨rfl, rfl, rfl⟩, id⟩
theorem works_pair (s : State) (v : Pair) : Works s { s with pair := v } := ⟨⟨rfl, rfl, rfl⟩, id⟩
theorem works_se (s : State) (v : Settle) : Works s { s with se := v } := ⟨⟨rfl, rfl, rfl⟩, id⟩
theorem works_lg (s : State) (v : Ledger) : Works s { s with lg := v } := ⟨⟨rfl, rfl, rfl⟩, id⟩
theorem works_runsLg (s : State) (v : Vector RunSt 4) (w : Ledger) : Works s { s with runs := v, lg := w } :=
  ⟨⟨rfl, rfl, rfl⟩, id⟩
theorem works_latch (s : State) (v : Vector RunSt 4) (w : Ledger) (b p : Bool) (c : Bool × String × Nat) :
    Works s { s with runs := v, pw := { s.pw with blockWhole := b, cad := c }, ck := { s.ck with partUnset := p }, lg := w } :=
  ⟨⟨rfl, rfl, rfl⟩, id⟩
theorem works_stored (s : State) (n : Nat) : Works s { s with ck := { s.ck with stored := n } } := ⟨⟨rfl, rfl, rfl⟩, id⟩
theorem works_chan (s : State) (g : Channel) (f : Chan → Chan) : Works s (s.modChan g f) := ⟨⟨rfl, rfl, rfl⟩, id⟩
theorem works_modPair (s : State) (f : Pair → Pair) : Works s (s.modPair f) := works_pair s _
theorem works_modRun (s : State) (r : Run) (f : RunSt → RunSt) : Works s (s.modRun r f) := works_runs s _
theorem works_modCo (s : State) (x : Fin 4) (f : Co → Co) : Works s (s.modCo x f) := works_io s _
theorem works_modPo (s : State) (x : Fin 4) (f : Po → Po) : Works s (s.modPo x f) := works_io s _
theorem works_modSettle (s : State) (r : Nat) (f : SettleRun → SettleRun) : Works s (s.modSettle r f) := works_se s _

theorem wakeLine_works (s : State) : Works s (wakeLine s) := by
  unfold wakeLine
  split
  · exact ⟨⟨rfl, rfl, rfl⟩, id⟩
  · exact Works.refl s

/-! ## Booking and notes -/

theorem noteAll_works (text : String) (s : State) : Works s (noteAll text s) := (noteAll_talked text s).works

theorem noteTo_works (l : Line) (text : String) (s : State) : Works s (noteTo l text s) := (noteTo_talked l text s).works

theorem putBytes_works (s : State) (off : Nat) (bs : List Byte) : Works s (putBytes s off bs) :=
  ⟨(putBytes_booked s off bs).worked, putBytes_kept s off bs⟩

theorem writeDir_works (s : State) : Works s (writeDir s) := ⟨(writeDir_booked s).worked, writeDir_kept s⟩

theorem writeChained_works (s : State) (k : Fin 4) (d : List Byte) (parts : List (Nat × List Byte)) :
    Works s (writeChained s k d parts) := ⟨(writeChained_booked s k d parts).worked, writeChained_kept s k d parts⟩

theorem ledgerPacket_works (s : State) (kind : Nat) (bytes : List Byte) : Works s (ledgerPacket s kind bytes) :=
  ⟨(ledgerPacket_booked s kind bytes).worked, Kept.of_eq (packet_mem _ _ _ _)⟩

theorem appendSmall_works (s : State) (k : Fin 4) (content : List Byte) : Works s (appendSmall s k content) :=
  ⟨(appendSmall_booked s k content).worked, appendSmall_kept s k content⟩

theorem moduleNote_works (s : State) (code : Nat) (payload : List Byte) : Works s (moduleNote s code payload) :=
  appendSmall_works _ _ _

theorem audit_works (kind line role detail subject : Nat) (old new : Int) (s : State) :
    Works s (audit kind line role detail subject old new s) := appendSmall_works _ _ _

/-! ## Outputs -/

theorem refreshCo_works (x : Fin 4) (s : State) : Works s (refreshCo x s) := by
  unfold refreshCo
  exact works_modCo s x _

theorem refreshOutputs_works (s : State) : Works s (refreshOutputs s) :=
  Works.foldl _ (fun t x => refreshCo_works x t) _ _

/-! ## The conversation as sent -/

theorem putFrame_works (text : String) (s : State) : Works s (putFrame text s) :=
  (works_modPair s _).trans (wakeLine_works _)

theorem sendPlain_works (verb fields : String) (s : State) : Works s (sendPlain verb fields s) :=
  (putFrame_works _ s).trans (works_modPair _ _)

theorem lossNote_works (c : Nat) (s : State) : Works s (lossNote c s) := moduleNote_works _ _ _

theorem losePair_works (c : Nat) (s : State) : Works s (losePair c s) :=
  ((works_modPair s _).trans (noteAll_works _ _)).trans (lossNote_works _ _)

theorem resendOne_works (s : State) (f : OutFrame) : Works s (resendOne s f) :=
  (putFrame_works _ s).trans (works_modPair _ _)

theorem resendFrom_works (seq : Nat) (s : State) : Works s (resendFrom seq s) := by
  unfold resendFrom
  dsimp only
  split
  · exact losePair_works 4 s
  · exact (Works.foldl _ resendOne_works _ s).trans (works_modPair _ _)

theorem sendOffer_works (o : Offer) (s : State) : Works s (sendOffer o s) := by
  unfold sendOffer
  dsimp only
  split
  · exact sendPlain_works _ _ s
  · split
    · exact resendFrom_works _ s
    · exact (putFrame_works _ s).trans (works_modPair _ _)

theorem sendWindow_works : ∀ (n : Nat) (s : State), Works s (sendWindow n s)
  | 0, s => Works.refl s
  | n + 1, s => by
    unfold sendWindow
    split
    · exact Works.refl s
    · split
      · exact ((works_modPair s _).trans (sendOffer_works _ _)).trans (sendWindow_works n _)
      · exact Works.refl s

theorem flushPair_works (s : State) : Works s (flushPair s) := by
  unfold flushPair
  dsimp only
  split
  · exact Works.refl s
  · split
    · exact sendWindow_works 16 s
    · split
      · split
        · exact sendWindow_works 8 s
        · split
          · exact ((sendWindow_works 8 s).trans (sendPlain_works _ _ _)).trans (works_modPair _ _)
          · exact sendWindow_works 8 s
      · exact Works.refl s

theorem resendTurn_works (seq : Nat) (s : State) : Works s (resendTurn seq s) := by
  unfold resendTurn
  split
  · exact works_modPair s _
  · exact resendFrom_works seq s

theorem offer_works (kind : Nat) (body : String) (s : State) : Works s (offer kind body s) := by
  unfold offer
  split
  · exact (works_modPair s _).trans (flushPair_works _)
  · exact Works.refl s

theorem feedPort_works (g : Channel) (off : Nat) (s : State) : Works s (feedPort g off s) := by
  unfold feedPort
  dsimp only
  exact Works.ite (works_chan s g _) (Works.refl s)

theorem offerRecord_works (g : Channel) (off kind : Nat) (body : String) (s : State) :
    Works s (offerRecord g off kind body s) := (feedPort_works g off s).trans (offer_works _ _ _)

theorem sendAck_works (s : State) : Works s (sendAck s) := by
  unfold sendAck
  split
  · exact Works.refl s
  · exact sendPlain_works _ _ s

theorem sendNak_works (seq : Nat) (c : String) (s : State) : Works s (sendNak seq c s) := by
  unfold sendNak
  exact Works.ite (Works.refl s) ((works_modPair s _).trans (offer_works _ _ _))

theorem setStatus_works (k : Fin 4) (i bits : Nat) (s : State) : Works s (setStatus k i bits s) := by
  unfold setStatus
  dsimp only
  split
  · exact putBytes_works _ _ _
  · exact Works.refl s

theorem acked_works (floor : Nat) (s : State) (f : OutFrame) : Works s (acked floor s f) := by
  unfold acked
  dsimp only
  have h1 : Works s (if f.resends = 0 then s.modPair (sampleRtt floor (1000 * (s.ck.mono - f.sentAt))) else s) :=
    Works.ite (works_modPair s _) (Works.refl s)
  split
  · split
    · exact (h1.trans (works_modPair _ _)).trans (setStatus_works _ _ _ _)
    · exact h1
  · exact h1

theorem takeAck_works (a : Nat) (s : State) : Works s (takeAck a s) := by
  unfold takeAck
  split
  · exact ((works_modPair s _).trans (Works.foldl _ (acked_works _) _ _)).trans (flushPair_works _)
  · exact Works.refl s

/-! ## Settlement -/

theorem markDecided_works (run start : Nat) (s : State) : Works s (markDecided run start s) := works_se s _

theorem putOutcome_works (i b : Nat) (s : State) : Works s (putOutcome i b s) := putBytes_works _ _ _

theorem decideInt_works (i run start code : Nat) (own : Side) (other : Option Side) (s : State) :
    Works s (decideInt i run start code own other s) := by
  unfold decideInt
  dsimp only
  have h := ((markDecided_works run start s).trans (putOutcome_works i (decisionOf s run code own other).byte0 _))
  split
  · exact ((h.trans (works_modSettle _ _ _)).trans (works_se _ _)).trans (noteAll_works _ _)
  · exact h.trans (works_modSettle _ _ _)

theorem decidePair_works (i : Nat) (own : IntRec) (p : Entry) (s : State) : Works s (decidePair i own p s) := by
  unfold decidePair
  split
  · exact decideInt_works _ _ _ _ _ _ s
  · split
    · dsimp only
      exact decideInt_works _ _ _ _ _ _ s
    · exact (works_se s _).trans (decideInt_works _ _ _ _ _ _ _)

theorem ownPlaced_works (i : Nat) (s : State) : Works s (ownPlaced i s) := by
  unfold ownPlaced
  dsimp only
  split
  · exact decideInt_works _ _ _ _ _ _ s
  · split
    · split
      · exact Works.refl s
      · exact decidePair_works _ _ _ s
    · exact Works.refl s

theorem aloneByWait_works (s : State) : Works s (aloneByWait s) := by
  unfold aloneByWait
  dsimp only
  refine Works.foldl _ (fun t i => ?_) _ s
  split
  · exact decideInt_works _ _ _ _ _ _ t
  · exact Works.refl t

/-! ## Blocks, intervals and closes -/

theorem endURun_works (r : Run) (s : State) : Works s (endURun r s) := by
  unfold endURun
  split
  · exact (works_modRun s r _).trans (works_lg _ _)
  · exact Works.refl s

theorem flushURuns_works (s : State) : Works s (flushURuns s) :=
  (works_lg s _).trans (Works.foldl _ (fun t n => moduleNote_works t 0x01 n) _ _)

theorem priceRun_works (b : ClosedBlock) (r : Run) (s : State) : Works s (priceRun b r s) := by
  unfold priceRun
  dsimp only
  exact (Works.ite (Works.refl s) (endURun_works r s)).trans (works_modRun _ _ _)

theorem priceBlock_works (b : ClosedBlock) (s : State) : Works s (priceBlock b s) :=
  Works.foldl _ (fun t r => priceRun_works b r t) _ s

theorem blockBoundary_works (s : State) : Works s (blockBoundary s) := by
  unfold blockBoundary
  exact Works.ite ((works_latch s _ _ _ _ _).trans (refreshOutputs_works _)) (Works.refl s)

theorem writeInterval_works (r : IntRec) (s : State) : Works s (writeInterval r s) := by
  unfold writeInterval
  dsimp only
  exact ((((writeChained_works _ _ _ _).trans (ledgerPacket_works _ _ _)).trans (works_lg _ _)).trans
    (offerRecord_works _ _ _ _ _)).trans (ownPlaced_works _ _)

theorem noteUnsigned_works (s : State) : Works s (noteUnsigned s) := by
  unfold noteUnsigned
  dsimp only
  split
  · exact noteAll_works _ _
  · exact Works.refl s

theorem declineWaiting_works (s : State) : Works s (declineWaiting s) :=
  (works_modPair s _).trans (Works.foldl _ (fun t _ => offer_works _ _ t) _ _)

theorem closeDay_works (s : State) : Works s (closeDay s) := by
  unfold closeDay
  split
  · exact Works.refl s
  · dsimp only
    exact ((((noteUnsigned_works s).trans (writeChained_works _ _ _ _)).trans (ledgerPacket_works _ _ _)).trans
      (works_lg _ _)).trans ((offerRecord_works _ _ _ _ _).trans (offer_works _ _ _))

theorem closeDays_works : ∀ (n t : Nat) (s : State), Works s (closeDays n t s)
  | 0, _, s => Works.refl s
  | n + 1, t, s => by
    unfold closeDays
    split
    · split
      · exact (closeDay_works s).trans (closeDays_works n t _)
      · exact Works.refl s
    · exact Works.refl s

/-- Closing the open interval: the days before it, its records, and the next start. -/
theorem closeOpen_works (start : Nat) (s : State) : Works s (closeOpen start s) := by
  unfold closeOpen
  dsimp only
  exact ((Works.ite (closeDays_works _ _ s) (Works.refl s)).trans
    (Works.foldl _ (fun t r => writeInterval_works (openRecord _ r) t) _ _)).trans (works_runsLg _ _ _)

theorem spanBlocks_works : ∀ (n : Nat) (sp : KeepSpan) (t : Nat) (s : State), Works s (spanBlocks n sp t s)
  | 0, _, _, s => Works.refl s
  | n + 1, sp, t, s => by
    unfold spanBlocks
    dsimp only
    split
    · exact Works.refl s
    · refine Works.trans ?_ (spanBlocks_works n sp _ _)
      refine Works.ite ?_ (works_runs s _)
      exact ((works_runs s _).trans (closeOpen_works _ _)).trans (Works.ite (closeDays_works _ _ _) (Works.refl _))

theorem writeSums_works (x : Vector Sums 4) (sp : KeepSpan) (s : State) : Works s (writeSums x sp s) := by
  unfold writeSums State.addSums
  dsimp only
  exact Works.ite ((works_runs s _).trans (closeOpen_works _ _)) (works_runs s _)

theorem writeSpan_works (sp : KeepSpan) (s : State) : Works s (writeSpan sp s) := by
  unfold writeSpan
  split
  · exact writeSums_works _ _ _
  · dsimp only
    exact (Works.ite ((Works.ite (closeOpen_works _ s) (works_lg s _)).trans (closeDays_works _ _ _)) (Works.refl s)).trans
      (spanBlocks_works _ _ _ _)

theorem quantityNote_works (code : Nat) (r : Run) (m e : Int) (s : State) : Works s (quantityNote code r m e s) :=
  moduleNote_works _ _ _

theorem oldBlocks_works : ∀ (n : Nat) (sp : KeepSpan) (stop t : Nat) (s : State), Works s (oldBlocks n sp stop t s)
  | 0, _, _, _, s => Works.refl s
  | n + 1, sp, stop, t, s => by
    unfold oldBlocks
    dsimp only
    split
    · exact Works.refl s
    · refine Works.trans ?_ (oldBlocks_works n sp _ _ _)
      exact Works.ite ((works_runs s _).trans (closeDays_works _ _ _)) (works_runs s _)

theorem gatherOld_works (cut : Nat) (s : State) (sp : KeepSpan) : Works s (gatherOld cut s sp) := by
  unfold gatherOld
  split
  · exact works_runs s _
  · exact oldBlocks_works _ _ _ _ _

theorem writeOld_works (olds : List KeepSpan) (s : State) : Works s (writeOld olds s) := by
  unfold writeOld
  dsimp only
  exact ((Works.foldl _ (fun t sp => gatherOld_works _ t sp) _ s).trans
    (Works.foldl _ (fun t r => quantityNote_works _ r _ _ t) _ _)).trans (works_runsLg _ _ _)

theorem swapBack_works (s : State) : Works s (swapBack s) := works_runsLg s _ _

theorem joinBack_works (s : State) : Works s (joinBack s) := by
  unfold joinBack
  split
  · exact works_runsLg s _ _
  · exact Works.refl s

theorem takeSpans_works (s : State) : Works s (takeSpans s) := by
  unfold takeSpans
  dsimp only
  split
  · exact (works_lg s _).trans (writeOld_works _ _)
  · split
    · exact Works.refl s
    · exact (works_lg s _).trans (writeSpan_works _ _)

theorem backlogStep_works (s : State) : Works s (backlogStep s) := by
  unfold backlogStep
  exact Works.ite (Works.refl s)
    (((swapBack_works s).trans (takeSpans_works _)).trans ((swapBack_works _).trans (joinBack_works _)))

theorem drainBacklog_works (s : State) : Works s (drainBacklog s) :=
  Works.foldl _ (fun t _ => backlogStep_works t) _ s

theorem pushBacklog_works (d : Option Nat) (spans : List KeepSpan) (s : State) : Works s (pushBacklog d spans s) := by
  unfold pushBacklog
  dsimp only
  exact Works.ite (Works.refl s) (works_runsLg s _ _)

theorem closeInterval_works (start : Nat) (s : State) : Works s (closeInterval start s) :=
  (drainBacklog_works s).trans (closeOpen_works _ _)

theorem pricedIn_works (stops : Bool) (s : State) (b : ClosedBlock) : Works s (pricedIn stops s b) := by
  unfold pricedIn
  dsimp only
  exact (Works.ite (Works.ite (pushBacklog_works _ _ s) (closeInterval_works _ s)) (Works.refl s)).trans
    (priceBlock_works _ _)

theorem priceClosed_works (stops : Bool) (s : State) : Works s (priceClosed stops s) := by
  unfold priceClosed
  dsimp only
  exact ((works_lg s _).trans (Works.foldl _ (fun t b => pricedIn_works stops t b) _ _)).trans (refreshOutputs_works _)

theorem quantityPass_works (s : State) : Works s (quantityPass s) :=
  (priceClosed_works false s).trans (flushURuns_works _)

theorem lastPass_works (s : State) : Works s (lastPass s) := priceClosed_works true s

theorem blockTick_works (s : State) : Works s (blockTick s) := by
  unfold blockTick
  exact Works.ite ((blockBoundary_works s).trans (quantityPass_works _)) (blockBoundary_works s)

theorem storeTime_works (s : State) : Works s (storeTime s) := works_stored s _

theorem keepSets_works (s : State) : Works s (keepSets s) := ⟨⟨rfl, rfl, rfl⟩, id⟩

theorem intervalRecords_works (s : State) : Works s (intervalRecords s) := by
  unfold intervalRecords
  dsimp only
  exact Works.trans ((blockBoundary_works s).trans (priceClosed_works false _))
    (Works.ite (closeInterval_works _ _) (Works.refl _))

theorem afterRecords_works (s : State) : Works s (afterRecords s) :=
  ((flushURuns_works s).trans (storeTime_works _)).trans (keepSets_works _)

theorem intervalEnd_works (s : State) : Works s (intervalEnd s) := (intervalRecords_works s).trans (afterRecords_works _)

end Sys2Proof.Machine
end

