-- ==== Sys2Proof/WellFormed.lean ====
section
/-! DEFINITION. Operand forms that the spec gives a command: what a line can carry (R28, R33), what a frame can carry
(R245 ... R248), and the ranges of what the hardware reports. `exec` itself is total and checks what each rule checks. -/

namespace Sys2Proof

/-- A tag or a sequence lies in 1 … 65535 (R33, R246). -/
def seqOk (n : Nat) : Bool := decide (1 ≤ n ∧ n ≤ 65535)

/-- A field is printable ASCII without a space (R28, R29). -/
def fieldOk (t : String) : Bool := t ≠ "" && t.toList.all fun c => decide (33 ≤ c.toNat ∧ c.toNat ≤ 126)

/-- The fields of a line with their spaces fit its 240 characters (R28), and its tag is legal (R33). -/
def lineOk (rq : Req) (args : List String) : Bool :=
  rq.tag.all seqOk && args.all fieldOk && decide ((args.map fun t => t.length + 1).sum ≤ 240)

/-- A failure names an item of Table 16.1 and a fault of R330. -/
def failureOk (f : Failure) : Bool := decide (f.item ≤ 7 ∧ 1 ≤ f.fault ∧ f.fault ≤ 14)

/-- A self-test run. -/
def testOk (r : TestRun) : Bool := r.failures.all failureOk

/-- A parameter number has four hexadecimal digits (R8). -/
def paramOk (n : Nat) : Bool := decide (n < 65536)

/-- A 24-bit sample of a body axis (R103). -/
def sampleOk (x : Int) : Bool := decide (-8388608 ≤ x ∧ x ≤ 8388607)

/-- A sample of a fast cell in its 32-bit word (R81). -/
def cellOk (x : Int) : Bool := decide (-2147483648 ≤ x ∧ x ≤ 2147483647)

/-- The frames of a burst hold samples of the cells and of the axes. -/
def burstOk (b : Burst) : Bool := b.frames.all fun f => f.cells.toList.all cellOk && f.axes.toList.all sampleOk

/-- A code of Table 15.3. -/
def diagOk (c : Nat) : Bool := decide (0x20 ≤ c ∧ c ≤ 0x2E)

/-- A record index lies in the area of its chain (Table 11.9). -/
def chainOk (k : Fin 4) (i : Nat) : Bool :=
  decide (i < match k with | 0 => 153600 | 1 => 11264 | 2 => 32768 | 3 => 16384)

/-- Tag and ack field of a frame (R246). -/
def headOk (h : FrameHead) : Bool := seqOk h.tag && decide (h.ack ≤ 65535)

/-- Key and nonce of hello (Table 12.2). -/
def helloOk (f : HelloFields) : Bool := decide (f.key.length = 32 ∧ f.nonce.length = 8)

/-- A command whose operands have the forms the spec gives them. -/
def Instr.wf : Instr → Bool
  | .get rq args => lineOk rq args
  | .set rq args => lineOk rq args
  | .stage rq args => lineOk rq args
  | .commit rq args => lineOk rq args
  | .discard rq args => lineOk rq args
  | .discardPending rq args => lineOk rq args
  | .show rq args => lineOk rq args
  | .watch rq args => lineOk rq args
  | .quiet rq args => lineOk rq args
  | .help rq args => lineOk rq args
  | .role rq args => lineOk rq args
  | .roleCodeChange rq args => lineOk rq args
  | .time rq args => lineOk rq args
  | .timeSet rq args => lineOk rq args
  | .start rq args => lineOk rq args
  | .stop rq args => lineOk rq args
  | .drop rq args => lineOk rq args
  | .pair rq args => lineOk rq args
  | .test rq args => lineOk rq args
  | .testComplete r => testOk r
  | .ledgerInterval rq args => lineOk rq args
  | .ledgerClose rq args => lineOk rq args
  | .ledgerEvents rq args => lineOk rq args
  | .ledgerAudit rq args => lineOk rq args
  | .ledgerHead rq args => lineOk rq args
  | .ledgerRaw rq args => lineOk rq args
  | .ledgerVerify rq args => lineOk rq args
  | .gatherShow rq args => lineOk rq args
  | .gatherRing rq args => lineOk rq args
  | .gatherRead rq args => lineOk rq args
  | .gatherWord rq args => lineOk rq args
  | .gatherStart rq args => lineOk rq args
  | .gatherStop rq args => lineOk rq args
  | .gatherResume rq args => lineOk rq args
  | .gatherSkip rq args => lineOk rq args
  | .gatherReset rq args => lineOk rq args
  | .doFePoint rq args => lineOk rq args
  | .doFeLeadcal rq args => lineOk rq args
  | .doKPoint rq args => lineOk rq args
  | .doQPoint rq args => lineOk rq args
  | .doMatrixVibfit rq args => lineOk rq args
  | .vibfitDone _ _ => true
  | .doPilotRef rq args => lineOk rq args
  | .pilotRefDone _ => true
  | .doBeep rq args => lineOk rq args
  | .doBeepStop rq args => lineOk rq args
  | .beepPatternEnd => true
  | .doTurnRef rq args => lineOk rq args
  | .doSmWord rq args => lineOk rq args
  | .doSmAct rq args => lineOk rq args
  | .doSmFactory rq args => lineOk rq args
  | .doSmReset rq args => lineOk rq args
  | .doCoForce rq args => lineOk rq args
  | .doCoForceEnd rq args => lineOk rq args
  | .forceExpiry _ => true
  | .doSafetyReset rq args => lineOk rq args
  | .doSafetyConfirm rq args => lineOk rq args
  | .safetyConfirmTimeout => true
  | .doRepairCell rq args => lineOk rq args
  | .doRepairRow rq args => lineOk rq args
  | .doRepairClear rq args => lineOk rq args
  | .doRepairBurn rq args => lineOk rq args
  | .doAgeBackupFitted rq args => lineOk rq args
  | .lineEndReceived _ _ => true
  | .characterReceived _ _ => true
  | .linePassEnd => true
  | .roleIdleTimeout _ => true
  | .roleWarnDue _ => true
  | .roleLockoutEnd _ => true
  | .watchPeriodDue _ param => paramOk param
  | .commitApply => true
  | .supplyApplied _ => true
  | .backupCellFitted _ => true
  | .supplyLoss => true
  | .supplyReturn _ => true
  | .backupCellTest _ => true
  | .nrstAsserted => true
  | .nrstReleased _ => true
  | .startSequenceComplete r _ => testOk r
  | .stopSequenceComplete r => testOk r
  | .sealLoopChange _ => true
  | .diChange _ _ => true
  | .valveDiscrepancy _ => true
  | .tallyCrossing _ _ _ => true
  | .blockBoundary => true
  | .intervalBoundary => true
  | .dailyClose => true
  | .keepBacklogWrite => true
  | .clockTrim _ => true
  | .thermalAccumulate _ => true
  | .clockStep => true
  | .slewComplete => true
  | .burstWake b => burstOk b
  | .burstEnd _ => true
  | .feRestartDone _ => true
  | .pilotResult _ _ _ => true
  | .eventTick => true
  | .smTimerExpiry _ _ => true
  | .knock _ => true
  | .hammer _ _ _ => true
  | .cadence _ _ => true
  | .releaseFall _ _ => true
  | .release _ _ _ => true
  | .turnRot _ => true
  | .turnTilt _ => true
  | .safetyJudgement standing => standing.all diagOk
  | .weldedContact _ => true
  | .evaluatorRestart _ => true
  | .limiterUpdate _ _ => true
  | .coReadback _ _ => true
  | .pulseIssue _ => true
  | .reservationGrant => true
  | .shedWaitTimeout _ => true
  | .shedSpellEnd => true
  | .reservationTimeout => true
  | .queueReset _ => true
  | .lingerExpiry => true
  | .drainPassEnd => true
  | .move _ _ => true
  | .loop _ => true
  | .wait _ => true
  | .waitSatisfied _ => true
  | .waitTimeout _ => true
  | .signal _ => true
  | .mark _ => true
  | .endProg _ => true
  | .opcodeFault _ => true
  | .portStallEnd _ => true
  | .paceResume _ => true
  | .channelStopped _ => true
  | .ringPostTimeout _ => true
  | .ledgerScrub chain index => chainOk chain index
  | .hello h f => headOk h && helloOk f
  | .prove h sig => headOk h && decide (sig.length = 64)
  | .refuse h _ => headOk h
  | .ack h => headOk h
  | .nak h seq _ => headOk h && seqOk seq
  | .bye h => headOk h
  | .ivl h record => headOk h && decide (record.length = 56)
  | .close h record => headOk h && decide (record.length = 80)
  | .csig h _ chain sig => headOk h && decide (chain.length = 32 ∧ sig.length = 64)
  | .cosig h _ sig => headOk h && decide (sig.length = 64)
  | .decline h _ _ => headOk h
  | .damage h chain index kase => headOk h && chainOk chain index && decide (kase = 4 ∨ kase = 5)
  | .tq h _ => headOk h
  | .tr h _ _ _ => headOk h
  | .frameCheckFail tag _ => tag.all seqOk
  | .protocolError tag => tag.all seqOk
  | .helloRetry => true
  | .openingTimeout => true
  | .rtoExpiry => true
  | .ackDelay => true
  | .keepaliveDue => true
  | .sessionSilence => true
  | .turnRetake => true
  | .silentTimeout => true
  | .tqDue => true
  | .feLeadcalDone _ _ => true
  | .knockDoubleMaxRunOut => true

end Sys2Proof
end

