-- ==== Sys2Proof/Tests/Slice0.lean ====
section
/-! SUPPORT. Named tests: an ill-formed command for each check of WellFormed, single steps with results worked out from
the rules, and for each statement of Obligations.lean a state and operands that meet its hypotheses. -/

namespace Sys2Proof.Tests

open Sys2Proof Sys2Proof.Machine

set_option Elab.async false

/-! ## Small states -/

/-- A command of the host line without a tag. -/
def h0 : Req := ⟨.host, none⟩

/-- The delivered module put into a state with supply, awake. -/
def at_ (m : ModState) : State :=
  { State.reset with pw := { State.reset.pw with ms := m, supply := true, vsup := 24000, coldSince := false } }

/-- The host line holds a role. -/
def as_ (r : Role) (s : State) : State := s.modLine .host fun x => { x with role := r }

/-- The host line holds a role with the seal loop open and the safety key closed. -/
def key_ (r : Role) (m : ModState) : State :=
  as_ r { at_ m with pw := { (at_ m).pw with sealOpen := true, safeKey := true } }

/-- The time since START in ms. -/
def time_ (n : Nat) (s : State) : State := { s with ck := { s.ck with mono := n } }

/-- The host line, changed. -/
def host_ (s : State) (f : LineSt → LineSt) : State := s.modLine .host f

/-- The clock valid at a time in 0.1 ns units of the count, given as seconds and a rest. -/
def clock_ (t : Nat) (s : State) : State := { s with ck := { s.ck with t := t, valid := true } }

/-- A burst runs. -/
def burst_ (s : State) : State := { s with pw := { s.pw with pass := .burst } }

/-- Stored parameter values, in ascending order of numbers. -/
def with_ (ps : List (Nat × Int)) (s : State) : State := { s with cm := { s.cm with params := ps } }

/-- The next state of a command, or the same state where there is none. -/
def after (i : Instr) (s : State) : State :=
  match exec i s with
  | .next t => t
  | _ => s

/-- What `paramValue` finds meets the hypotheses of SET and STAGE. -/
def canSet (args : List String) (s : State) (c : CommitClass) (confirm : Bool) : Bool :=
  match paramValue false args s with
  | .ok (p, v) => p.cls.isSome && sealOk s .host p.sc && (memberValue s.cm.attic p.num).isNone
    && match settleSet s [⟨p.num, v, 1, (s.line .host).role⟩] with
      | some ms => decide (strictest ms = c) && needsConfirm ms == confirm
        && ms.all fun m => decide (m.param ∉ cellParams true ∧ m.param ≠ 0xA003)
      | none => false
  | .error _ => false

/-- An attic of the host line. -/
def attic_ (ms : List Member) : State :=
  let s := key_ .safety .run
  { s with cm := { s.cm with attic := ms, owner := some .host } }

/-- The settled attic has a class, with or without a member to be confirmed. -/
def canCommit (s : State) (c : CommitClass) (confirm : Bool) : Bool :=
  s.cm.wait.isNone && (s.cm.attic.all fun m => sealOk s .host (sealOf m.param)) &&
  match settleSet s (s.cm.attic.map fun m => { m with line := 1, role := (s.line .host).role }) with
  | some ms => decide (strictest ms = c) && needsConfirm ms == confirm
      && ms.all fun m => decide (m.param ∉ cellParams true ∧ m.param ≠ 0xA003)
  | none => false

/-- 2031-05-12T06:15:00Z as a count of the clock. -/
def noon : Nat :=
  match timeField "2031-05-12T06:15:00.000Z" with
  | .ok ms => clampTime ms * msUnits
  | .error _ => 0

/-- A knock waits for a second one since `n` ms. -/
def gap (n : Nat) : State :=
  time_ (n + pnat (at_ .run) 0x6003) { at_ .run with
    ev := { (at_ .run).ev with knock := some (pnat (at_ .run) 0x6003, 9), knockAt := none } }

/-- One audit record of blank bytes, with its tag in the copies named. -/
def audited_ (inA inB : Bool) : State :=
  let s := at_ .run
  let tag := storeAll blankByte [] (recTagOff 3 0) ((sha256 (baseOf s 3 ++ List.replicate 24 blankByte)).take 8)
  { s with lg := { s.lg with chains := s.lg.chains.set 3 { s.lg.chains[3] with written := 1, next := 1 } }
           mem := { s.mem with a := if inA then tag else [], b := if inB then tag else [] } }

/-- Channel 5 stands at a word, with the two words behind it, in a burst. -/
def stands_ (w0 w1 w2 : Word) : State :=
  let s := (burst_ (at_ .run)).modChan 5 fun c => { c with st := .run, pc := 0xC00 }
  { s with ga := { s.ga with prog := [(0xC00, w0), (0xC01, w1), (0xC02, w2)] } }

/-- A paired module in RUN; the third is half-duplex. -/
def up_ : State := with_ [(0x8100, 1)] (time_ 1000000 (at_ .run))
def down_ : State := with_ [(0x8100, 2)] (time_ 1000000 (at_ .run))
def half_ : State := with_ [(0x8100, 1), (0x8101, 1)] (time_ 1000000 (at_ .run))

/-- A session is open. -/
def open_ (s : State) : State := s.modPair fun p => { p with st := .opened, up := some (pget s 0x8100 = 1) }

/-! ## Ill-formed commands -/

theorem test_wf_tag_zero : (Instr.get ⟨.host, some 0⟩ ["module.state"]).wf = false := by decide +kernel
theorem test_wf_field_space : (Instr.get h0 ["a b"]).wf = false := by decide +kernel
theorem test_wf_line_too_long : (Instr.get h0 [String.ofList (List.replicate 240 'a')]).wf = false := by decide +kernel
theorem test_wf_line_good : (Instr.get ⟨.host, some 65535⟩ ["module.state"]).wf = true := by decide +kernel
theorem test_wf_failure : (Instr.testComplete ⟨[⟨8, 1, 0⟩], 0, true⟩).wf = false := by decide +kernel
theorem test_wf_failure_good : (Instr.testComplete ⟨[⟨7, 14, 0⟩], 0, true⟩).wf = true := by decide +kernel
theorem test_wf_parameter : (Instr.watchPeriodDue .host 65536).wf = false := by decide +kernel
theorem test_wf_sample :
    (Instr.burstWake ⟨Vector.replicate 4 [], [⟨Vector.replicate 10 2147483648, Vector.replicate 6 0⟩]⟩).wf = false := by
  decide +kernel
theorem test_wf_axis :
    (Instr.burstWake ⟨Vector.replicate 4 [], [⟨Vector.replicate 10 0, Vector.replicate 6 8388608⟩]⟩).wf = false := by
  decide +kernel
theorem test_wf_diagnostic : (Instr.safetyJudgement [0x2F]).wf = false := by decide +kernel
theorem test_wf_record : (Instr.ledgerScrub 1 11264).wf = false := by decide +kernel
theorem test_wf_tag : (Instr.ack ⟨0, 0, 0⟩).wf = false := by decide +kernel
theorem test_wf_hello : (Instr.hello ⟨1, 0, 0⟩ ⟨1, 7, true, 15, 0, [], []⟩).wf = false := by decide +kernel
theorem test_wf_ivl : (Instr.ivl ⟨1, 0, 0⟩ (List.replicate 55 0)).wf = false := by decide +kernel
theorem test_wf_case : (Instr.damage ⟨1, 0, 0⟩ 0 0 3).wf = false := by decide +kernel

/-! ## Hypotheses of the statements are met -/

theorem test_met_UnservedLines : lineRequest (.get h0 []) = some h0 ∧ linesUp State.reset = false := by decide

theorem test_met_ViewRole : linesUp (at_ .run) = true ∧ ((at_ .run).line .host).role = .view := by decide

theorem test_met_Trip : State.reset.tripSafe = true ∧ State.reset.latchSafe = true
    ∧ (at_ .start).sf.latch = false := by decide

theorem test_met_Memory : State.reset.mem.wf = true ∧ State.reset.lg.state ≠ .singleA ∧ State.reset.lg.state ≠ .singleB :=
  ⟨reset_wf, by decide, by decide⟩

theorem test_met_IdleTick : State.reset.pending = [] ∧ (at_ .run).pw.ms ≠ .cold ∧ State.reset.pw.ms = .cold
    ∧ awake (burst_ (at_ .run)) = true ∧ fastFree (burst_ (at_ .run)) = true ∧ awake (at_ .run) = false
    ∧ (at_ .run).lg.closed = [] ∧ (at_ .run).pair.turn = false := by decide

theorem test_met_Queries : ["#0001"].all paramForm = true
    ∧ (["#0001", "#0300"].mapM (paramField false)).toOption.isSome = true
    ∧ wordField false topics "line" = .ok 3 ∧ (topicLines (at_ .run) false .host 3 []).toOption.isSome = true := by
  decide +kernel

theorem test_met_Watch : (at_ .held).serving = true ∧ (paramField false "#0001").toOption.isSome = true
    ∧ numberLike "100" = true ∧ countField 100 3600000 "100" = .ok 100
    ∧ countField 100 3600000 "3600000" = .ok 3600000 ∧ numberLike "change" = false
    ∧ wordField false ["change"] "change" = .ok 0 ∧ lowerText "#0001" ≠ "all" ∧ lowerText "ALL" = "all"
    ∧ paramForm "ALL" = true
    ∧ (let s := host_ (at_ .run) fun x => { x with watches := (List.range 16).map fun n => ⟨n + 2, none, "", 0, []⟩ }
       (s.line .host).watches.any (fun v => v.param = 1) = false ∧ 16 ≤ (s.line .host).watches.length) := by decide +kernel

theorem test_met_Role : (at_ .run).pw.ms ≠ .stop ∧ roleField false "operate" = .ok .operate
    ∧ roleField false "view" = .ok .view ∧ codeField "000000" = .ok 0 ∧ codeField "999999" = .ok 999999
    ∧ codeOf (at_ .run) .operate = some 0 ∧ roleLocked (at_ .run) .host = false
    ∧ roleLocked (host_ (at_ .run) fun x => { x with lockUntil := some 1 }) .host = true
    ∧ ((as_ .operate (at_ .run)).line .host).role = .operate := by decide +kernel

theorem test_met_RoleTimers : let s := time_ (60000 * pnat (at_ .run) (lineBase .host + 3)) (as_ .operate (at_ .run))
    s.pw.supply = true ∧ (s.line .host).role ≠ .view
    ∧ (s.line .host).lineAt + 60000 * pnat s (lineBase .host + 3) ≤ s.ck.mono
    ∧ pnat s (lineBase .host + 4) ≠ 0 ∧ (s.line .host).warned = false
    ∧ (s.line .host).lineAt + 60000 * (pnat s (lineBase .host + 3) - pnat s (lineBase .host + 4)) ≤ s.ck.mono
    ∧ ((host_ s fun x => { x with lockUntil := some s.ck.mono }).line .host).lockUntil = some s.ck.mono := by
  decide +kernel

theorem test_met_Characters : let s := host_ (at_ .run) fun x => { x with buf := "help".toList }
    let full := host_ (at_ .run) fun x => { x with buf := List.replicate 240 'a' }
    let five := host_ s fun x => { x with queue := List.replicate 5 ⟨none, "help", none⟩ }
    (s.line .host).discard = false ∧ (s.line .host).buf.length < 240 ∧ 240 ≤ (full.line .host).buf.length
    ∧ (s.line .host).lastCr = false ∧ (s.line .host).buf ≠ [] ∧ (judge (s.line .host)).1.answer = none
    ∧ (five.line .host).queue.all (fun y => decide (y.answer = none)) = true
    ∧ 5 ≤ (five.line .host).queue.length ∧ linesUp s = true ∧ linesUp State.reset = false
    ∧ ¬(LineEnd.cr = .lf ∧ (s.line .host).lastCr = true) := by decide +kernel

theorem test_met_LinePass : let s := time_ 50 { at_ .run with pw := { (at_ .run).pw with pass := .line } }
    let w := time_ 100 (host_ (at_ .run) fun x => { x with watches := [⟨1, some 100, "", 0, []⟩] })
    s.pw.pass = .line ∧ (at_ .run).pw.pass ≠ .line ∧ (∀ l ∈ allLines, (s.line l).queue = [] ∧ (s.line l).charAt + 50 ≤ s.ck.mono ∧ (s.line l).otherNotes = []
      ∧ (s.line l).series = [] ∧ (s.line l).watchNotes = []) ∧ w.pw.supply = true
    ∧ (w.line .host).watches.find? (fun v => v.param = 1) = some ⟨1, some 100, "", 0, []⟩
    ∧ 0 + 100 ≤ w.ck.mono := by decide +kernel

theorem test_met_Staging : canSet ["#6001", "200"] (key_ .metrology .run) .i false = true
    ∧ (key_ .metrology .run).cm.attic = [] ∧ canCommit (attic_ [⟨0x6001, 200, 1, .metrology⟩]) .i false = true
    ∧ canCommit (attic_ [⟨0x1217, 5, 1, .metrology⟩]) .b false = true
    ∧ canCommit (attic_ [⟨0x7001, 4096, 1, .operate⟩]) .z false = true
    ∧ canCommit (attic_ [⟨0xA005, 4, 1, .safety⟩]) .b true = true := by decide +kernel

theorem test_met_Set : canSet ["#6001", "200"] (key_ .metrology .run) .i false = true
    ∧ canSet ["#1217", "5.000"] (key_ .metrology .safe) .b false = true
    ∧ canSet ["#7001", "4096"] (key_ .operate .held) .z false = true
    ∧ canSet ["#A005", "4"] (key_ .safety .run) .b true = true := by decide +kernel

theorem test_met_DueSet :
    let s := { at_ .run with cm := { (at_ .run).cm with due := [⟨.b, 0, [⟨0x1217, 5, 1, .metrology⟩], none⟩] } }
    (s.cm.due.filter fun q => q.at_ ≤ s.ck.mono) = [⟨.b, 0, [⟨0x1217, 5, 1, .metrology⟩], none⟩]
    ∧ 0x1217 ∉ cellParams true ∧ 0x1217 ∉ cellParams false ∧ 0x1217 ≠ 0xA003 ∧ fastFree s = true
    ∧ ((at_ .run).cm.due.filter fun q => q.at_ ≤ 0) = [] := by decide +kernel

theorem test_met_Supply : State.reset.pw.ms = .cold ∧ State.reset.pw.coldSince = true
    ∧ (let s := { at_ .keep with pw := { (at_ .keep).pw with supply := false } }
       s.pw.ms = .keep ∧ s.pw.supply = false ∧ s.pw.byCommand = false
       ∧ { s with pw := { s.pw with byCommand := true } }.pw.byCommand = true)
    ∧ 17500 ≤ 17500 ∧ 32000 ≤ 32000 ∧ 17499 < 17500 ∧ 32000 < 32001 := by decide

theorem test_met_SupplyLoss : (at_ .held).pw.supply = true
    ∧ (∀ m ∈ [ModState.run, .safe, .start, .stop, .held], (at_ m).pw.ms = m)
    ∧ (let s := { at_ .keep with pw := { (at_ .keep).pw with cellFitted := true } }
       s.pw.supply = true ∧ s.pw.ms = .keep ∧ s.pw.cellFitted = true)
    ∧ (at_ .held).sf.atLoss = [] ∧ { (at_ .held).sf with atLoss := [0x20] }.atLoss ≠ [] := by decide

theorem test_met_BackupCell : State.reset.pw.supply = false ∧ ¬((at_ .run).pw.ms = .cold)
    ∧ (let s := { at_ .keep with pw := { (at_ .keep).pw with supply := false, cellUnder := 1 } }
       s.pw.supply = false ∧ s.pw.ms = .keep ∧ 2999 < 3000 ∧ 1 ≤ s.pw.cellUnder)
    ∧ (at_ .keep).pw.cellUnder = 0 := by decide

theorem test_met_ResetLine : (at_ .run).pw.nrst = false ∧ (at_ .run).pw.supply = true ∧ (at_ .keep).pw.ms = .keep
    ∧ (let s := { at_ .start with pw := { (at_ .start).pw with nrst := true } }
       s.pw.nrst = true ∧ s.pw.supply = true) := by decide

theorem test_met_StartSequence : (at_ .start).pw.ms = .start ∧ (at_ .start).pw.nrst = false ∧ (at_ .start).pw.supply = true
    ∧ (at_ .start).pw.endHeld = false ∧ (at_ .start).cm.pendingZ = []
    ∧ (∀ q ∈ (at_ .start).sp.rowErrors, q.2 < pnat (at_ .start) 0xB001)
    ∧ (let s := { at_ .start with pw := { (at_ .start).pw with startKind := .quick, endHeld := true } }
       s.pw.startKind = .quick ∧ s.pw.endHeld = true)
    ∧ (let s := { at_ .start with pw := { (at_ .start).pw with startKind := .cold } }
       s.pw.startKind ≠ .quick ∧ ∃ x ∈ [(⟨3, 1, 9⟩ : Failure)], x.item = 3 ∧ 9 ≤ x.subject ∧ x.subject ≤ 12) := by
  decide +kernel

theorem test_met_StartStop : outranked .startCommand (as_ .safety (at_ .held)) = false
    ∧ outranked .stopCommand (as_ .operate (at_ .run)) = false ∧ (at_ .held).sp.test = none
    ∧ rival .startCommand (as_ .safety (at_ .held)) = false ∧ rival .stopCommand (as_ .operate (at_ .run)) = false
    ∧ ((as_ .safety (at_ .held)).line .host).role = .safety ∧ measuring (at_ .run) = true
    ∧ (let s := as_ .operate { at_ .keep with pw := { (at_ .keep).pw with byCommand := true } }
       outranked .startCommand s = false ∧ rival .startCommand s = false ∧ s.pw.byCommand = true
       ∧ 1 ≤ roleCode (s.line .host).role)
    ∧ (at_ .stop).pw.ms = .stop := by decide +kernel

theorem test_met_Inputs : (at_ .run).pw.sealOpen = false ∧ (at_ .run).io.di[(0 : Fin 4)].high = false
    ∧ ((at_ .run).pw.ms ≠ .safe ∨ pget (at_ .run) 0xA003 ≠ 1) ∧ debounceOf (at_ .run) .safeKey = 20
    ∧ 19 < debounceOf (at_ .run) .safeKey ∧ 0 < pnat (at_ .run) 0x9302 ∧ pnat (at_ .run) 0x9302 ≤ 10000
    ∧ State.reset.pw.supply = false ∧ measuring (at_ .run) = true := by decide +kernel

theorem test_met_TimeSet : (timeField "2031-05-12T06:15:00.000Z").toOption.isSome = true ∧ secUnits < noon
    ∧ ((noon : Int) - (clock_ (noon - secUnits) (at_ .run)).ck.t).natAbs ≤ secUnits
    ∧ (secUnits : Int) < (noon : Int) - (clock_ (noon - secUnits - 1) (at_ .run)).ck.t
    ∧ (noon : Int) - (clock_ (noon + secUnits + 1) (at_ .run)).ck.t < -(secUnits : Int)
    ∧ (clock_ 1 (at_ .run)).ck.valid = true ∧ State.reset.ck.valid = false ∧ recordCount (at_ .run) 0 = 0
    ∧ 2 ≤ roleCode ((as_ .metrology (at_ .run)).line .host).role
    ∧ ¬((at_ .run).pair.st = .opened ∧ (at_ .run).pair.up = some false)
    ∧ recordCount { at_ .run with lg := { (at_ .run).lg with
        chains := (at_ .run).lg.chains.set 0 { (at_ .run).lg.chains[0] with written := 1, next := 1 } } } 0 ≠ 0 := by
  decide +kernel

theorem test_met_Clock : (at_ .run).ck.due = none
    ∧ (let s := { at_ .run with ck := { (at_ .run).ck with due := some (0, 1, 0), slew := 500 } }
       s.ck.due = some (0, 1, 0) ∧ 0 ≤ nowSec s ∧ s.pw.nrst = false ∧ s.ck.slew.natAbs ≤ 500
       ∧ { s with pw := { s.pw with nrst := true } }.pw.nrst = true)
    ∧ nowSec State.reset < nowSec State.reset + 1 ∧ 500 < (501 : Int).natAbs := by decide +kernel

theorem test_met_Tally : (at_ .run).runs[(0 : Run)].crossed = none ∧ (at_ .run).runs[(0 : Run)].tallyArmed = true
    ∧ (at_ .run).lg.closed.length < 64 ∧ fastFree (at_ .run) = true
    ∧ (let s := { at_ .run with lg := { (at_ .run).lg with
        closed := List.replicate 64 ⟨0, true, false, Vector.replicate 4 .zero⟩ } }
       64 ≤ s.lg.closed.length)
    ∧ { (at_ .run).runs[(0 : Run)] with tallyArmed := false }.tallyArmed = false
    ∧ (at_ .run).runs[(0 : Run)].threshold * (100 - pnat (at_ .run) (rp 0 0x42)) < 100 * (at_ .run).runs[(0 : Run)].threshold
    ∧ (at_ .run).runs[(0 : Run)].threshold < (at_ .run).runs[(0 : Run)].threshold + 1
    ∧ (at_ .run).lg.latchAt = none ∧ fastOn (at_ .run) = true
    ∧ (let s := clock_ noon { at_ .run with lg := { (at_ .run).lg with latchAt := some 0 } }
       s.lg.latchAt = some 0 ∧ 0 < nowSec s)
    ∧ (let s := (at_ .run).modRun 0 fun q => { q with crossed := some 7 }
       s.runs[(0 : Run)].crossed = some 7 ∧ 7 + 50 ≤ 57 ∧ 56 < 7 + 50) := by decide +kernel

theorem test_met_Interval : let s := clock_ noon (at_ .run)
    fastOn s = true ∧ fastFree s = true ∧ s.lg.intStart < nowSec s / intSeconds s * intSeconds s
    ∧ oldCut s ≤ (nowSec s - 60) + 0
    ∧ (let k := clock_ noon (at_ .keep)
       (k.lg.keeps.getLast?.map (·.time)).getD k.pw.keepAt < nowSec k / intSeconds k * intSeconds k)
    ∧ fastOn (at_ .run) = true ∧ nowSec (at_ .run) / intSeconds (at_ .run) * intSeconds (at_ .run) ≤ (at_ .run).lg.intStart
    ∧ measuring s = true ∧ s.ck.valid = true
    ∧ s.pw.ms = .run
    ∧ (at_ .run).lg.backlog = [] := by decide +kernel

theorem test_met_Days : let d := noon / secUnits / 86400 * 86400 - 86400
    let s := clock_ noon { at_ .run with lg := { (at_ .run).lg with day := some d, intStart := d + 86400 } }
    fastFree s = true ∧ s.ck.valid = true ∧ s.lg.day = some d ∧ d % 86400 = 0 ∧ d + 86400 ≤ nowSec s ∧ s.lg.backlog = [] ∧ s.lg.closed = []
    ∧ nowSec s / 86400 * 86400 ≤ s.lg.intStart := by decide +kernel

theorem test_met_Burst : wakeInstant (at_ .run) = true ∧ measuring (at_ .run) = true ∧ (burst_ (at_ .run)).pw.pass = .burst
    ∧ wakeInstant (clock_ (noon + msUnits) (at_ .run)) = false
    ∧ (at_ .run).runs[(0 : Run)].fe.restarting = false ∧ 500 ≤ freqLimit (at_ .run) 0
    ∧ (burst_ (at_ .run)).pw.burstTo ≤ (burst_ (at_ .run)).ck.mono
    ∧ (burst_ { at_ .run with pw := { (at_ .run).pw with burstTo := 1 } }).ck.mono < 1
    ∧ ((at_ .run).pw.cad.1 = true ∨ (at_ .run).pw.cad.1 = false)
    ∧ { (at_ .run).runs[(0 : Run)].eng.track with clean := true, span := some ⟨0, BitVec.ofNat 48 (4 * 2 ^ 24), 0, 1⟩ }.span
      = some ⟨0, BitVec.ofNat 48 (4 * 2 ^ 24), 0, 1⟩
    ∧ (let w : Span := ⟨0, BitVec.ofNat 48 (4 * 2 ^ 24), 0, 1⟩
       4 * 2 ^ 24 ≤ (windowOf w).1 ∧ 0 < (windowOf w).2) := by decide +kernel

theorem test_met_FrontEnd : runField "run1" = .ok 0 ∧ sealOk (key_ .metrology .run) .host .m = true
    ∧ (at_ .run).runs[(0 : Run)].fe.leadcal = none
    ∧ (let s := (at_ .run).modRun 0 fun t => t.modFe fun f =>
        { f with
          leadcal := some ⟨rp 0 0x217, 0, 1, .metrology⟩, leadcalSum := (64000, 64), restarting := true, restartAt := 0 }
       s.runs[(0 : Run)].fe.leadcal = some ⟨rp 0 0x217, 0, 1, .metrology⟩ ∧ s.runs[(0 : Run)].fe.restarting = true
       ∧ s.runs[(0 : Run)].fe.leadcalSum.2 = 64 ∧ (at_ .run).runs[(0 : Run)].fe.leadcalSum.2 ≠ 64
       ∧ ({ s with ck := { s.ck with awake := 20 } }).runs[(0 : Run)].fe.restartAt + 20 ≤ 20
       ∧ s.ck.awake < s.runs[(0 : Run)].fe.restartAt + 20
       ∧ s.runs[(1 : Run)].fe.restarting = false) := by decide +kernel

theorem test_met_Tables : (parseDec "100").isSome = true ∧ numberLike "clear" = false
    ∧ wordField false ["temp", "press"] "temp" = .ok 0 ∧ wordField false ["temp", "press"] "press" = .ok 1
    ∧ wordField false ["dens", "enth", "z"] "z" = .ok 2
    ∧ pointFields false 3 3 0 5000000 (-200000) 850000 "100" "0.000" = .ok (100000, some 0)
    ∧ pointFields false 4 2 (-672000) 672000 0 10000000 "0" "100" = .ok (0, some 10000)
    ∧ pointFields false 3 3 500 8000000 (-10000) 10000 "0.500" "-10" = .ok (500, some (-10000))
    ∧ pointFields false 3 4 (-200000) 850000 1 300000000 "850" "1" = .ok (850000, some 10000)
    ∧ pointFields false 3 6 (-200000) 850000 (-1000000) 10000000 "0" "1" = .ok (0, some 1000000)
    ∧ pointFields false 2 4 0 10000000 500 30000 "0" "1" = .ok (0, some 10000)
    ∧ (editDraft 0 (some 0) (at_ .run).runs[(0 : Run)].tabTemp).isSome = true
    ∧ (editDraft 0 (some 0) (at_ .run).runs[(0 : Run)].tabPress).isSome = true
    ∧ (editDraft 500 (some 0) (at_ .run).runs[(0 : Run)].tabK).isSome = true
    ∧ (editDraft 0 (some 1) (at_ .run).runs[(0 : Run)].tabDens).isSome = true
    ∧ (editDraft 0 (some 1) (at_ .run).runs[(0 : Run)].tabEnth).isSome = true
    ∧ (editDraft 0 (some 500) (at_ .run).runs[(0 : Run)].tabZ).isSome = true := by decide +kernel

theorem test_met_Pilot : let s := burst_ (at_ .run)
    let s1 := s.modRun 0 fun t => t.modPilot fun q =>
      { q with
        results := [(⟨999, 0⟩, ⟨1000, 0⟩, false)], badLift := 1, avg := some ⟨250, 0, 0, 0, 0, 1, .metrology, none⟩ }
    let s2 := s1.modRun 0 fun t => t.modPilot fun q => { q with refLift := some ⟨1000, 0⟩, refVib := some ⟨1000, 0⟩ }
    s.runs[(0 : Run)].eng.pilot.results = [] ∧ measuring s1 = true
    ∧ s1.runs[(0 : Run)].eng.pilot.results = [(⟨999, 0⟩, ⟨1000, 0⟩, false)] ∧ inBand s1 ⟨999, 0⟩ s1.runs[(0 : Run)].eng.pilot.refLift = false
    ∧ 1 ≤ s1.runs[(0 : Run)].eng.pilot.badLift ∧ s1.runs[(0 : Run)].eng.pilot.status ≠ .loss
    ∧ inBand s2 ⟨1000, 0⟩ s2.runs[(0 : Run)].eng.pilot.refLift = true
    ∧ inBand s2 ⟨1000, 0⟩ s2.runs[(0 : Run)].eng.pilot.refVib = true
    ∧ (at_ .run).runs[(0 : Run)].eng.pilot.avg = none := by decide +kernel

theorem test_met_Fits : countField 1 300 "300" = .ok 300 ∧ wordField false beepNames "find" = .ok (beepNames.idxOf "find")
    ∧ (at_ .run).mx.beep = none ∧ (at_ .run).mx.fits[(0 : Run)] = none
    ∧ (let s := time_ 20 { at_ .run with mx := { (at_ .run).mx with beep := some (0, false, 0) } }
       s.mx.beep = some (0, false, 0) ∧ 0 + 20 ≤ s.ck.mono)
    ∧ (let s := { at_ .run with mx := { (at_ .run).mx with fits := (at_ .run).mx.fits.set 0 (some (3, 0)) } }
       s.mx.fits[(0 : Run)] = some (3, 0) ∧ s.ck.awake < 0 + 1000 * 3
       ∧ 0 + 1000 * 3 ≤ ({ s with ck := { s.ck with awake := 3000 } }).ck.awake)
    ∧ measuring (at_ .held) = false := by decide +kernel

theorem test_met_EventTick : ticking (at_ .run) = false ∧ ticking (burst_ (at_ .run)) = true
    ∧ (∀ i : Fin 8, (at_ .run).ev.machines[i].adoptNext = false ∧ (at_ .run).ev.machines[i].resetNext = false
      ∧ pget (at_ .run) (0x6101 + 0x10 * i.val) = 0 ∧ (at_ .run).ev.levels[i] = ⟨false, 0⟩)
    ∧ (let s := time_ 5 ((at_ .run).modMachine 0 fun m => { m with timers := m.timers.set 0 (some 5) })
       s.ev.machines[(0 : Fin 8)].timers[(0 : Fin 2)] = some 5 ∧ 5 ≤ s.ck.mono) := by decide +kernel

theorem test_met_Programs : machineField "m1" = .ok 1 ∧ sealOk (key_ .metrology .run) .host .m = true
    ∧ sealOk (key_ .safety .run) .host .s = true ∧ machineField "m0" = .ok 0
    ∧ countField 0 31 "31" = .ok 31 ∧ countField 0 3 "0" = .ok 0 ∧ countField 0 63 "63" = .ok 63
    ∧ (wordOf "1Fh").toOption.isSome = true := by decide +kernel

theorem test_met_Knocks :
    let s := time_ 0 { at_ .run with ev := { (at_ .run).ev with knockAt := some 0, knock := none } }
    s.ev.knockAt = some 0 ∧ s.ck.mono < 0 + pnat s 0x6003 ∧ s.ev.knock = none
    ∧ (gap 99).ck.mono - pnat (gap 99) 0x6003 < pnat (gap 99) 0x6001
    ∧ pnat (gap 100) 0x6001 ≤ (gap 100).ck.mono - pnat (gap 100) 0x6003
    ∧ (gap 100).ck.mono - pnat (gap 100) 0x6003 ≤ pnat (gap 100) 0x6002
    ∧ pnat (gap 100000) 0x6002 < (gap 100000).ck.mono - pnat (gap 100000) 0x6003
    ∧ pnat (gap 100000) 0x6003 + pnat (gap 100000) 0x6002 ≤ (gap 100000).ck.mono
    ∧ (gap 99).ck.mono < pnat (gap 99) 0x6003 + pnat (gap 99) 0x6002
    ∧ 10 * pget s 0x6000 < (10 * pnat s 0x6000 + 1 : Nat) := by decide +kernel

theorem test_met_Recognisers : let s := burst_ (with_ [(rp 0 0x510, 1)] (at_ .run))
    let lo := 1000 * pnat s (rp 0 0x512)
    let s1 := s.modRecog 0 fun c => { c with ivls := List.replicate 7 lo }
    let s2 := s.modRecog 0 fun c => { c with cadOn := true, cadence := some (1, 1) }
    let s3 := s.modRecog 0 fun c => { c with relRef := releaseFloor s 0 + 1, relHigh := true }
    let s4 := s.modRecog 0 fun c => { c with
      hammers := [(0, 9, 9)], beats := [.interval lo true], windows := [(0, true)] }
    let e4 := { s.ev with falls := [(9, 9)], turns := [9], tiltDue := true, tiltVec := some #v[0, 0, 9], tiltRef := some #v[9, 0, 0] }
    s.runs[(0 : Run)].recog.hammers = [] ∧ s.ev.falls = [] ∧ s.ev.turns = [] ∧ s.ev.tiltDue = false
    ∧ s4.runs[(0 : Run)].recog.hammers = [(0, 9, 9)] ∧ s4.runs[(0 : Run)].recog.beats = [.interval lo true]
    ∧ s4.runs[(0 : Run)].recog.windows = [(0, true)] ∧ e4.falls = [(9, 9)] ∧ e4.turns = [9] ∧ e4.tiltArmed = true
    ∧ pnat s 0x6030 < tiltTenths #v[0, 0, 9] #v[9, 0, 0] ∧ tiltTenths #v[0, 0, 9] #v[0, 0, 9] ≤ pnat s 0x6030
    ∧ measuring s = true ∧ hammerFree s 0 0 = true ∧ pget s (rp 0 0x510) ≠ 0 ∧ lo ≤ 1000 * pnat s (rp 0 0x513)
    ∧ s1.runs[(0 : Run)].recog.cadOn = false ∧ 7 ≤ s1.runs[(0 : Run)].recog.ivls.length
    ∧ regularity ((lo :: s1.runs[(0 : Run)].recog.ivls).take 8) ≤ 10 * pnat s (rp 0 0x514)
    ∧ s2.runs[(0 : Run)].recog.cadOn = true ∧ s2.runs[(0 : Run)].recog.cadence = some (1, 1)
    ∧ pget s 0x6F01 = 0 ∧ 2 * 0 < s3.runs[(0 : Run)].recog.relRef ∧ 100 * 0 < pnat s3 (rp 0 0x520) * s3.runs[(0 : Run)].recog.relRef
    ∧ releaseFloor s3 0 < s3.runs[(0 : Run)].recog.relRef ∧ s3.runs[(0 : Run)].recog.relHigh = true := by decide +kernel

theorem test_met_Limiter : let s := clock_ 0 (burst_ (with_ [(0x9020, 3)] (at_ .run)))
    let s1 := s.modRun 0 fun t => { t with
      fe := { t.fe with press := { t.fe.press with status := .ok, anneal := 0 }, temp := { t.fe.temp with status := .ok, anneal := 0 } }
      eng := { t.eng with status := .ok }, qty := { t.qty with rhoH := some (1000000, 0) } }
    s.io.co[(0 : Fin 4)].mark = none
    ∧ (let m := { s with en := { s.en with count := 1 } }.modCo 0 fun c => { c with mark := some (0, 0, 0) }
       m.io.co[(0 : Fin 4)].mark = some (0, 0, 0) ∧ m.ck.mono ≤ 0 + 101 ∧ 0 < (m.en.count - 0).toNat)
    ∧ s.pw.ms = .run ∧ pget s (coBase 0 + 0x20) = 3 ∧ s.pw.pass = .burst ∧ nowMs s % 100 = 0
    ∧ s.io.co[(0 : Fin 4)].force = none
    ∧ (match controlRate s 0 (pget s (coBase 0 + 0x30) = 1) 0 with | .error _ => true | .ok _ => false) = true
    ∧ (match controlRate s1 0 (pget s1 (coBase 0 + 0x30) = 1) 0 with | .error _ => false | .ok _ => true) = true
    ∧ (s.modCo 0 fun c => { c with takeOver := true }).io.co[(0 : Fin 4)].takeOver = true
    ∧ limMin s 0 ≤ limMax s 0 := by decide +kernel

theorem test_met_Forces : coField "co1" = .ok 0 ∧ decField 3 3600 21500 "3.600" = .ok 3600
    ∧ decField 3 3600 21500 "99" = .ok 21500 ∧ countField 1 600 "600" = .ok 600
    ∧ (let s := time_ 9 ((at_ .run).modCo 0 fun c => { c with force := some (5, 9) })
       s.io.co[(0 : Fin 4)].force = some (5, 9) ∧ 9 ≤ s.ck.mono) ∧ measuring (at_ .held) = false := by decide +kernel

theorem test_met_Pulses : let s := with_ [(0x9200, 1)] (at_ .run)
    let s1 := { s with io := { s.io with po := s.io.po.set 0 { s.io.po[0] with base := -1 } } }
    let v := { with_ [(0x9020, 2), (0x9300, 2), (0x9301, 1)] (at_ .run) with
      io := { (at_ .run).io with di := (at_ .run).io.di.set 0 ⟨true, 0⟩ } }
    pget s1 0x9200 = 1 ∧ 0 < poPending s1 0 ∧ pulseFree s1 0 = true ∧ poPending s 0 ≤ 0
    ∧ valveFault s 0 = none ∧ ((valveFault v 0).map (·.1)) = some 2
    ∧ ((valveFault v 0).any fun q => decide (0 < q.2)) = true ∧ v.io.co[(0 : Fin 4)].valveFrom = none := by
  decide +kernel

theorem test_met_Judgement : let s := with_ [(0xA100, 1)] (at_ .run)
    let q : Tap := ⟨0, true, tapLimit s 0 true, .ok⟩
    let s1 := { s with sf := { s.sf with taps := [q], temp := s.sf.temp.set 0 ⟨pnat s 0xA005 - 1, []⟩ } }
    0x20 ∈ [0x20] ∧ 0x2E ≤ 0x2E ∧ s1.sf.taps = [q] ∧ armed s1 q.run q.temp = true
    ∧ tapLimit s1 q.run q.temp ≤ q.value ∧ pnat s1 0xA005 ≤ (judgedOf s1 q.run q.temp).count + 1
    ∧ (at_ .run).sf.taps = [] ∧ (at_ .run).sf.sticky = [] ∧ ownDiags (at_ .run) = [] ∧ (m0Demand (at_ .run)).isEmpty = true
    ∧ fastOn (at_ .keep) = false ∧ lossWaits s = false ∧ lossWaits { s with pending := [.supplyLoss] } = true
    ∧ sameTick (at_ .keep) 1 = false
    ∧ (let d := time_ 5 { s with sf := { s.sf with tapDue := [(0, true)] } }
       d.sf.wakeAt + 5 ≤ d.ck.mono ∧ armed d 0 true = true ∧ (0, true) ∈ d.sf.tapDue ∧ d.pw.ms = .run
       ∧ lossWaits d = false) := by decide +kernel

/-- Table 15.3, 24h: no tap result by wake + 5 ms. -/
theorem test_watchdog : let s := with_ [(0xA100, 1)] (at_ .run)
    watchdogDiag (time_ 4 { s with sf := { s.sf with tapDue := [(0, true)] } }) = []
    ∧ watchdogDiag (time_ 5 { s with sf := { s.sf with tapDue := [(0, true)] } }) = [0x24] := by decide +kernel

theorem test_met_SafetyReset : let s := as_ .operate (with_ [(0xA004, 1)] (at_ .safe))
    linesUp s = true ∧ pget s 0xA004 = 1 ∧ 1 ≤ roleCode (s.line .host).role ∧ resetOk s = true
    ∧ resetOk { s with sf := { s.sf with standing := [0x2E] } } = false := by decide +kernel

theorem test_met_Confirm : let w : WaitSet := ⟨⟨.b, 0, [⟨0xA005, 4, 1, .safety⟩], some .host⟩, .host, .safety, 1234, 1, 7⟩
    let z : WaitSet := { w with set := ⟨.i, 0, [⟨0xA004, 1, 1, .safety⟩], some .host⟩ }
    w.line = h0.line ∧ "1234".toList.length = 4 ∧ parseNat "1234" = some 1234 ∧ w.set.cls = strictest w.set.members
    ∧ strictest w.set.members ≠ .i ∧ strictest w.set.members ≠ .z ∧ strictest z.set.members = .i
    ∧ sealOk (key_ .safety .run) .host .s = true ∧ parseNat "0000" = some 0 ∧ w.wrong < 2 ∧ 2 ≤ 2
    ∧ cellKind 0xA004 = none ∧ strictest [⟨0x7001, 4096, 1, .operate⟩] = .z ∧ w.deadline ≤ (time_ 7 (at_ .run)).ck.mono ∧ (time_ 6 (at_ .run)).ck.mono < w.deadline := by decide +kernel

theorem test_met_SelfTest : (at_ .held).sp.test = none ∧ wordField false (itemNames ++ ["all"]) "all" = .ok 8
    ∧ wordField false (itemNames ++ ["all"]) "leads" = .ok 0 ∧ armedRun (at_ .run) 3 = false ∧ runField "run4" = .ok 3
    ∧ foundIn (at_ .held) (allItems (at_ .held)) [] = [] := by decide +kernel

theorem test_met_Repairs : let s := key_ .safety .held
    let s1 := { s with sp := { s.sp with table := [⟨1, 1, 9, 0, 0, none⟩] } }
    cellField false "c9" = .ok 9 ∧ cellField false "c10" = .ok 10 ∧ fastUnit 9 = fastUnit 10
    ∧ unitCode 10 ∈ passedFree s true ∧ cellArmed s 9 = false ∧ s.sp.table.length < 96
    ∧ cellInput s 9 = none ∧ (cellInput s 1).isSome = true ∧ s.ident.variant = .s4 ∧ countField 0 1023 "1023" = .ok 1023
    ∧ (freeRows s).isEmpty = false ∧ countField 0 95 "0" = .ok 0 ∧ s1.sp.table[0]? = some ⟨1, 1, 9, 0, 0, none⟩
    ∧ 20000 ≤ s1.pw.vsup ∧ s1.sp.fuses.length < 32 := by decide +kernel

theorem test_met_LedgerRead : runField "run1" = .ok 0 ∧ (timeField "2031-04-28T00:00:00Z").toOption.isSome = true
    ∧ countOr 1 96 1 none = .ok 1 ∧ countOr 1 96 1 (some "96") = .ok 96
    ∧ wordField false ["keep", "events", "audit", "interval", "close"] "keep" = .ok 0 ∧ rawArea 1 = some 2
    ∧ countField 0 (areaSize 2 - 1) "0" = .ok 0 ∧ wordField false ["interval", "close", "events", "audit"] "audit" = .ok 3
    ∧ numberLike "0" = true ∧ recordIndices (at_ .run) 0 = [] := by decide +kernel

theorem test_met_Scrub : recordExists (at_ .run) 3 0 = false ∧ recordExists (audited_ true true) 3 0 = true
    ∧ (caseOf (audited_ true true) 3 0).1 = 1 ∧ (caseOf (audited_ true false) 3 0).1 = 3
    ∧ (caseOf (audited_ false false) 3 0).1 = 4 := by decide +kernel

theorem test_met_Gather : (at_ .run).serving = true ∧ chanField "g5" = .ok 5 ∧ chanField "g4" = .ok 4
    ∧ countField 1 256 "256" = .ok 256 ∧ (hexField "C00h").toOption = some 0xC00 ∧ (hexField "FFFh").toOption = some 0xFFF
    ∧ ([5, 6, 7].all fun (k : Channel) => (at_ .run).ga.chans[k].st = .idle || (at_ .run).ga.chans[k].st = .halt) = true
    ∧ ((at_ .run).modChan 5 fun c => { c with st := .halt, fault := some ⟨0, true, 3⟩ }).ga.chans[(5 : Channel)].st = .halt := by
  decide +kernel

theorem test_met_Move : let s := stands_ 0x18000001 0x00060000 0x00060004
    let bad := with_ [(0x7155, 0)] (stands_ 0x18000001 0x00060000 0x00080000)
    hasBus s 5 = true ∧ s.ga.chans[(5 : Channel)].burst = 0
    ∧ hasBus (s.modChan 0 fun c => { c with st := .run, pc := 0xC00 }) 5 = false
    ∧ (progWord s 0xC01).toNat = 0x60000
    ∧ chanReady s 5 = true ∧ standsAt s 5 1 = true ∧ bits (wordAt s 5) 27 1 = 1 ∧ s.ga.chans[(5 : Channel)].moved = 0
    ∧ max 1 (bits (wordAt s 5) 0 16) = 1 ∧ pget s (chanBase 5 + 2) = 0 ∧ s.ga.hostFifo = []
    ∧ memWord s (progWord s 0xC01).toNat = some 0 ∧ bits (wordAt s 5) 20 1 = 0 ∧ pget s (chanBase 5 + 6) = 0
    ∧ 0x80000 ≤ (progWord bad 0xC02).toNat ∧ pget bad (chanBase 5 + 5) = 0 ∧ chanReady (at_ .run) 5 = false := by
  decide +kernel

theorem test_met_ProgramWords : let at5 := fun (w : Word) => stands_ w 0 0
    let wait_ := (at5 0x34000000).modChan 5 fun c => { c with st := .wait, markReady := true, waitUntil := some 0 }
    standsAt (at5 0x20020C00) 5 2 = true ∧ bits 0x20020C00 14 2 = 0 ∧ standsAt (at5 0x30000001) 5 3 = true
    ∧ waitCond 0x30000001 = 0 ∧ standsAt (at5 0x40000000) 5 4 = true ∧ bits 0x40000000 27 1 = 0
    ∧ standsAt (at5 0x48000000) 5 4 = true ∧ bits 0x48000000 27 1 = 1 ∧ standsAt (at5 0x5003FC00) 5 5 = true
    ∧ longest { at5 0x5003FC00 with qu := { (at5 0).qu with chuteSelftest := true } } (chanOrigin 5) < bits 0x5003FC00 10 8 + 1
    ∧ (at5 0x5003FC00).ga.chans[(5 : Channel)].markReady = false ∧ standsAt (at5 0x60000000) 5 6 = true
    ∧ bits 0x70000000 28 4 = 7 ∧ standsAt (at5 0x10000001) 5 1 = true ∧ bits 0x10000001 27 1 = 0
    ∧ engineOn wait_ = true ∧ waitHolds wait_ 5 = true ∧ wait_.ga.chans[(5 : Channel)].st = .wait
    ∧ wait_.ga.chans[(5 : Channel)].waitUntil = some 0 ∧ 0 ≤ 1000 * wait_.ck.mono
    ∧ waitHolds (wait_.modChan 5 fun c => { c with markReady := false }) 5 = false
    ∧ wait_.ga.chans[(5 : Channel)].stopReq = false ∧ (at5 0x10000001).ga.chans[(5 : Channel)].moved = 0 := by decide +kernel

theorem test_met_Channels : let s := (stands_ 0x18000001 0x00060000 0x00060004).modChan 5 fun c =>
      { c with st := .stall, src := 0x60000, dst := 0x60004, stopReq := true, ringWait := some ([], 0) }
    engineOn s = true ∧ s.ga.chans[(5 : Channel)].st = .stall ∧ standsAt s 5 1 = true ∧ canMove s 5 = true
    ∧ paceLevel s 5 = none ∧ s.ga.chans[(5 : Channel)].stopReq = true
    ∧ s.ga.chans[(5 : Channel)].ringWait = some ([], 0) ∧ 0 + 10 ≤ (time_ 10 s).ck.mono ∧ (time_ 9 s).ck.mono < 0 + 10
    ∧ (at_ .run).ga.chans[(5 : Channel)].ringWait = none
    ∧ (let q := (stands_ 0 0 0).modChan 5 fun c => { c with stopReq := true }
       q.ga.chans[(5 : Channel)].stopReq = true ∧ q.ga.chans[(5 : Channel)].st = .run
       ∧ q.ga.chans[(5 : Channel)].ringWait = none ∧ q.ga.chans[(5 : Channel)].moved = 0)
    ∧ ((at_ .run).modChan 5 fun c => { c with st := .paused }).ga.chans[(5 : Channel)].st = .paused := by decide +kernel

theorem test_met_Queue : let w : Waiter := ⟨13, 2, [0], 1, 0⟩
    let s := { burst_ (at_ .run) with qu := { (at_ .run).qu with waiters := [w], spell := some (0, 0, 0, 1, 0) } }
    let r := { at_ .run with qu := { (at_ .run).qu with regions := [⟨13, 2, 1, [0], true, false, 0⟩] } }
    fastFree s = true ∧ firstWaiter (s.qu.waiters.filter (canGrant s)) = some w
    ∧ (at_ .run).qu.waiters.filter (canGrant (at_ .run)) = []
    ∧ s.qu.waiters.find? (fun v => v.origin = chanOrigin 5 && v.cls ≠ 1) = some w
    ∧ w.since + pnat s 0x7005 ≤ (time_ (pnat s 0x7005) s).ck.mono ∧ s.qu.spell = some (0, 0, 0, 1, 0)
    ∧ 0 + 1000 ≤ (time_ 1000 s).ck.mono ∧ (visible r).isSome = true
    ∧ r.qu.lingerFrom + pnat r 0x7002 ≤ (time_ (pnat r 0x7002) r).ck.mono ∧ visible (at_ .run) = none
    ∧ fillOf (at_ .run).qu = 0 ∧ fastOn r = true
    ∧ { (at_ .run).pw with pass := .drain }.pass = .drain ∧ fillOf r.qu ≠ 0 := by decide +kernel

theorem test_met_Drop : let s := (stands_ 0x18000002 0x20000000 0x00060004).modChan 5 fun c =>
      { c with src := 0x20000000, dst := 0x60004, moved := 1 }
    let p := { s with qu := { s.qu with port := some ⟨5, [0], 2⟩ } }
    linesUp p = true ∧ p.serving = true ∧ p.qu.port = some ⟨5, [0], 2⟩ ∧ p.ga.chans[(5 : Channel)].moved ≠ 0
    ∧ fromPort p 5 = true ∧ p.ga.chans[(5 : Channel)].st ≠ .halt ∧ s.qu.port = none := by decide +kernel

theorem test_met_Opening : fingerprintForm "0000:1111:2222:3333:4444:5555:6666:7777" = true
    ∧ sealOk (key_ .metrology .run) .host .m = true ∧ (at_ .run).pair.fingerprint = none
    ∧ (at_ .run).lg.keys.length < 16 ∧ talking up_ = true ∧ talking (at_ .run) = false ∧ pget up_ 0x8100 = 1
    ∧ up_.pair.up ≠ some false ∧ up_.pair.st ≠ .opened ∧ up_.pair.pause ≤ up_.ck.mono ∧ talking down_ = true
    ∧ (open_ up_).pair.st = .opened ∧ talking (open_ up_) = true
    ∧ (let s := up_.modPair fun p => { p with st := .opening, up := some true, step := 2 }
       s.pair.st = .opening ∧ s.pair.txAt + 5000 ≤ s.ck.mono)
    ∧ (let s := down_.modPair fun p => { p with st := .opening, up := some false, step := 3 }
       talking s = true ∧ s.pair.step = 3)
    ∧ pget down_ 0x8100 = 2 ∧ down_.pair.rxAt + 60000 ≤ down_.ck.mono ∧ up_.pair.st ≠ .opening
    ∧ down_.pw.ms = .run ∧ down_.pair.st ≠ .opened := by decide +kernel

theorem test_met_Frames : let s := open_ up_
    s.pair.out = [] ∧ s.pair.offers = [] ∧ halfDuplex s = false ∧ s.pw.ms ≠ .stop ∧ s.pair.unacked < 3
    ∧ s.pair.naks = [] ∧ s.pair.waiting = [] ∧ s.pair.closeRec = none ∧ s.pair.lastClose = none ∧ s.ck.valid = false
    ∧ (s.pair.expect + 65535 - s.pair.expect) % 65535 = 0 ∧ (s.pair.expect + 7 + 65535 - s.pair.expect) % 65535 = 7
    ∧ (s.pair.expect + 8 + 65535 - s.pair.expect) % 65535 = 8
    ∧ (let r := List.replicate 56 (0 : Byte)
       r.length = 56 ∧ entryOf s (readInt r).run (readInt r).start = none ∧ s.se.table.length < 8192
       ∧ findInt s (readInt r).run (readInt r).start = none)
    ∧ (let w := partnerClose s (List.replicate 80 0) [] []
       w.number = 0 ∧ w.count = 0 ∧ w.day ∉ s.pair.foul
       ∧ w.day ∈ (s.modPair fun p => { p with foul := [0] }).pair.foul)
    ∧ recentNaks s = [] ∧ recentNaks (s.modPair fun p => { p with rto := some 3000000, naks := [(1, s.ck.mono)] }) ≠ []
    ∧ s.pair.taken = []
    ∧ closeSlot s 0 = none ∧ (open_ down_).pair.up = some false
    ∧ ((open_ down_).modPair fun p => { p with tq := some 5 }).pair.tq = some 5 := by decide +kernel

theorem test_met_Acknowledged : let f : OutFrame := ⟨1, "#1 ivl 0", 0, 0, 0, 5⟩
    let s := (open_ up_).modPair fun p => { p with out := [f], rto := some 3000000, unacked := 1 }
    let h := (open_ half_).modPair fun p => { p with turn := false }
    s.pair.out = [] ++ [f] ++ [] ∧ f.resends = 0 ∧ f.kind ≠ 4 ∧ s.pair.rtt = none ∧ f.resends < pnat s 0x8103
    ∧ pnat s 0x8103 ≤ ({ f with resends := pnat s 0x8103 } : OutFrame).resends
    ∧ 1000 * f.sentAt + s.pair.rto.getD 0 ≤ 1000 * s.ck.mono ∧ 0 < s.pair.unacked ∧ s.pair.txAt + 50 ≤ s.ck.mono
    ∧ s.pair.acceptAt + 50 ≤ s.ck.mono ∧ halfDuplex h = true ∧ talking h = true ∧ h.pair.turn = false
    ∧ f.sentAt < s.ck.mono ∧ justResent s { f with resends := 1, sentAt := s.ck.mono } = true
    ∧ (∀ g ∈ s.pair.out, g.seq ≠ 0) ∧ h.pair.out = [] ∧ recentNaks s = [] ∧ s.ck.mono < { s.pair with txAt := s.ck.mono }.txAt + 50
    ∧ holdsTurn (h.modPair fun p => { p with turn := true, turnFrom := 0 }) = true ∧ holdsTurn h = false := by decide +kernel

theorem test_met_SessionTimers : let s := open_ up_
    let h := open_ half_
    talking s = true ∧ s.pair.txAt + 1000 * pnat s 0x8104 ≤ s.ck.mono ∧ s.pair.rxAt + 3000 * pnat s 0x8104 ≤ s.ck.mono
    ∧ holdsTurn (h.modPair fun p => { p with turn := true }) = true ∧ holdsTurn h = false ∧ h.pair.up = some true ∧ h.pair.turn = false
    ∧ 1000 * h.pair.txAt + h.pair.rto.getD 0 ≤ 1000 * h.ck.mono ∧ h.pair.offers = []
    ∧ (open_ down_).pair.tq = none ∧ halfDuplex (open_ down_) = false := by decide +kernel

/-! ## Single steps and the spec's worked numbers -/

/-- The transcript under R20. -/
theorem test_get_state : (after (.get h0 ["#0001"]) (at_ .run)).host.sent = [replyText none "ok module.state run"] := by
  decide +kernel

/-- Table 2.2, order 5. -/
theorem test_set_in_view : (after (.set h0 ["#6001", "200"]) (at_ .run)).host.sent = [replyText none "no role"] := by
  decide +kernel

/-- An input that crosses its threshold is counted once; within 50 µs of the crossing it is not (R58). -/
theorem test_tally : let s := after (.tallyCrossing 0 ⟨0, 5000⟩ 100) (at_ .run)
    s.runs[(0 : Run)].tally = 1 ∧ (after (.tallyCrossing 0 ⟨0, 5000⟩ 149) s).runs[(0 : Run)].tally = 1
    ∧ (after (.tallyCrossing 0 ⟨0, 5000⟩ 150) s).runs[(0 : Run)].tally = 2
    ∧ (after (.tallyCrossing 0 ⟨5000, 5000⟩ 150) s).runs[(0 : Run)].tally = 1 := by decide +kernel

/-- Full function ends at 32.0 V of supply (chapter 17). -/
theorem test_supply_above_limit : exec (.supplyApplied 32001) State.reset = .fault .beyondLimits := by rfl

/-- One hour at 60 °C counts as 4.747 h by R337's text and as 4.746 h by its formula; one hour at 25 °C as 0.271 h. -/
theorem test_thermal : 4745500000 ≤ 60 * thermalMinute 600 ∧ 60 * thermalMinute 600 ≤ 4747500000
    ∧ 270500000 ≤ 60 * thermalMinute 250 ∧ 60 * thermalMinute 250 ≤ 271500000 := by decide +kernel

/-- At 19200 baud f is 1.310 s and P is 3; at 1200 baud f is 20.217 s; at 115200 baud P is 18 (R247, R258). -/
theorem test_partner_line : rtoFloor (with_ [(0x8102, 19200)] up_) / 1000 = 1310
    ∧ (rtoFloor (with_ [(0x8102, 1200)] up_) + 500) / 1000 = 20217
    ∧ (preamble (with_ [(0x8102, 19200)] up_)).length = 3 ∧ (preamble (with_ [(0x8102, 115200)] up_)).length = 18 := by
  decide +kernel

/-- The step runs the front command and leaves the rest (R38). -/
theorem test_step_order : (match step { at_ .run with pending := [.knock 100000, .eventTick] } with
    | .next t => t.pending == [.eventTick] && t.ev.knock == some (0, 100000)
    | _ => false) = true := by decide +kernel

/-- Table 7.4: a K-factor of 1176.471 with a correction of +0.300 % is 1180.000 m⁻³; with 1176.470 it is 1179.999 (R144). -/
theorem test_corrected_k : let s := fun (k : Int) => (with_ [(rp 0 0x401, k)] (at_ .run)).modRun 0 fun q =>
      { q with tabK := { q.tabK with live := [(1000, 300), (1000000, 300)] } }
    correctedK (s 1176471) 0 212000 = (1180000, false) ∧ correctedK (s 1176470) 0 212000 = (1179999, false) := by
  decide +kernel

/-- IAPWS-IF97's own check of region 1: at 300 K and 3 MPa v is 0.00100215168 m³/kg and h 115.331273 kJ/kg (R152). -/
theorem test_water : waterProps (whole 300000) (whole 26850) = ⟨9978529, 115331, false, false⟩ := by decide +kernel

/-- Two vectors at right angles lie 90.0° apart (R174). -/
theorem test_tilt : tiltTenths #v[0, 0, 1000] #v[1000, 0, 0] = 900 := by decide +kernel

/-- The words of the table carry no bits, so none is decoded. -/
theorem test_no_words (s : State) : decodeTableWord 16 0 = none ∧ s.withFetchWord 16 0 = s := ⟨rfl, rfl⟩

end Sys2Proof.Tests
end

section
/-! PROOFS. The start sequence (R23, R78): what a move to a state without coils, the clearing of the lines and the counts
taken from KEEP can change, and from it what every START leaves. -/

namespace Sys2Proof.Machine

/-! ## Outputs -/

/-- Only the current outputs change. -/
def CurrentsOnly (s t : State) : Prop := t = { s with io := { s.io with co := t.io.co } }

theorem CurrentsOnly.trans {s t u : State} (a : CurrentsOnly s t) (b : CurrentsOnly t u) : CurrentsOnly s u := by
  unfold CurrentsOnly at *
  rw [b, a]

theorem CurrentsOnly.foldl {α : Type} (g : State → α → State) (hg : ∀ s a, CurrentsOnly s (g s a)) :
    ∀ (xs : List α) (s : State), CurrentsOnly s (xs.foldl g s)
  | [], _ => rfl
  | x :: xs, s => (hg s x).trans (CurrentsOnly.foldl g hg xs (g s x))

theorem modCo_currentsOnly (s : State) (x : Fin 4) (f : Co → Co) : CurrentsOnly s (s.modCo x f) := rfl

theorem refreshCo_currentsOnly (x : Fin 4) (s : State) : CurrentsOnly s (refreshCo x s) := by
  unfold refreshCo
  exact modCo_currentsOnly s x _

theorem refreshOutputs_currentsOnly (s : State) : CurrentsOnly s (refreshOutputs s) :=
  CurrentsOnly.foldl _ (fun t x => refreshCo_currentsOnly x t) _ s

/-! ## What a move may change -/

/-- A line's session as START leaves it: role VIEW and no watch (Table 2.5). -/
def LineSt.cleared (x : LineSt) : Prop := x.role = .view ∧ x.watches = []

theorem LineSt.talks.cleared {x y : LineSt} (h : x.talks y) (hx : x.cleared) : y.cleared := by
  rw [h]
  exact hx

/-- `t` is `u` but for what a move without coils, the clearing of the lines and the counts of KEEP change; a line that is
cleared stays so. The module state, the supply, the clock's time, the stored and pending sets, the latch and the coils,
the sessions, channels, machines and the volatile memories stand. -/
def Moved (u t : State) : Prop :=
  t = { u with
    host := t.host, service := t.service, qu := t.qu, io := t.io, lg := t.lg
    mem := { u.mem with a := t.mem.a, b := t.mem.b }
    sp := { u.sp with framWrites := t.sp.framWrites, trips := t.sp.trips }
    ev := { u.ev with fromKeep := t.ev.fromKeep }
    pw := { u.pw with lastCause := t.pw.lastCause, blockWhole := t.pw.blockWhole, kcFlag := t.pw.kcFlag
                      kcCount := t.pw.kcCount, kcFirst := t.pw.kcFirst, lcKeep := t.pw.lcKeep, lcFirst := t.pw.lcFirst }
    ck := { u.ck with fromCold := t.ck.fromCold }
    cm := { u.cm with attic := t.cm.attic, owner := t.cm.owner } }
  ∧ ∀ l : Line, (u.line l).cleared → (t.line l).cleared

theorem Moved.refl (s : State) : Moved s s := ⟨rfl, fun _ h => h⟩

theorem Moved.trans {s t u : State} (a : Moved s t) (b : Moved t u) : Moved s u := by
  obtain ⟨a1, a2⟩ := a
  obtain ⟨b1, b2⟩ := b
  refine ⟨?_, fun l h => b2 l (a2 l h)⟩
  rw [b1, a1]

theorem Moved.foldl {α : Type} (g : State → α → State) (hg : ∀ s a, Moved s (g s a)) :
    ∀ (xs : List α) (s : State), Moved s (xs.foldl g s)
  | [], s => Moved.refl s
  | x :: xs, s => (hg s x).trans (Moved.foldl g hg xs (g s x))

theorem Moved.ite {s a b : State} {c : Prop} [Decidable c] (ha : Moved s a) (hb : Moved s b) :
    Moved s (if c then a else b) := by
  split
  · exact ha
  · exact hb

theorem Booked.moved {s t : State} (h : Booked s t) : Moved s t := by
  obtain ⟨h1, hh, hv⟩ := h
  refine ⟨?_, fun l => ?_⟩
  · rw [h1]
  · cases l
    · exact hh.cleared
    · exact hv.cleared

theorem CurrentsOnly.moved {s t : State} (h : CurrentsOnly s t) : Moved s t := by
  rw [show t = _ from h]
  exact ⟨rfl, fun _ c => c⟩

theorem modPo_moved (s : State) (x : Fin 4) (f : Po → Po) : Moved s (s.modPo x f) := ⟨rfl, fun _ c => c⟩

theorem openPulses_moved (s : State) : Moved s (openPulses s) :=
  Moved.foldl _ (fun t x => modPo_moved t x _) _ s

theorem endForce_moved (line role : Nat) (x : Fin 4) (s : State) : Moved s (endForce line role x s) := by
  unfold endForce
  split
  · exact ((modCo_currentsOnly s x _).moved.trans (audit_booked _ _ _ _ _ _ _ _).moved).trans
      (refreshCo_currentsOnly x _).moved
  · exact Moved.refl s

theorem endForces_moved (s : State) : Moved s (endForces s) :=
  Moved.foldl _ (fun t x => endForce_moved 0 0 x t) _ s

theorem auditTransition_moved (old new : ModState) (line role : Nat) (c : Cause) (s : State) :
    Moved s (auditTransition old new line role c s) :=
  Moved.ite ⟨rfl, fun _ h => h⟩ (audit_booked _ _ _ _ _ _ _ s).moved

/-! ## Moves to a state without coils -/

/-- The module in state `new` with the trip outputs off. -/
def State.haltedIn (new : ModState) (s : State) : State :=
  { s with pw := { s.pw with ms := new }, sf := { s.sf with coil := false } }

@[simp] theorem State.haltedIn_line (new : ModState) (s : State) (l : Line) : (s.haltedIn new).line l = s.line l := by
  cases l <;> rfl

theorem Moved.haltedIn {s t : State} (new : ModState) (h : Moved s t) : Moved (s.haltedIn new) (t.haltedIn new) := by
  obtain ⟨h1, h2⟩ := h
  refine ⟨?_, fun l => ?_⟩
  · rw [h1]
    rfl
  · rw [State.haltedIn_line, State.haltedIn_line]
    exact h2 l

theorem enter_moved (new : ModState) (line role : Nat) (c : Cause) (s : State) :
    Moved { s with pw := { s.pw with ms := new } } (enter new line role c s) := by
  have recorded : ∀ (x : Nat × Nat) (b : Bool), Moved { s with pw := { s.pw with ms := new } }
      { s with pw := { s.pw with ms := new, lastCause := x, blockWhole := b } } := fun _ _ => ⟨rfl, fun _ h => h⟩
  exact ((recorded _ _).trans (auditTransition_moved _ _ _ _ _ _)).trans (noteAll_talked _ _).booked.moved

theorem coilsOff_moved {new : ModState} {s : State} (h : s.pw.ms = new) : Moved (s.haltedIn new) (coilsOff s) := by
  subst h
  exact ⟨rfl, fun l => by cases l <;> exact id⟩

/-- Every move but one to RUN or SAFE, which raise an event and set the thresholds: the module is in the new state with
its coils off (R22, R23). -/
theorem moveTo_moved {new : ModState} (line role : Nat) (c : Cause) (s : State) (hr : new ≠ .run) (hs : new ≠ .safe) :
    Moved (s.haltedIn new) (moveTo new line role c s) := by
  have hm : moveTo new line role c s = refreshOutputs (openPulses (coilsOff
      (enter new line role c (if s.pw.ms = .run then endForces s else s)))) := by
    cases new
    case run => exact absurd rfl hr
    case safe => exact absurd rfl hs
    all_goals rfl
  rw [hm]
  have forces : Moved s (if s.pw.ms = .run then endForces s else s) := Moved.ite (endForces_moved s) (Moved.refl s)
  have entered := enter_moved new line role c (if s.pw.ms = .run then endForces s else s)
  have inNew : (enter new line role c (if s.pw.ms = .run then endForces s else s)).pw.ms = new := by rw [entered.1]
  exact (((forces.haltedIn new).trans (entered.haltedIn new)).trans (coilsOff_moved inNew)).trans
    ((openPulses_moved _).trans (refreshOutputs_currentsOnly _).moved)

/-! ## The lines -/

theorem emptyAttic_line (line role : Nat) (s : State) (l : Line) : (emptyAttic line role s).line l = s.line l := by
  unfold emptyAttic
  split
  · cases l <;> rfl
  · rw [audit_line]
    cases l <;> rfl

theorem emptyAttic_moved (line role : Nat) (s : State) : Moved s (emptyAttic line role s) := by
  have cleared : ∀ a : List Member, Moved s { s with cm := { s.cm with attic := a, owner := none } } :=
    fun _ => ⟨rfl, fun l => by cases l <;> exact id⟩
  unfold emptyAttic
  split
  · exact cleared s.cm.attic
  · exact (cleared []).trans (audit_booked _ _ _ _ _ _ _ _).moved

theorem modLine_moved (s : State) (l : Line) (f : LineSt → LineSt) (hf : (s.line l).cleared → (f (s.line l)).cleared) :
    Moved s (s.modLine l f) := by
  cases l
  · exact ⟨rfl, fun k => by cases k; exacts [hf, id]⟩
  · exact ⟨rfl, fun k => by cases k; exacts [id, hf]⟩

theorem setRole_view_role (l : Line) (s : State) : ((setRole l .view s).line l).role = .view := by
  simp only [setRole, if_true]
  split_ifs
  all_goals simp only [emptyAttic_line, State.modLine_line]

theorem setRole_view_moved (l : Line) (s : State) : Moved s (setRole l .view s) := by
  simp only [setRole, if_true]
  have exited : Moved s (if (s.line l).role ≠ .view ∧ (s.line l).role ≠ .view
      then audit 0x03 (lineCode l) (roleCode (s.line l).role) 0 0 0 0 s else s) :=
    Moved.ite (audit_booked _ _ _ _ _ _ _ s).moved (Moved.refl s)
  have viewed := exited.trans (modLine_moved _ l (fun x => { x with role := .view, warned := false }) fun h => ⟨rfl, h.2⟩)
  exact Moved.ite (viewed.trans (emptyAttic_moved _ _ _)) viewed

theorem resetLine_cleared (l : Line) (s : State) : ((resetLine l s).line l).cleared := by
  unfold resetLine
  rw [State.modLine_line]
  exact ⟨setRole_view_role l s, rfl⟩

theorem resetLine_moved (l : Line) (s : State) : Moved s (resetLine l s) :=
  (setRole_view_moved l s).trans (modLine_moved _ l _ fun h => ⟨h.1, rfl⟩)

theorem resetLines_moved (s : State) : Moved s (resetLines s) :=
  (resetLine_moved .host s).trans (resetLine_moved .service _)

theorem resetLines_cleared (s : State) : ∀ l : Line, ((resetLines s).line l).cleared
  | .host => (resetLine_moved .service _).2 .host (resetLine_cleared .host s)
  | .service => resetLine_cleared .service _

/-! ## What KEEP counted -/

theorem putCopy_moved (copy off : Nat) (bs : List Byte) (s : State) : Moved s (putCopy copy off bs s) := by
  unfold putCopy
  split
  all_goals exact ⟨rfl, fun _ h => h⟩

theorem mendKeep_moved (s : State) (i : Nat) : Moved s (mendKeep s i) := by
  unfold mendKeep
  dsimp only
  refine Moved.ite (Moved.refl s) (Moved.trans ?_ (moduleNote_booked _ _ _).moved)
  exact (putCopy_moved _ _ _ s).trans ⟨rfl, fun _ h => h⟩

theorem keepEvent_moved (code : Nat) (v1 v2 : Int) (s : State) : Moved s (keepEvent code v1 v2 s) :=
  ⟨rfl, fun _ h => h⟩

theorem keepCounts_moved (s : State) : Moved s (keepCounts s) := by
  have counted : ∀ (k : Nat) (code : Nat) (v1 v2 : Int) (detail : Nat) (n : Int) (u : State),
      Moved u (if k = 0 then u else keepEvent code v1 v2 (audit 0x09 0 0 detail 0 0 n u)) := fun _ _ _ _ _ _ u =>
    Moved.ite (Moved.refl u) ((audit_booked _ _ _ _ _ _ _ u).moved.trans (keepEvent_moved _ _ _ _))
  exact ((counted _ _ _ _ _ _ s).trans (counted _ _ _ _ _ _ _)).trans ⟨rfl, fun _ h => h⟩

/-! ## The parts of a START -/

/-- The first part of a START: the spans of COLD or of KEEP are taken, or the last blocks priced (R71, R77, R78). -/
def startTaken (s : State) : State :=
  if s.pw.ms = .cold then leaveCold s
  else if s.pw.ms = .keep then takeKeeps (blockBoundary s) else quantityPass (blockBoundary s)

/-- A START after its zero-fill; a cold one begins its tally counters at 0 (R73, R78). -/
def startFilled (s : State) : State :=
  volatileReset (if chooseStart (startTaken s) = .cold
    then { startTaken s with runs := (startTaken s).runs.map fun t => { t with tally := 0, latched := 0 } }
    else startTaken s)

/-- The rest of a START: the lines cleared, the module moved, the keep records mended and the counts of KEEP taken. -/
def startMoved (line role : Nat) (c : Cause) (s : State) : State :=
  keepCounts ((if s.pw.ms = .cold ∨ s.pw.ms = .keep then keepIndices s else []).foldl mendKeep
    (moveTo .start line role c (resetLines (startFilled s))))

theorem beginStart_eq (line role : Nat) (c : Cause) (s : State) :
    beginStart line role c s = { startMoved line role c s with
      pw := { (startMoved line role c s).pw with
        startKind := chooseStart (startTaken s), coldSince := false, stopBroken := false, endHeld := false } } := rfl

theorem startMoved_moved (line role : Nat) (c : Cause) (s : State) :
    Moved ((startFilled s).haltedIn .start) (startMoved line role c s) :=
  ((((resetLines_moved _).haltedIn .start).trans (moveTo_moved line role c _ (by decide) (by decide))).trans
    (Moved.foldl mendKeep mendKeep_moved _ _)).trans (keepCounts_moved _)

theorem startMoved_cleared (line role : Nat) (c : Cause) (s : State) (l : Line) :
    ((startMoved line role c s).line l).cleared := by
  have after : Moved ((resetLines (startFilled s)).haltedIn .start) (startMoved line role c s) :=
    ((moveTo_moved line role c _ (by decide) (by decide)).trans (Moved.foldl mendKeep mendKeep_moved _ _)).trans
      (keepCounts_moved _)
  refine after.2 l ?_
  rw [State.haltedIn_line]
  exact resetLines_cleared _ l

theorem unsetCounts_works (s : State) : Works s (unsetCounts s) := by
  unfold unsetCounts
  split
  · exact Works.refl s
  · exact works_runsLg s _ _

theorem takeKeeps_works (s : State) : Works s (takeKeeps s) :=
  ((unsetCounts_works s).trans (works_lg _ _)).trans (pushBacklog_works _ _ _)

/-- Leaving COLD is the clock that resumes unset (R77), with what joins the backlog. -/
theorem leaveCold_works (s : State) :
    Works { s with ck := { s.ck with t := s.ck.stored * msUnits, valid := false, slew := 0, due := none
                                     unsetAt := s.ck.mono, partUnset := true } } (leaveCold s) :=
  (works_runsLg _ _ _).trans (pushBacklog_works _ _ _)

/-- What the first part of a START leaves alone. -/
structure StartStands (s t : State) : Prop where
  latch : t.sf.latch = s.sf.latch
  machines : t.ev.machines = s.ev.machines
  ident : t.ident = s.ident
  cm : t.cm = s.cm
  table : t.sp.table = s.sp.table
  fuses : t.sp.fuses = s.sp.fuses
  pending : t.pending = s.pending
  coldSince : t.pw.coldSince = s.pw.coldSince
  supply : t.pw.supply = s.pw.supply
  vsup : t.pw.vsup = s.pw.vsup

theorem Works.startStands {s t : State} (h : Works s t) : StartStands s t := by
  rw [h.1.1]
  constructor <;> rfl

theorem startTaken_stands (s : State) : StartStands s (startTaken s) := by
  unfold startTaken
  split
  · exact { (leaveCold_works s).startStands with }
  · split
    · exact ((blockBoundary_works s).trans (takeKeeps_works _)).startStands
    · exact ((blockBoundary_works s).trans (quantityPass_works _)).startStands

theorem startFilled_eq (s : State) :
    ∃ u, StartStands s u ∧ u.ck = (startTaken s).ck ∧ startFilled s = volatileReset u := by
  unfold startFilled
  split
  · refine ⟨_, ?_, ?_, rfl⟩
    · exact { startTaken_stands s with }
    · rfl
  · exact ⟨startTaken s, startTaken_stands s, rfl, rfl⟩

/-! ## What a START leaves -/

/-- A state that a START's zero-fill, its move and its cleared lines lead to. -/
theorem started_of_moved {s u t : State} (hu : StartStands s u) (hm : Moved ((volatileReset u).haltedIn .start) t)
    (hl : ∀ l : Line, (t.line l).cleared) : Started s t := by
  obtain ⟨ht, -⟩ := hm
  have ms : t.pw.ms = .start := by rw [ht]; rfl
  have sf : t.sf = { u.sf.fresh with coil := false } := by rw [ht]; rfl
  have pair : t.pair = u.pair.fresh_ := by rw [ht]; rfl
  have ga : t.ga = u.ga.fresh := by rw [ht]; rfl
  have machines : t.ev.machines = u.ev.machines.map StMachine.clear := by rw [ht]; rfl
  have mem : t.mem.sram = [] ∧ t.mem.cellar = [] := by rw [ht]; exact ⟨rfl, rfl⟩
  have ident : t.ident = u.ident := by rw [ht]; rfl
  have cm : t.cm.params = u.cm.params ∧ t.cm.pendingZ = u.cm.pendingZ := by rw [ht]; exact ⟨rfl, rfl⟩
  have sp : t.sp.table = u.sp.table ∧ t.sp.fuses = u.sp.fuses := by rw [ht]; exact ⟨rfl, rfl⟩
  have pending : t.pending = u.pending := by rw [ht]; rfl
  refine ⟨ms, by rw [sf], by rw [sf]; exact hu.latch, by rw [sf]; rfl, hl, by rw [pair]; rfl, fun g => ?_, fun m => ?_,
    mem.1, mem.2, ident.trans hu.ident, by rw [cm.1, hu.cm], by rw [cm.2, hu.cm], sp.1.trans hu.table,
    sp.2.trans hu.fuses, pending.trans hu.pending⟩
  · simp [ga, Gather.fresh, Chan.reset]
  · simp [machines, hu.machines, StMachine.clear]

/-- Of the power record `Started` names the module state alone. -/
theorem Started.withPower {s t : State} (h : Started s t) (p : Power) (hp : p.ms = .start) :
    Started s { t with pw := p } := by
  obtain ⟨-, coil, latch, causes, lines, rest⟩ := h
  exact ⟨hp, coil, latch, causes, fun | .host => lines .host | .service => lines .service, rest⟩

/-- Every START, however begun. -/
theorem beginStart_started (line role : Nat) (c : Cause) (s : State) : Started s (beginStart line role c s) := by
  obtain ⟨u, taken, -, filled⟩ := startFilled_eq s
  have moved := startMoved_moved line role c s
  rw [filled] at moved
  have started := started_of_moved taken moved (startMoved_cleared line role c s)
  rw [beginStart_eq]
  exact started.withPower _ started.1

@[simp] theorem beginStart_startKind (line role : Nat) (c : Cause) (s : State) :
    (beginStart line role c s).pw.startKind = chooseStart (startTaken s) := rfl

@[simp] theorem beginStart_coldSince (line role : Nat) (c : Cause) (s : State) :
    (beginStart line role c s).pw.coldSince = false := rfl

theorem beginStart_supply (line role : Nat) (c : Cause) (s : State) :
    (beginStart line role c s).pw.supply = s.pw.supply ∧ (beginStart line role c s).pw.vsup = s.pw.vsup := by
  obtain ⟨u, taken, -, filled⟩ := startFilled_eq s
  rw [beginStart_eq, (startMoved_moved line role c s).1, filled]
  exact ⟨taken.supply, taken.vsup⟩

/-- The time of a START is that of its first part. -/
theorem beginStart_time (line role : Nat) (c : Cause) (s : State) :
    (beginStart line role c s).ck.t = (startTaken s).ck.t ∧ (beginStart line role c s).ck.valid = (startTaken s).ck.valid := by
  obtain ⟨u, -, time, filled⟩ := startFilled_eq s
  rw [beginStart_eq, (startMoved_moved line role c s).1, filled, ← time]
  exact ⟨rfl, rfl⟩

theorem beginStart_runs (line role : Nat) (c : Cause) (s : State) :
    (beginStart line role c s).runs = (startFilled s).runs := by
  rw [beginStart_eq, (startMoved_moved line role c s).1]
  rfl

theorem startTaken_cold {s : State} (h : s.pw.ms = .cold) : startTaken s = leaveCold s := if_pos h

theorem startTaken_keep {s : State} (h : s.pw.ms = .keep) : startTaken s = takeKeeps (blockBoundary s) := by
  simp [startTaken, h]

/-- From COLD the clock resumes unset at the stored time (R77). -/
theorem leaveCold_time (s : State) : (leaveCold s).ck.t = s.ck.stored * msUnits ∧ (leaveCold s).ck.valid = false := by
  rw [(leaveCold_works s).1.1]
  exact ⟨rfl, rfl⟩

/-- KEEP's end leaves the clock as it was. -/
theorem takeKeeps_time (s : State) :
    (takeKeeps (blockBoundary s)).ck.t = s.ck.t ∧ (takeKeeps (blockBoundary s)).ck.valid = s.ck.valid := by
  rw [((blockBoundary_works s).trans (takeKeeps_works _)).1.1]
  exact ⟨rfl, rfl⟩

theorem chooseStart_cold {s : State} (h : s.pw.coldSince = true) : chooseStart s = .cold := if_pos h

/-- A START after COLD is a cold one (R73). -/
theorem chooseStart_startTaken {s : State} (h : s.pw.coldSince = true) : chooseStart (startTaken s) = .cold :=
  chooseStart_cold ((startTaken_stands s).coldSince.trans h)

/-- A cold START counts from 0 (R73). -/
theorem startFilled_tally {s : State} (h : s.pw.coldSince = true) (r : Run) :
    (startFilled s).runs[r].tally = 0 ∧ (startFilled s).runs[r].latched = 0 := by
  simp [startFilled, chooseStart_startTaken h, volatileReset, RunSt.fresh]

/-! ## The notices that leave at the end -/

theorem Talked.pw {s t : State} (h : Talked s t) : t.pw = s.pw := by rw [h.1]
theorem Talked.ck {s t : State} (h : Talked s t) : t.ck = s.ck := by rw [h.1]
theorem Talked.runs {s t : State} (h : Talked s t) : t.runs = s.runs := by rw [h.1]

theorem Started.talked {s t w : State} (h : Started s t) (ht : Talked t w) : Started s w := by
  obtain ⟨ms, coil, latch, causes, lines, pair, chans, machines, sram, cellar, rest⟩ := h
  have lines' : ∀ l : Line, (w.line l).cleared := fun l => ht.booked.moved.2 l (lines l)
  rw [ht.1] at lines' ⊢
  exact ⟨ms, coil, latch, causes, lines', pair, chans, machines, sram, cellar, rest⟩

/-! ## Supply -/

theorem supplyApplied_low {mv : Nat} (s : State) (h : mv < 17500) : supplyApplied mv s = s :=
  if_neg fun c => by omega

theorem supplyReturn_low {mv : Nat} (s : State) (h : mv < 17500) : supplyReturn mv s = s :=
  if_neg fun c => by omega

theorem supplyApplied_cold {mv : Nat} {s : State} (h : 17500 ≤ mv) (hc : s.pw.ms = .cold) :
    supplyApplied mv s = beginStart 0 0 .supplyApplied (poweredUp mv s) := if_pos ⟨hc, h⟩

theorem supplyReturn_uncommanded {mv : Nat} {s : State} (h : 17500 ≤ mv) (hk : s.pw.ms = .keep)
    (hp : s.pw.supply = false) (hb : s.pw.byCommand = false) :
    supplyReturn mv s = beginStart 0 0 .supplyReturn (poweredUp mv s) := by
  simp [supplyReturn, h, hk, hp, hb]

theorem supplyReturn_commanded {mv : Nat} {s : State} (h : 17500 ≤ mv) (hk : s.pw.ms = .keep)
    (hp : s.pw.supply = false) (hb : s.pw.byCommand = true) :
    supplyReturn mv s = refreshOutputs (poweredUp mv s) := by
  simp [supplyReturn, h, hk, hp, hb]

theorem exec_supplyApplied {mv : Nat} (s : State) (h : mv ≤ 32000) :
    exec (.supplyApplied mv) s = done (supplyApplied mv s) := if_neg (Nat.not_lt.mpr h)

theorem exec_supplyReturn {mv : Nat} (s : State) (h : mv ≤ 32000) :
    exec (.supplyReturn mv) s = done (supplyReturn mv s) := if_neg (Nat.not_lt.mpr h)

theorem exec_supply_beyondLimits {mv : Nat} (s : State) (h : 32000 < mv) :
    exec (.supplyApplied mv) s = .fault .beyondLimits ∧ exec (.supplyReturn mv) s = .fault .beyondLimits :=
  ⟨if_pos h, if_pos h⟩

/-- SUPPLY_APPLIED in COLD begins a cold start. -/
theorem supplyApplied_startsCold {mv : Nat} {s : State} (hlo : 17500 ≤ mv) (hhi : mv ≤ 32000) (hc : s.pw.ms = .cold)
    (hs : s.pw.coldSince = true) :
    ∃ t, exec (.supplyApplied mv) s = .next t ∧ Started s t ∧ t.pw.startKind = .cold ∧ t.pw.coldSince = false
      ∧ t.pw.supply = true ∧ t.pw.vsup = mv ∧ t.ck.valid = false ∧ t.ck.t = s.ck.stored * msUnits
      ∧ ∀ r : Run, t.runs[r].tally = 0 ∧ t.runs[r].latched = 0 := by
  let u := poweredUp mv s
  have talked := flushNotes_talked (beginStart 0 0 .supplyApplied u)
  obtain ⟨supply, vsup⟩ := beginStart_supply 0 0 .supplyApplied u
  obtain ⟨time, valid⟩ := beginStart_time 0 0 .supplyApplied u
  rw [startTaken_cold (s := u) hc] at time valid
  refine ⟨_, by rw [exec_supplyApplied s hhi, supplyApplied_cold hlo hc]; rfl,
    (beginStart_started 0 0 .supplyApplied u).talked talked, ?_⟩
  rw [talked.pw, talked.ck, talked.runs, beginStart_runs, beginStart_startKind]
  exact ⟨chooseStart_startTaken hs, rfl, supply, vsup, valid.trans (leaveCold_time u).2, time.trans (leaveCold_time u).1,
    startFilled_tally hs⟩

/-- SUPPLY_RETURN in KEEP begins a START where no commanded STOP led there. -/
theorem supplyReturn_starts {mv : Nat} {s : State} (hlo : 17500 ≤ mv) (hhi : mv ≤ 32000) (hk : s.pw.ms = .keep)
    (hp : s.pw.supply = false) (hb : s.pw.byCommand = false) :
    ∃ t, exec (.supplyReturn mv) s = .next t ∧ Started s t ∧ t.pw.supply = true ∧ t.pw.vsup = mv
      ∧ t.ck.valid = s.ck.valid ∧ t.ck.t = s.ck.t := by
  let u := poweredUp mv s
  have talked := flushNotes_talked (beginStart 0 0 .supplyReturn u)
  obtain ⟨supply, vsup⟩ := beginStart_supply 0 0 .supplyReturn u
  obtain ⟨time, valid⟩ := beginStart_time 0 0 .supplyReturn u
  rw [startTaken_keep (s := u) hk] at time valid
  refine ⟨_, by rw [exec_supplyReturn s hhi, supplyReturn_uncommanded hlo hk hp hb]; rfl,
    (beginStart_started 0 0 .supplyReturn u).talked talked, ?_⟩
  rw [talked.pw, talked.ck]
  exact ⟨supply, vsup, valid.trans (takeKeeps_time u).2, time.trans (takeKeeps_time u).1⟩

/-- After a commanded STOP the module stays in KEEP (R24). -/
theorem supplyReturn_stays {mv : Nat} {s : State} (hlo : 17500 ≤ mv) (hhi : mv ≤ 32000) (hk : s.pw.ms = .keep)
    (hp : s.pw.supply = false) (hb : s.pw.byCommand = true) :
    ∃ t, exec (.supplyReturn mv) s = .next t
      ∧ t = { s with pw := { s.pw with supply := true, vsup := mv }, io := { s.io with co := t.io.co },
                     host := t.host, service := t.service } := by
  have talked := flushNotes_talked (refreshOutputs (poweredUp mv s))
  have currents := refreshOutputs_currentsOnly (poweredUp mv s)
  refine ⟨_, by rw [exec_supplyReturn s hhi, supplyReturn_commanded hlo hk hp hb]; rfl, ?_⟩
  rw [talked.1, currents]
  rfl

/-- Settles O19: both STARTs are instances of `beginStart_started`, which follows the frame of each part of a START; KEEP
after a commanded STOP only takes its currents anew. -/
theorem supplyBeginsTheStartSequence : Obligations.SupplyBeginsTheStartSequence := by
  unfold Obligations.SupplyBeginsTheStartSequence
  refine fun mv s => ⟨fun hlo hhi => ⟨?_, ?_, ?_⟩, fun low => ⟨?_, ?_⟩, exec_supply_beyondLimits s⟩
  · exact supplyApplied_startsCold hlo hhi
  · exact supplyReturn_starts hlo hhi
  · exact supplyReturn_stays hlo hhi
  · exact gives_of_done ((exec_supplyApplied s (by omega)).trans (by rw [supplyApplied_low s low]))
  · exact gives_of_done ((exec_supplyReturn s (by omega)).trans (by rw [supplyReturn_low s low]))

end Sys2Proof.Machine
end

section
/-! PROOFS. Line commands: bodies that refuse, what a line whose role is VIEW can do, and the commands that only read
(chapter 02). -/

namespace Sys2Proof.Machine

/-! ## Bodies that refuse -/

/-- A check or a body that fails. -/
def Refuses {α : Type} (x : Except Reason α) : Prop := ∃ r, x = .error r

theorem Refuses.error {α : Type} (r : Reason) : Refuses (.error r : Except Reason α) := ⟨r, rfl⟩

theorem Refuses.bind_left {α β : Type} {x : Except Reason α} (k : α → Except Reason β) (h : Refuses x) :
    Refuses (x >>= k) := by
  obtain ⟨r, rfl⟩ := h
  exact ⟨r, rfl⟩

theorem Refuses.bind_right {α β : Type} (x : Except Reason α) {k : α → Except Reason β} (h : ∀ a, Refuses (k a)) :
    Refuses (x >>= k) := by
  cases x with
  | error r => exact ⟨r, rfl⟩
  | ok a => exact h a

theorem need_refuses {b : Bool} (r : Reason) (h : b = false) : Refuses (need b r) := ⟨r, by rw [h]; rfl⟩

/-- A refused line command leaves nothing but its reply. -/
theorem talked_of_refusal {rq : Req} {i : Instr} {verb : String} {body : Body} {s : State}
    (hi : exec i s = done (runLine rq verb body s)) (hs : linesUp s = true) (hb : Refuses (body s)) :
    ∃ t, exec i s = .next t ∧ Talked s t := by
  obtain ⟨r, hr⟩ := hb
  obtain ⟨t, ht, -, talked⟩ := runLine_error (verb := verb) hs hr
  exact ⟨t, hi.trans ht, talked⟩

/-! ## VIEW -/

section View

variable {s : State} {rq : Req} (h : (s.line rq.line).role = .view)

include h

theorem sealOk_view (c : Seal) : sealOk s rq.line c = false := by
  cases c
  all_goals simp [sealOk, h, roleCode]

theorem needRole_view {r : Role} (hr : r ≠ .view) : Refuses (needRole s rq.line r) := by
  refine need_refuses _ (decide_eq_false ?_)
  rw [h]
  cases r
  · exact absurd rfl hr
  all_goals decide

theorem bodySet_view (args : List String) : Refuses (bodySet rq args s) := by
  refine .bind_right _ fun (p, v) => .bind_right _ fun _ => .bind_right _ fun _ => .bind_left _ (need_refuses _ ?_)
  rw [sealOk_view h, Bool.and_false]

theorem bodyStage_view (args : List String) : Refuses (bodyStage rq args s) := by
  refine .bind_right _ fun (p, v) => .bind_right _ fun _ => .bind_right _ fun _ => .bind_right _ fun _ =>
    .bind_left _ (need_refuses _ ?_)
  rw [sealOk_view h, Bool.and_false]

theorem bodyDiscard_view (args : List String) : Refuses (bodyDiscard rq args s) :=
  .bind_right _ fun _ => .bind_right _ fun _ => .bind_right _ fun _ => .bind_left _ (needRole_view h (by decide))

theorem bodyDiscardPending_view (args : List String) : Refuses (bodyDiscardPending rq args s) :=
  .bind_right _ fun _ => .bind_right _ fun _ => .bind_left _ (needRole_view h (by decide))

theorem bodyTimeSet_view (args : List String) : Refuses (bodyTimeSet rq args s) := by
  unfold bodyTimeSet
  split
  · exact .bind_right _ fun _ => .bind_right _ fun _ => .bind_right _ fun _ => .bind_left _ (needRole_view h (by decide))
  · exact .error _

theorem bodyStart_view (args : List String) : Refuses (bodyStart rq args s) := by
  refine .bind_right _ fun _ => .bind_right _ fun _ => .bind_right _ fun _ => .bind_right _ fun _ =>
    .bind_left _ (needRole_view h ?_)
  split
  all_goals decide

theorem bodyStop_view (args : List String) : Refuses (bodyStop rq args s) :=
  .bind_right _ fun _ => .bind_right _ fun _ => .bind_right _ fun _ => .bind_left _ (needRole_view h (by decide))

theorem bodyCoForce_view (args : List String) : Refuses (bodyCoForce rq args s) := by
  unfold bodyCoForce
  split
  · exact .bind_right _ fun _ => .bind_right _ fun _ => .bind_right _ fun _ => .bind_right _ fun _ =>
      .bind_right _ fun _ => .bind_right _ fun _ => .bind_left _ (needRole_view h (by decide))
  · exact .error _

theorem bodyCoForceEnd_view (args : List String) : Refuses (bodyCoForceEnd rq args s) := by
  unfold bodyCoForceEnd
  split
  · exact .bind_right _ fun _ => .bind_right _ fun _ => .bind_right _ fun _ => .bind_left _ (needRole_view h (by decide))
  · exact .error _

theorem bodySafetyReset_view (args : List String) : Refuses (bodySafetyReset rq args s) :=
  .bind_right _ fun _ => .bind_right _ fun _ => .bind_right _ fun _ => .bind_right _ fun _ =>
    .bind_left _ (needRole_view h (by decide))

theorem bodyPair_view (args : List String) : Refuses (bodyPair rq args s) := by
  unfold bodyPair
  split
  · exact .bind_right _ fun _ => .bind_right _ fun _ => .bind_right _ fun _ =>
      .bind_left _ (need_refuses _ (sealOk_view h .m))
  · exact .error _

end View

/-- Settles O9: each of the bodies asks for a role above VIEW before it does anything, so each is refused. -/
theorem viewRoleChangesNothing : Obligations.ViewRoleChangesNothing := by
  unfold Obligations.ViewRoleChangesNothing
  intro rq args s hs h i hi
  simp only [List.mem_cons, List.not_mem_nil, or_false] at hi
  rcases hi with rfl | rfl | rfl | rfl | rfl | rfl | rfl | rfl | rfl | rfl | rfl
  · exact talked_of_refusal rfl hs (bodySet_view h args)
  · exact talked_of_refusal rfl hs (bodyStage_view h args)
  · exact talked_of_refusal rfl hs (bodyDiscard_view h args)
  · exact talked_of_refusal rfl hs (bodyDiscardPending_view h args)
  · exact talked_of_refusal rfl hs (bodyTimeSet_view h args)
  · exact talked_of_refusal rfl hs (bodyStart_view h args)
  · exact talked_of_refusal rfl hs (bodyStop_view h args)
  · exact talked_of_refusal rfl hs (bodyCoForce_view h args)
  · exact talked_of_refusal rfl hs (bodyCoForceEnd_view h args)
  · exact talked_of_refusal rfl hs (bodySafetyReset_view h args)
  · exact talked_of_refusal rfl hs (bodyPair_view h args)

/-! ## States served -/

theorem linesUp_not_cold {s : State} (hs : linesUp s = true) : s.pw.ms ≠ .cold := by
  simp only [linesUp, Bool.and_eq_true, decide_eq_true_eq] at hs
  exact hs.1.2

/-- GET, SHOW, TIME and HELP are served wherever the lines are (Table 1.4). -/
theorem served_always {s : State} {verb : String} (hs : linesUp s = true) (hv : alwaysServed verb = true) :
    served s verb = .ok () := by
  have hc := linesUp_not_cold hs
  unfold served
  cases hm : s.pw.ms
  case cold => exact absurd hm hc
  all_goals simp [hv, need]

/-- Every verb is served in RUN, SAFE and HELD (Table 1.4). -/
theorem served_serving {s : State} (h : s.serving = true) (verb : String) : served s verb = .ok () := by
  simp only [State.serving, Bool.or_eq_true, decide_eq_true_eq] at h
  unfold served
  rcases h with (h | h) | h
  all_goals simp [h]

/-- ROLE is served wherever the lines are but in STOP (Table 1.4). -/
theorem served_role {s : State} (hs : linesUp s = true) (h : s.pw.ms ≠ .stop) : served s "role" = .ok () := by
  have hc := linesUp_not_cold hs
  unfold served
  cases hm : s.pw.ms
  case cold => exact absurd hm hc
  case stop => exact absurd hm h
  all_goals simp [need]

/-! ## Commands that only read -/

@[simp] theorem need_true (r : Reason) : need true r = .ok () := rfl

@[simp] theorem ok_bind {α β : Type} (a : α) (k : α → Except Reason β) : (Except.ok a >>= k) = k a := rfl
@[simp] theorem error_bind {α β : Type} (r : Reason) (k : α → Except Reason β) : (Except.error r >>= k) = .error r := rfl
@[simp] theorem need_false (r : Reason) : need false r = .error r := rfl
@[simp] theorem want_some {α : Type} (a : α) (r : Reason) : want (some a) r = .ok a := rfl

theorem bodyGet_ok {rq : Req} {s : State} {ts : List String} {ps : List PInfo} (hs : linesUp s = true)
    (h1 : 1 ≤ ts.length) (h8 : ts.length ≤ 8) (hf : ts.all paramForm = true)
    (hp : ts.mapM (paramField rq.tag.isSome) = .ok ps) :
    bodyGet rq ts s = .ok (s, closeParts (ps.map fun p => p.name ++ " " ++ readText s p)) := by
  simp [bodyGet, h1, h8, hf, hp, served_always hs (verb := "get") rfl]

theorem bodyShow_ok {rq : Req} {s : State} {t : String} {i : Nat} {more ls : List String} (hs : linesUp s = true)
    (hi : wordField rq.tag.isSome topics t = .ok i) (hl : topicLines s rq.tag.isSome rq.line i more = .ok ls) :
    bodyShow rq (t :: more) s = .ok (s, ls.map ("part " ++ ·) ++ ["ok show " ++ topics.getD i ""]) := by
  simp [bodyShow, hi, hl, served_always hs (verb := "show") rfl]

/-- Settles O10: the bodies of the four commands give back the state they were given. -/
theorem queriesAnswerAndChangeNothing : Obligations.QueriesAnswerAndChangeNothing := by
  unfold Obligations.QueriesAnswerAndChangeNothing
  refine fun rq s hs => ⟨fun ts ps h1 h8 hf hp => ?_, fun t i more ls hi hl => ?_, ?_, ?_⟩
  · exact answers_of_body rfl hs (bodyGet_ok hs h1 h8 hf hp) rfl
  · exact answers_of_body rfl hs (bodyShow_ok hs hi hl) rfl
  · refine answers_of_body rfl hs ?_ rfl
    simp [bodyHelp, served_always hs (verb := "help") rfl]
  · refine answers_of_body rfl hs ?_ rfl
    simp [bodyTime, served_always hs (verb := "time") rfl]

end Sys2Proof.Machine
end

section
/-! PROOFS. WATCH and QUIET (R41, R54): the watch list of a line. -/

namespace Sys2Proof.Machine

@[simp] theorem map_ok {α β : Type} (f : α → β) (a : α) : (Except.ok a : Except Reason α).map f = .ok (f a) := rfl

/-- A line is changed by what becomes of its present content. -/
theorem modLine_congr {s : State} {l : Line} {f g : LineSt → LineSt} (h : f (s.line l) = g (s.line l)) :
    s.modLine l f = s.modLine l g := by
  cases l
  · exact congrArg (fun x => { s with host := x }) h
  · exact congrArg (fun x => { s with service := x }) h

/-! ## WATCH -/

section Watch

variable {rq : Req} {s : State} {t : String} {p : PInfo} (hv : s.serving = true) (hf : paramForm t = true)
  (hp : paramField rq.tag.isSome t = .ok p)

/-- The watch that WATCH sets: the present value counts as the last one sent (R54). -/
def newWatch (s : State) (p : PInfo) (period : Option Nat) : Watch :=
  { param := p.num, period := period, last := readText s p, sentAt := s.ck.mono, recent := [] }

/-- A watch on `n` stands on the line, or a place is free (R54). -/
def watchRoom (ws : List Watch) (n : Nat) : Bool := ws.any (fun v => v.param = n) || ws.length < 16

include hv hf hp

theorem bodyWatch_period {per : String} {m : Nat} (hn : numberLike per = true)
    (hm : countField 100 3600000 per = .ok m) :
    bodyWatch rq [t, per] s = if watchRoom (s.line rq.line).watches p.num = true
      then .ok (s.modLine rq.line fun x => { x with watches := addWatch (newWatch s p (some m)) x.watches },
        ["ok watch " ++ p.name ++ " " ++ natText m])
      else .error .taken := by
  simp only [bodyWatch, hf, hp, hn, hm, served_serving hv, need_true, ok_bind, map_ok, if_true, Option.isNone_some,
    Bool.false_eq_true, if_false]
  change (need (watchRoom (s.line rq.line).watches p.num) .taken >>= _) = _
  cases watchRoom (s.line rq.line).watches p.num
  all_goals rfl

theorem bodyWatch_change {per : String} (hn : numberLike per = false)
    (hc : wordField rq.tag.isSome ["change"] per = .ok 0) (room : watchRoom (s.line rq.line).watches p.num = true) :
    bodyWatch rq [t, per] s =
      .ok (s.modLine rq.line fun x => { x with watches := addWatch (newWatch s p none) x.watches },
        ["ok watch " ++ p.name ++ " " ++ "change"]) := by
  simp only [bodyWatch, hf, hp, hn, hc, served_serving hv, need_true, ok_bind, Bool.false_eq_true, if_false,
    Option.isNone_none, if_true]
  change (need (watchRoom (s.line rq.line).watches p.num) .taken >>= _) = _
  rw [room]
  rfl

/-! ## QUIET -/

theorem bodyQuiet_one (ha : lowerText t ≠ "all") :
    bodyQuiet rq [t] s = .ok (s.modLine rq.line fun x => { x with watches := x.watches.filter fun w => w.param ≠ p.num },
      ["ok quiet " ++ natText ((s.line rq.line).watches.filter fun w => w.param = p.num).length]) := by
  have removed := List.length_eq_length_filter_add (l := (s.line rq.line).watches) (fun w => decide (w.param = p.num))
  simp only [bodyQuiet, hf, hp, ha, served_serving hv, need_true, ok_bind, if_false]
  refine congrArg Except.ok (congrArg₂ Prod.mk (modLine_congr rfl) ?_)
  simp [removed]

end Watch

theorem bodyQuiet_all {rq : Req} {s : State} {a : String} (hv : s.serving = true) (ha : lowerText a = "all")
    (hf : paramForm a = true) :
    bodyQuiet rq [a] s = .ok (s.modLine rq.line fun x => { x with watches := [] },
      ["ok quiet " ++ natText (s.line rq.line).watches.length]) := by
  simp only [bodyQuiet, hf, ha, served_serving hv, need_true, ok_bind, if_true]

theorem modLine_sent (s : State) (l k : Line) (f : LineSt → LineSt) (hf : ∀ x, (f x).sent = x.sent) :
    ((s.modLine l f).line k).sent = (s.line k).sent := by
  cases l <;> cases k
  · exact hf _
  · rfl
  · rfl
  · exact hf _

/-- Settles O11: what WATCH and QUIET do to the list is their body's outcome, which only the room for a watch decides. -/
theorem watchAndQuietKeepTheWatchList : Obligations.WatchAndQuietKeepTheWatchList := by
  unfold Obligations.WatchAndQuietKeepTheWatchList
  refine fun rq s t p hs hv hf hp => ⟨fun per m hn hm room => ?_, fun per hn hc room => ?_, fun per m hn hm other full => ?_,
    fun ha => ?_, fun a ha hfa => ?_⟩
  · exact answers_of_body rfl hs ((bodyWatch_period hv hf hp hn hm).trans (if_pos room)) (modLine_sent _ _ _ _ fun _ => rfl)
  · exact answers_of_body rfl hs (bodyWatch_change hv hf hp hn hc room) (modLine_sent _ _ _ _ fun _ => rfl)
  · have noRoom : ¬watchRoom (s.line rq.line).watches p.num = true := by simp [watchRoom, other, full]
    obtain ⟨w, hw, replied, talked⟩ := runLine_error (rq := rq) (verb := "watch") hs
      ((bodyWatch_period hv hf hp hn hm).trans (if_neg noRoom))
    exact ⟨w, hw, replied, talked⟩
  · exact answers_of_body rfl hs (bodyQuiet_one hv hf hp ha) (modLine_sent _ _ _ _ fun _ => rfl)
  · exact answers_of_body rfl hs (bodyQuiet_all hv ha hfa) (modLine_sent _ _ _ _ fun _ => rfl)

end Sys2Proof.Machine
end

section
/-! PROOFS. Roles (R43, R44, R46): what gaining, losing and missing a role leaves, and the timed happenings of a role. -/

namespace Sys2Proof.Machine

/-! ## What sending changes of a line -/

/-- A line that has only sent and taken notes: its queue, the time of its last line and its role warning stand too. -/
def LineSt.utters (x y : LineSt) : Prop :=
  y = { x with sent := y.sent, echoed := y.echoed, shown := y.shown, watchNotes := y.watchNotes
               otherNotes := y.otherNotes, series := y.series, dropped := y.dropped, cntLost := y.cntLost }

/-- Both lines have only sent and taken notes. -/
def Uttered (s t : State) : Prop := ∀ l : Line, (s.line l).utters (t.line l)

theorem Uttered.refl (s : State) : Uttered s s := fun _ => rfl

theorem Uttered.trans {s t u : State} (a : Uttered s t) (b : Uttered t u) : Uttered s u := by
  intro l
  have a := a l
  have b := b l
  unfold LineSt.utters at *
  rw [b, a]

theorem Uttered.foldl {α : Type} (g : State → α → State) (hg : ∀ s a, Uttered s (g s a)) :
    ∀ (xs : List α) (s : State), Uttered s (xs.foldl g s)
  | [], s => Uttered.refl s
  | x :: xs, s => (hg s x).trans (Uttered.foldl g hg xs (g s x))

theorem Uttered.modLine (s : State) (k : Line) (f : LineSt → LineSt) (h : ∀ x : LineSt, x.utters (f x)) :
    Uttered s (s.modLine k f) := by
  intro l
  cases k <;> cases l
  · exact h _
  · rfl
  · rfl
  · exact h _

theorem noteTo_uttered (l : Line) (text : String) (s : State) : Uttered s (noteTo l text s) := by
  unfold noteTo
  split
  · refine Uttered.modLine s l _ fun x => ?_
    unfold pushNote
    split_ifs
    all_goals rfl
  · exact Uttered.refl s

theorem sendText_uttered (s : State) (l : Line) (text : String) : Uttered s (sendText s l text) := by
  unfold sendText
  exact Uttered.modLine s l _ fun x => rfl

theorem flushLine_uttered (l : Line) (s : State) : Uttered s (flushLine l s) := by
  unfold flushLine
  dsimp only
  split
  · refine Uttered.trans (Uttered.modLine s l _ fun x => ?_) (Uttered.foldl _ (fun t n => sendText_uttered t l _) _ _)
    rfl
  · exact Uttered.refl s

theorem flushNotes_uttered (s : State) : Uttered s (flushNotes s) :=
  (flushLine_uttered .host s).trans (flushLine_uttered .service _)

theorem Uttered.warned {s t : State} (h : Uttered s t) (l : Line) : (t.line l).warned = (s.line l).warned := by rw [h l]
theorem Uttered.queue {s t : State} (h : Uttered s t) (l : Line) : (t.line l).queue = (s.line l).queue := by rw [h l]

/-! ## Booking beside a change -/

theorem Booked.cm {s t : State} (h : Booked s t) : t.cm = s.cm := by rw [h.1]

theorem Booked.withCm {s t : State} (h : Booked s t) (c : Commits) : Booked { s with cm := c } { t with cm := c } := by
  obtain ⟨h1, hh, hv⟩ := h
  refine ⟨?_, hh, hv⟩
  rw [h1]

/-- Booking and a change of a line may come in either order. -/
theorem Booked.modLine {s t : State} (h : Booked s t) (l : Line) {f g : LineSt → LineSt}
    (hfg : ∀ x y : LineSt, x.talks y → (f x).talks (g y)) : Booked (s.modLine l f) (t.modLine l g) := by
  obtain ⟨h1, hh, hv⟩ := h
  cases l
  · refine ⟨?_, hfg _ _ hh, hv⟩
    rw [h1]
    rfl
  · refine ⟨?_, hh, hfg _ _ hv⟩
    rw [h1]
    rfl

theorem modLine_withCm (s : State) (l : Line) (f : LineSt → LineSt) (c : Commits) :
    ({ s with cm := c } : State).modLine l f = { s.modLine l f with cm := c } := by
  cases l <;> rfl

theorem emptyAttic_booked (line role : Nat) (s : State) :
    Booked { s with cm := { s.cm with attic := [], owner := none } } (emptyAttic line role s) := by
  unfold emptyAttic
  split
  case isTrue h =>
    rw [← h]
    exact Booked.refl _
  case isFalse => exact audit_booked _ _ _ _ _ _ _ _

/-! ## Gaining and losing a role -/

/-- The first part of a change of role: the role left is audited and the new one taken (R43). -/
def roleTaken (l : Line) (new : Role) (s : State) : State :=
  (if (s.line l).role ≠ .view ∧ (s.line l).role ≠ new then audit 0x03 (lineCode l) (roleCode (s.line l).role) 0 0 0 0 s
    else s).modLine l fun x => { x with role := new, warned := false }

theorem setRole_eq (l : Line) (new : Role) (s : State) :
    setRole l new s = if new = .view
      then (if (roleTaken l new s).cm.owner = some l then emptyAttic (lineCode l) 0 (roleTaken l new s) else roleTaken l new s)
      else audit 0x02 (lineCode l) (roleCode new) 0 0 0 0 (roleTaken l new s) := rfl

theorem roleTaken_booked (l : Line) (new : Role) (s : State) :
    Booked (s.modLine l fun x => { x with role := new }) (roleTaken l new s) := by
  have exited : Booked s (if (s.line l).role ≠ .view ∧ (s.line l).role ≠ new
      then audit 0x03 (lineCode l) (roleCode (s.line l).role) 0 0 0 0 s else s) :=
    ite_booked (audit_booked _ _ _ _ _ _ _ s) (Booked.refl s)
  refine exited.modLine l fun x y hxy => ?_
  unfold LineSt.talks at *
  rw [hxy]

theorem roleTaken_cm (l : Line) (new : Role) (s : State) : (roleTaken l new s).cm = s.cm := by
  rw [(roleTaken_booked l new s).cm, State.modLine_cm]

theorem roleTaken_sent (l : Line) (new : Role) (s : State) : ((roleTaken l new s).line l).sent = (s.line l).sent := by
  unfold roleTaken
  rw [State.modLine_line]
  split
  · rw [audit_line]
  · rfl

/-- A role other than VIEW is entered (R43). -/
theorem setRole_booked {new : Role} (l : Line) (s : State) (h : new ≠ .view) :
    Booked (s.modLine l fun x => { x with role := new }) (setRole l new s) := by
  rw [setRole_eq, if_neg h]
  exact (roleTaken_booked l new s).trans (audit_booked _ _ _ _ _ _ _ _)

/-- The attic is emptied where the line owns it. -/
def State.atticLeft (s : State) (l : Line) : State :=
  if s.cm.owner = some l then { s with cm := { s.cm with attic := [], owner := none } } else s

/-- A line falls to VIEW, and with it the attic that it owns (R43, R46). -/
theorem setRole_view_booked (l : Line) (s : State) :
    Booked ((s.atticLeft l).modLine l fun x => { x with role := .view }) (setRole l .view s) := by
  have taken := roleTaken_booked l .view s
  rw [setRole_eq, if_pos rfl, roleTaken_cm, State.atticLeft]
  split
  · rw [modLine_withCm, ← roleTaken_cm l .view s]
    exact (taken.withCm _).trans (emptyAttic_booked _ _ _)
  · exact taken

theorem setRole_sent (l : Line) (new : Role) (s : State) : ((setRole l new s).line l).sent = (s.line l).sent := by
  rw [setRole_eq]
  split_ifs
  · rw [emptyAttic_line, roleTaken_sent]
  · rw [roleTaken_sent]
  · rw [audit_line, roleTaken_sent]

/-! ## A wrong code -/

/-- The wrong codes of the last 15 minutes, with one that comes now (R44). -/
def wrongNow (s : State) (l : Line) : List Nat :=
  (s.line l).wrong.filter (fun t => s.ck.mono < t + 900000) ++ [s.ck.mono]

/-- A line on which the wrong codes `w` stand: the fifth locks ROLE until `lock` (R44). -/
def LineSt.missed (w : List Nat) (lock : Nat) (x : LineSt) : LineSt :=
  if 5 ≤ w.length then { x with wrong := [], lockUntil := some lock } else { x with wrong := w }

theorem LineSt.missed_talks (w : List Nat) (lock : Nat) {x y : LineSt} (h : x.talks y) :
    (x.missed w lock).talks (y.missed w lock) := by
  unfold LineSt.talks at *
  rw [h]
  simp only [LineSt.missed]
  split
  all_goals rfl

theorem LineSt.missed_sent (w : List Nat) (lock : Nat) (x : LineSt) : (x.missed w lock).sent = x.sent := by
  unfold LineSt.missed
  split
  all_goals rfl

/-- A wrong code is audited and counted, and a lockout that follows is audited too. -/
theorem wrongCode_eq (l : Line) (s : State) :
    wrongCode l s = if 5 ≤ (wrongNow s l).length
      then auditLine l 0x06 0 0 0 0
        ((auditLine l 0x05 0 0 0 0 s).modLine l (LineSt.missed (wrongNow s l) (s.ck.mono + 900000)))
      else (auditLine l 0x05 0 0 0 0 s).modLine l (LineSt.missed (wrongNow s l) (s.ck.mono + 900000)) := by
  have locked : ∀ h : 5 ≤ (wrongNow s l).length, LineSt.missed (wrongNow s l) (s.ck.mono + 900000)
      = fun x => { x with wrong := [], lockUntil := some (s.ck.mono + 900000) } := fun h => funext fun _ => if_pos h
  have counted : ∀ h : ¬5 ≤ (wrongNow s l).length, LineSt.missed (wrongNow s l) (s.ck.mono + 900000)
      = fun x => { x with wrong := wrongNow s l } := fun h => funext fun _ => if_neg h
  split
  case isTrue h =>
    rw [locked h]
    exact if_pos h
  case isFalse h =>
    rw [counted h]
    exact if_neg h

theorem wrongCode_booked (l : Line) (s : State) :
    Booked (s.modLine l (LineSt.missed (wrongNow s l) (s.ck.mono + 900000))) (wrongCode l s) := by
  have missed := (auditLine_booked l 0x05 0 0 0 0 s).modLine l fun _ _ =>
    LineSt.missed_talks (wrongNow s l) (s.ck.mono + 900000)
  rw [wrongCode_eq]
  split
  · exact missed.trans (auditLine_booked _ _ _ _ _ _ _)
  · exact missed

theorem wrongCode_sent (l : Line) (s : State) : ((wrongCode l s).line l).sent = (s.line l).sent := by
  rw [wrongCode_eq]
  split
  · rw [auditLine_line, State.modLine_line, LineSt.missed_sent, auditLine_line]
  · rw [State.modLine_line, LineSt.missed_sent, auditLine_line]

/-! ## ROLE -/

section Role

variable {rq : Req} {s : State} {name c : String} {r : Role} {code : Nat} (hs : linesUp s = true) (hm : s.pw.ms ≠ .stop)
  (hr : roleField rq.tag.isSome name = .ok r)

include hs hm hr

theorem bodyRole_code (hv : r ≠ .view) (hc : codeField c = .ok code) :
    bodyRole rq [name, c] s = if roleLocked s rq.line then .error .taken
      else if codeOf s r = some code then .ok (setRole rq.line r s, ["ok role " ++ roleName r])
      else .ok (wrongCode rq.line s, ["no role"]) := by
  simp only [bodyRole, List.head?_cons, want_some, ok_bind, List.length_cons, List.length_nil, List.getElem?_cons_succ,
    List.getElem?_cons_zero, hc, hr, served_role hs hm]
  cases roleLocked s rq.line
  all_goals simp [hv]

theorem bodyRole_view (hv : r = .view) (hl : roleLocked s rq.line = false) :
    bodyRole rq [name] s = .ok (setRole rq.line .view s, ["ok role view"]) := by
  simp [bodyRole, hr, hv, hl, served_role hs hm]

theorem bodyRoleCode_ok {c2 : String} {new : Nat} (hv : r ≠ .view) (hc : codeField c = .ok code)
    (hc2 : codeField c2 = .ok new) (hl : roleLocked s rq.line = false) (held : (s.line rq.line).role = r)
    (key : r = .operate ∨ s.pw.sealOpen = true) (right : codeOf s r = some code) :
    bodyRoleCode rq [name, c, c2] s =
      .ok (auditLine rq.line 0x04 (roleCode r) 0 0 0 (s.setCode r new), ["ok role " ++ roleName r]) := by
  have key : (r = .operate || s.pw.sealOpen) = true := by simpa using key
  simp [bodyRoleCode, hr, hc, hc2, hv, hl, held, key, right, served_role hs hm]

end Role

theorem setCode_line (s : State) (r : Role) (c : Nat) (l : Line) : (s.setCode r c).line l = s.line l := by
  cases r <;> cases l <;> rfl

/-- Settles O12: the body of ROLE splits on the lockout and the code alone, and each outcome books what it did. -/
theorem roleIsEnteredByItsCode : Obligations.RoleIsEnteredByItsCode := by
  unfold Obligations.RoleIsEnteredByItsCode
  intro rq s name c r code hs hm hr hv hc
  have body := bodyRole_code hs hm hr hv hc
  refine ⟨fun hl => ?_, fun hl => ?_⟩
  · rw [if_neg (by simp [hl])] at body
    refine ⟨fun right => ?_, fun wrong => ?_, fun v hview => ?_, fun c2 new hc2 held key right => ?_⟩
    · exact booked_of_body rfl hs (body.trans (if_pos right)) (setRole_sent ..) (setRole_booked _ s hv)
    · exact booked_of_body rfl hs (body.trans (if_neg wrong)) (wrongCode_sent ..) (wrongCode_booked _ s)
    · exact booked_of_body rfl hs (bodyRole_view hs hm hview rfl hl) (setRole_sent ..) (setRole_view_booked _ s)
    · refine booked_of_body rfl hs (bodyRoleCode_ok hs hm hr hv hc hc2 hl held key right) ?_ (auditLine_booked _ _ _ _ _ _ _)
      rw [auditLine_line, setCode_line]
  · obtain ⟨w, hw, replied, talked⟩ := runLine_error (rq := rq) (verb := "role") hs (body.trans (if_pos hl))
    exact ⟨w, hw, replied, talked⟩

/-! ## The timed happenings of a role -/

theorem roleIdleTimeout_due {l : Line} {s : State} (hp : s.pw.supply = true) (hr : (s.line l).role ≠ .view)
    (hi : (s.line l).lineAt + 60000 * pnat s (lineBase l + 3) ≤ s.ck.mono) :
    roleIdleTimeout l s = noteTo l "role view" (setRole l .view s) := if_pos ⟨hp, hr, hi⟩

theorem roleWarnDue_due {l : Line} {s : State} (hp : s.pw.supply = true) (hr : (s.line l).role ≠ .view)
    (hw : pnat s (lineBase l + 4) ≠ 0) (h0 : (s.line l).warned = false)
    (hi : (s.line l).lineAt + 60000 * (pnat s (lineBase l + 3) - pnat s (lineBase l + 4)) ≤ s.ck.mono) :
    roleWarnDue l s = noteTo l ("role warn " ++ natText (pnat s (lineBase l + 4)))
      (s.modLine l fun y => { y with warned := true }) := if_pos ⟨hp, hr, hw, h0, hi⟩

/-- Settles O13: each row is due, and what it does is a fall to VIEW, a mark on the line, or the end of the lockout. -/
theorem roleTimersFallAndWarn : Obligations.RoleTimersFallAndWarn := by
  unfold Obligations.RoleTimersFallAndWarn
  refine fun l s => ⟨fun hp hr hi => ?_, fun hp hr hw h0 hi => ?_, fun u hu due => ?_⟩
  · refine givesBooked_of_done rfl ?_
    rw [roleIdleTimeout_due hp hr hi]
    exact (setRole_view_booked l s).trans (noteTo_talked _ _ _).booked
  · refine ⟨_, rfl, ?_, ?_⟩
    · rw [roleWarnDue_due hp hr hw h0 hi, (flushNotes_uttered _).warned, (noteTo_uttered _ _ _).warned, State.modLine_line]
    · rw [roleWarnDue_due hp hr hw h0 hi]
      refine ((Talked.modLine s l _ fun x => ?_).trans (noteTo_talked _ _ _)).trans (flushNotes_talked _)
      rfl
  · exact congrArg Host.Outcome.next (by simp only [roleLockoutEnd, hu, due, if_true])

end Sys2Proof.Machine
end

section
/-! PROOFS. Receiving (R28, R31, R33, R35, R52, R57): what a character and a line end change. -/

namespace Sys2Proof.Machine

/-! ## The start bit -/

/-- `t` is `s` but for the lines and a fast domain that a start bit on `l` woke (R57); the line's role stands. -/
structure Woken (l : Line) (s t : State) : Prop where
  body : t = { s with host := t.host, service := t.service, pw := { s.pw with pass := t.pw.pass } }
  pass : t.pw.pass = if s.pw.pass = .asleep then .line else s.pw.pass
  charAt : (t.line l).charAt = s.ck.mono
  role : (t.line l).role = (s.line l).role

/-- `Woken`, where the line neither sends nor ends. -/
structure Typed (l : Line) (s t : State) : Prop extends Woken l s t where
  sent : (t.line l).sent = (s.line l).sent
  queue : (t.line l).queue = (s.line l).queue

@[simp] theorem wakeLine_line (s : State) (l : Line) : (wakeLine s).line l = s.line l := by
  unfold wakeLine
  split
  · cases l <;> rfl
  · rfl

@[simp] theorem startBit_line (l : Line) (s : State) : (startBit l s).line l = { s.line l with charAt := s.ck.mono } := by
  rw [startBit, wakeLine_line, State.modLine_line]

theorem wakeLine_eq (s : State) :
    wakeLine s = { s with pw := { s.pw with pass := if s.pw.pass = .asleep then .line else s.pw.pass } } := by
  unfold wakeLine
  split
  · rfl
  · rfl

theorem startBit_typed (l : Line) (s : State) : Typed l s (startBit l s) where
  body := by
    rw [startBit, wakeLine_eq]
    cases l <;> rfl
  pass := by
    rw [startBit, wakeLine_eq]
    cases l <;> rfl
  charAt := by rw [startBit_line]
  role := by rw [startBit_line]
  sent := by rw [startBit_line]
  queue := by rw [startBit_line]

theorem Woken.modLine {l : Line} {s t : State} (h : Woken l s t) {f : LineSt → LineSt}
    (hc : ∀ x, (f x).charAt = x.charAt) (hr : ∀ x, (f x).role = x.role) : Woken l s (t.modLine l f) where
  body := by
    rw [State.modLine_pw]
    cases l
    all_goals exact (congrArg (State.modLine · _ f) h.body).trans rfl
  pass := by rw [State.modLine_pw, h.pass]
  charAt := by rw [State.modLine_line, hc, h.charAt]
  role := by rw [State.modLine_line, hr, h.role]

theorem Typed.modLine {l : Line} {s t : State} (h : Typed l s t) {f : LineSt → LineSt}
    (hf : ∀ x, (f x).charAt = x.charAt ∧ (f x).role = x.role ∧ (f x).sent = x.sent ∧ (f x).queue = x.queue) :
    Typed l s (t.modLine l f) where
  toWoken := h.toWoken.modLine (fun x => (hf x).1) fun x => (hf x).2.1
  sent := by rw [State.modLine_line, (hf _).2.2.1, h.sent]
  queue := by rw [State.modLine_line, (hf _).2.2.2, h.queue]

theorem Talked.line {s t : State} (h : Talked s t) (l : Line) : (s.line l).talks (t.line l) := by
  cases l
  · exact h.2.1
  · exact h.2.2

theorem Talked.charAt {s t : State} (h : Talked s t) (l : Line) : (t.line l).charAt = (s.line l).charAt := by rw [h.line l]
theorem Talked.role {s t : State} (h : Talked s t) (l : Line) : (t.line l).role = (s.line l).role := by rw [h.line l]
theorem Talked.buf {s t : State} (h : Talked s t) (l : Line) : (t.line l).buf = (s.line l).buf := by rw [h.line l]
theorem Talked.cntBusy {s t : State} (h : Talked s t) (l : Line) : (t.line l).cntBusy = (s.line l).cntBusy := by
  rw [h.line l]

theorem Woken.talked {l : Line} {s t u : State} (h : Woken l s t) (ht : Talked t u) : Woken l s u where
  body := by
    rw [ht.1, h.body]
  pass := by rw [ht.pw, h.pass]
  charAt := by rw [ht.charAt, h.charAt]
  role := by rw [ht.role, h.role]

/-! ## Characters -/

theorem characterReceived_down {s : State} (l : Line) (c : RxChar) (hs : linesUp s = false) : characterReceived l c s = s :=
  if_neg (by simp [hs])

theorem lineEndReceived_down {s : State} (l : Line) (e : LineEnd) (hs : linesUp s = false) : lineEndReceived l e s = s :=
  if_neg (by simp [hs])

theorem characterReceived_framing {s : State} (l : Line) (hs : linesUp s = true) :
    characterReceived l .framing s = startBit l s := if_pos hs

/-- A served line after the start bit of a character that is no CR. -/
def byteTaken (l : Line) (s : State) : State := (startBit l s).modLine l fun x => { x with lastCr := false }

theorem byteTaken_line (l : Line) (s : State) :
    (byteTaken l s).line l = { s.line l with charAt := s.ck.mono, lastCr := false } := by
  rw [byteTaken, State.modLine_line, startBit_line]

theorem byteTaken_typed (l : Line) (s : State) : Typed l s (byteTaken l s) :=
  (startBit_typed l s).modLine fun _ => ⟨rfl, rfl, rfl, rfl⟩

/-- Whatever the character, the line neither sends nor ends. -/
theorem characterReceived_typed {s : State} (l : Line) (c : RxChar) (hs : linesUp s = true) :
    Typed l s (characterReceived l c s) := by
  have taken := byteTaken_typed l s
  unfold characterReceived
  rw [if_pos hs]
  cases c with
  | framing => exact startBit_typed l s
  | collision =>
    dsimp only
    split
    · exact (startBit_typed l s).modLine fun _ => ⟨rfl, rfl, rfl, rfl⟩
    · exact startBit_typed l s
  | byte b =>
    dsimp only
    split
    · exact taken
    split
    · split
      · exact taken.modLine fun _ => ⟨rfl, rfl, rfl, rfl⟩
      split
      · exact taken
      · exact taken.modLine fun _ => ⟨rfl, rfl, rfl, rfl⟩
    split
    · split
      · exact taken.modLine fun _ => ⟨rfl, rfl, rfl, rfl⟩
      · exact taken.modLine fun _ => ⟨rfl, rfl, rfl, rfl⟩
    · exact taken

/-- The echo of a character on a line whose echo is on and which holds no tag (R31, R33). -/
def echoOf (l : Line) (c : Char) (s : State) : List Char :=
  if pget s (lineBase l + 1) = 1 && ((s.line l).buf ++ [c]).head? ≠ some '#' then [c] else []

/-- A printable character on a line that discards nothing (R28, R31). -/
theorem characterReceived_printable {s : State} {l : Line} {b : Byte} (hs : linesUp s = true) (h32 : 32 ≤ b.toNat)
    (h126 : b.toNat ≤ 126) (hd : (s.line l).discard = false) :
    characterReceived l (.byte b) s = if (s.line l).buf.length < 240
      then (byteTaken l s).modLine l fun y =>
        { y with buf := y.buf ++ [Char.ofNat b.toNat] }.echo (echoOf l (Char.ofNat b.toNat) s)
      else (byteTaken l s).modLine l fun y => { y with tooMuch := true } := by
  have noErase : ¬(b.toNat = 8 ∨ b.toNat = 127) := by omega
  have kept : ¬((byteTaken l s).line l).discard = true := by simp [byteTaken_line, hd]
  unfold characterReceived
  rw [if_pos hs]
  refine ((if_neg kept).trans ((if_neg noErase).trans (if_pos ⟨h32, h126⟩))).trans ?_
  rw [← byteTaken, byteTaken_line]
  rfl

/-! ## Line ends -/

/-- A line that has taken its line end holds nothing (R28). -/
def LineSt.emptied (e : LineEnd) (x : LineSt) : LineSt :=
  { x with buf := [], tooMuch := false, edited := false, discard := false, lastCr := decide (e = .cr) }

/-- A line of characters has ended: it is held no longer, its end is echoed, and it counts as received now. -/
def lineTaken (l : Line) (e : LineEnd) (s : State) : State :=
  ((startBit l s).modLine l fun y => (y.emptied e).echo (if echoes s l then ['\r', '\n'] else [])).modLine l
    fun y => { y with lineAt := s.ck.mono, warned := false }

/-- The sixth line is answered busy at once (R52). -/
def LineSt.refuseBusy (tag : Option Nat) (x : LineSt) : LineSt :=
  { x with cntBusy := x.cntBusy + 1 }.say [replyText tag "busy"]

/-- A line joins the queue (R52), and a failed check is counted (R35). -/
def LineSt.enqueue (q : RxLine × Bool) (x : LineSt) : LineSt :=
  { x with queue := x.queue ++ [q.1], cntCheck := if q.2 then x.cntCheck + 1 else x.cntCheck }

/-- A line end that is not the LF after a CR, behind characters that count. -/
theorem lineEndReceived_taken {s : State} {l : Line} {e : LineEnd} (hs : linesUp s = true)
    (he : ¬(e = .lf ∧ (s.line l).lastCr = true)) (hd : (s.line l).discard = false)
    (hb : ¬((s.line l).buf = [] ∧ (s.line l).tooMuch = false)) :
    lineEndReceived l e s = if 5 ≤ (s.line l).queue.length
      then (lineTaken l e s).modLine l (LineSt.refuseBusy (splitTag (s.line l).buf).1.join)
      else pump l ((lineTaken l e s).modLine l (LineSt.enqueue (judge (s.line l)))) := by
  rw [lineEndReceived, if_pos hs]
  exact ((if_neg he).trans (if_neg (by simp [hd]))).trans (if_neg hb)

theorem lineEndReceived_woken {s : State} (l : Line) (e : LineEnd) (hs : linesUp s = true) :
    Woken l s (lineEndReceived l e s) := by
  have started := (startBit_typed l s).toWoken
  by_cases he : e = .lf ∧ (s.line l).lastCr = true
  · rw [lineEndReceived, if_pos hs]
    dsimp only
    rw [if_pos he]
    exact started.modLine (fun _ => rfl) fun _ => rfl
  cases hd : (s.line l).discard
  case true =>
    rw [lineEndReceived, if_pos hs]
    dsimp only
    rw [if_neg he, if_pos hd]
    exact started.modLine (fun _ => rfl) fun _ => rfl
  by_cases hb : (s.line l).buf = [] ∧ (s.line l).tooMuch = false
  · rw [lineEndReceived, if_pos hs]
    dsimp only
    rw [if_neg he, if_neg (by simp [hd]), if_pos hb]
    exact started.modLine (fun _ => rfl) fun _ => rfl
  rw [lineEndReceived_taken hs he hd hb]
  have taken : Woken l s (lineTaken l e s) :=
    (started.modLine (f := fun y => (y.emptied e).echo _) (fun _ => rfl) fun _ => rfl).modLine (fun _ => rfl) fun _ => rfl
  split
  · exact taken.modLine (fun _ => rfl) fun _ => rfl
  · exact Woken.talked (taken.modLine (f := LineSt.enqueue _) (fun _ => rfl) fun _ => rfl) (pump_talked _ _)

theorem lineTaken_line (l : Line) (e : LineEnd) (s : State) :
    (lineTaken l e s).line l = { (({ s.line l with charAt := s.ck.mono } : LineSt).emptied e).echo
      (if echoes s l then ['\r', '\n'] else []) with lineAt := s.ck.mono, warned := false } := by
  rw [lineTaken, State.modLine_line, State.modLine_line, startBit_line]

theorem answered_none : ∀ {q : List RxLine}, (∀ y ∈ q, y.answer = none) → answered q = ([], q)
  | [], _ => rfl
  | y :: q, h => by rw [answered, h y (List.mem_cons_self ..)]

theorem pump_queue {l : Line} {s : State} (h : ∀ y ∈ (s.line l).queue, y.answer = none) :
    ((pump l s).line l).queue = (s.line l).queue := by
  rw [pump, State.modLine_line, LineSt.say_queue, answered_none h]

/-- Settles O14: every outcome is the start bit with changes of the one line behind it. -/
theorem receivedCharactersAreHeld : Obligations.ReceivedCharactersAreHeld := by
  unfold Obligations.ReceivedCharactersAreHeld
  refine fun l s => ⟨fun hs => ⟨fun c => ?_, fun e => ?_⟩, fun hs => ⟨fun c => ?_, fun e => ?_, fun b h32 h126 hd => ?_,
    congrArg _ (characterReceived_framing l hs), fun e he hd hb hq => ?_⟩⟩
  · exact congrArg _ (characterReceived_down l c hs)
  · exact congrArg _ ((congrArg flushNotes (lineEndReceived_down l e hs)).trans (flushNotes_down hs))
  · have typed := characterReceived_typed l c hs
    exact ⟨_, rfl, ⟨typed.body, typed.pass, typed.charAt, typed.role⟩, typed.sent, typed.queue⟩
  · have woken := (lineEndReceived_woken l e hs).talked (flushNotes_talked _)
    exact ⟨_, rfl, woken.body, woken.pass, woken.charAt, woken.role⟩
  · have hc := characterReceived_printable hs h32 h126 hd
    refine ⟨_, rfl, fun room => ?_, fun full => ?_⟩
    · rw [hc, if_pos room, State.modLine_line, LineSt.echo_buf, byteTaken_line]
    · rw [hc, if_neg (Nat.not_lt.mpr full), State.modLine_line, byteTaken_line]
      exact ⟨rfl, rfl⟩
  · have received := lineEndReceived_taken hs he hd fun h => hb h.1
    have talked := flushNotes_talked (lineEndReceived l e s)
    have uttered := flushNotes_uttered (lineEndReceived l e s)
    refine ⟨_, rfl, ?_, fun room unanswered => ?_, fun full => ⟨?_, ?_, ?_⟩⟩
    · rw [talked.buf, received]
      split
      · rw [State.modLine_line, lineTaken_line]
        rfl
      · rw [(pump_talked _ _).buf, State.modLine_line, lineTaken_line]
        rfl
    · have none : ∀ y ∈ (((lineTaken l e s).modLine l (LineSt.enqueue (judge (s.line l)))).line l).queue,
          y.answer = none := by
        rw [State.modLine_line, lineTaken_line]
        intro y hy
        rcases List.mem_append.mp hy with hy | hy
        · exact hq y hy
        · rw [List.mem_singleton.mp hy, unanswered]
      rw [uttered.queue, received, if_neg (by omega), pump_queue none, State.modLine_line, lineTaken_line]
      rfl
    · rw [uttered.queue, received, if_pos full, State.modLine_line, lineTaken_line]
      rfl
    · rw [talked.cntBusy, received, if_pos full, State.modLine_line, lineTaken_line]
      rfl
    · obtain ⟨more, hm⟩ := flushNotes_sent l (lineEndReceived l e s)
      refine ⟨more, hm.trans ?_⟩
      rw [received, if_pos full, State.modLine_line, lineTaken_line]
      rfl

end Sys2Proof.Machine
end

section
/-! PROOFS. The seal loop in a drain pass (R360, R181, R198). -/

namespace Sys2Proof.Machine

theorem Booked.pw {s t : State} (h : Booked s t) : t.pw = s.pw := by rw [h.1]

theorem measuring_not_keep {s : State} (h : measuring s = true) : s.pw.ms ≠ .cold ∧ s.pw.ms ≠ .keep := by
  simp only [measuring, Bool.or_eq_true, decide_eq_true_eq] at h
  rcases h with h | h
  all_goals simp [h]

/-- In RUN and SAFE a change of the seal loop wakes the fast domain for an event pass, and a drain pass gives way to it. -/
theorem sealLoopChange_drain {s : State} {o : Bool} (hm : measuring s = true) (ho : s.pw.sealOpen ≠ o)
    (hd : s.pw.pass = .drain) : (sealLoopChange o s).pw.pass = .event := by
  obtain ⟨notCold, notKeep⟩ := measuring_not_keep hm
  have changed : ¬(s.pw.ms = .cold ∨ s.pw.sealOpen = o) := fun h => h.elim notCold ho
  rw [sealLoopChange, if_neg changed]
  dsimp only
  rw [if_neg notKeep]
  have power := fun u => (audit_booked 0x08 0 0 (if o then 1 else 0) 0 0
    ((if o then s.pw.lcCount + 1 else s.pw.lcCount).toNat : Nat) u).pw
  simp only [wakeEvent, raiseEvent, measuring, power, hd]
  simp only [measuring] at hm
  simp [hm]

/-- RUN during a drain pass, with the seal loop closed. -/
def drainPass : State := { State.reset with pw := { State.reset.pw with ms := .run, pass := .drain } }

/-- Refutes O26: the statement keeps every pass but that of a sleeping domain, while an opening in RUN turns the drain pass
of `drainPass` into an event pass. -/
theorem not_sealLoopAndInputsAreWatched : ¬ Obligations.SealLoopAndInputsAreWatched := by
  unfold Obligations.SealLoopAndInputsAreWatched
  intro h
  obtain ⟨-, changes, -⟩ := h drainPass
  obtain ⟨-, -, run⟩ := changes true (by decide) (by decide)
  obtain ⟨t, exec_eq, booked⟩ := run rfl
  have kept : t.pw.pass = .drain := by rw [booked.pw]; rfl
  have woken : t.pw.pass = .event := by
    rw [← Host.Outcome.next.inj exec_eq, (flushNotes_talked _).pw]
    exact sealLoopChange_drain rfl (by decide) rfl
  exact absurd (kept.symm.trans woken) (by decide)

end Sys2Proof.Machine
end

section
/-! PROOFS. Sets that take effect (R47, R51, R85): the stored values after a set, and what applying a set leaves alone. -/

namespace Sys2Proof.Machine

theorem Talked.cm {s t : State} (h : Talked s t) : t.cm = s.cm := by rw [h.1]

/-! ## Stored values -/

/-- A value stored under one number leaves the others as they read (R368). -/
theorem pLook_pStore_other (ps : List (Nat × Int)) {j k : Nat} (h : j ≠ k) (v : Int) : pLook (pStore ps k v) j = pLook ps j := by
  have found : ∀ qs : List (Nat × Int),
      (store (pDefault k) qs k v).find? (fun q => q.1 = j) = qs.find? fun q => q.1 = j := by
    intro qs
    induction qs with
    | nil =>
      rw [store]
      split
      · rfl
      · simp [Ne.symm h]
    | cons q r ih =>
      obtain ⟨a, x⟩ := q
      rw [store]
      split_ifs
      case pos => rfl
      case neg => simp [Ne.symm h]
      case pos ha _ => simp [← ha, Ne.symm h]
      case neg ha _ => simp [← ha, Ne.symm h]
      case neg => simp [List.find?_cons, ih]
  unfold pLook pStore
  rw [found]

/-- The stored values after members, in their order. -/
def storedAfter (ms : List Member) (ps : List (Nat × Int)) : List (Nat × Int) :=
  ms.foldl (fun ps m => pStore ps m.param m.value) ps

theorem pLook_storedAfter {ms : List Member} {n : Nat} (h : ∀ m ∈ ms, m.param ≠ n) (ps : List (Nat × Int)) :
    pLook (storedAfter ms ps) n = pLook ps n := by
  induction ms generalizing ps with
  | nil => rfl
  | cons m ms ih =>
    exact (ih (fun x hx => h x (List.mem_cons_of_mem _ hx)) _).trans
      (pLook_pStore_other ps (Ne.symm (h m (List.mem_cons_self ..))) m.value)

/-- Members in the order in which a set stores them: numbers below 5000h first (R51, R118). -/
def storingOrder (ms : List Member) : List Member :=
  (ms.filter fun m => m.param < 0x5000) ++ ms.filter fun m => 0x5000 ≤ m.param

/-! ## What applying a set changes -/

/-- `t` is `u` but for what a set can act on: stored values, runs, matrix, engine, machines and outputs, with what is
booked and what the lines have to say; nothing is sent. -/
structure Applied (u t : State) : Prop where
  body : t = { u with
    host := t.host, service := t.service, runs := t.runs, mx := t.mx, en := t.en, ev := t.ev, io := t.io, qu := t.qu
    cm := { u.cm with params := t.cm.params }
    mem := { u.mem with a := t.mem.a, b := t.mem.b }
    lg := { u.lg with gen := t.lg.gen, chains := t.lg.chains }
    sp := { u.sp with framWrites := t.sp.framWrites } }
  host : u.host.talks t.host
  service : u.service.talks t.service
  sent : ∀ l : Line, (t.line l).sent = (u.line l).sent

/-- `Applied`, where no stored value changes. -/
structure Effected (u t : State) : Prop extends Applied u t where
  params : t.cm.params = u.cm.params

theorem Applied.refl (s : State) : Applied s s := ⟨rfl, rfl, rfl, fun _ => rfl⟩

theorem Applied.trans {s t u : State} (a : Applied s t) (b : Applied t u) : Applied s u where
  body := by rw [b.body, a.body]
  host := LineSt.talks_trans a.host b.host
  service := LineSt.talks_trans a.service b.service
  sent l := (b.sent l).trans (a.sent l)

theorem Applied.foldl {α : Type} (g : State → α → State) (hg : ∀ s a, Applied s (g s a)) :
    ∀ (xs : List α) (s : State), Applied s (xs.foldl g s)
  | [], s => Applied.refl s
  | x :: xs, s => (hg s x).trans (Applied.foldl g hg xs (g s x))

theorem Effected.refl (s : State) : Effected s s := ⟨Applied.refl s, rfl⟩

theorem Effected.trans {s t u : State} (a : Effected s t) (b : Effected t u) : Effected s u where
  toApplied := a.toApplied.trans b.toApplied
  params := b.params.trans a.params

theorem Effected.foldl {α : Type} (g : State → α → State) (hg : ∀ s a, Effected s (g s a)) :
    ∀ (xs : List α) (s : State), Effected s (xs.foldl g s)
  | [], s => Effected.refl s
  | x :: xs, s => (hg s x).trans (Effected.foldl g hg xs (g s x))

theorem Effected.ite {s a b : State} {c : Prop} [Decidable c] (ha : Effected s a) (hb : Effected s b) :
    Effected s (if c then a else b) := by
  split
  · exact ha
  · exact hb

/-- What an application leaves alone, by fields. -/
theorem Applied.pw {s t : State} (h : Applied s t) : t.pw = s.pw := by rw [h.body]
theorem Applied.ck {s t : State} (h : Applied s t) : t.ck = s.ck := by rw [h.body]
theorem Applied.sf {s t : State} (h : Applied s t) : t.sf = s.sf := by rw [h.body]
theorem Applied.ident {s t : State} (h : Applied s t) : t.ident = s.ident := by rw [h.body]
theorem Applied.pending {s t : State} (h : Applied s t) : t.pending = s.pending := by rw [h.body]
theorem Applied.cm {s t : State} (h : Applied s t) : t.cm = { s.cm with params := t.cm.params } := by rw [h.body]
theorem Applied.closed {s t : State} (h : Applied s t) : t.lg.closed = s.lg.closed := by rw [h.body]

/-- Booking that sends nothing. -/
theorem Booked.applied {s t : State} (h : Booked s t) (hs : ∀ l : Line, (t.line l).sent = (s.line l).sent) : Applied s t where
  body := by rw [h.1]
  host := h.2.1
  service := h.2.2
  sent := hs

/-- A change of the stored values alone. -/
theorem stored_applied (s : State) (ps : List (Nat × Int)) : Applied s { s with cm := { s.cm with params := ps } } :=
  ⟨rfl, rfl, rfl, fun l => by cases l <;> rfl⟩

/-- Plain updates of what a set can act on. -/
theorem effected_acts (s : State) (r : Vector RunSt 4) (m : Matrix) (e : Engine) (v : Events) (i : Io) :
    Effected s { s with runs := r, mx := m, en := e, ev := v, io := i } :=
  ⟨⟨rfl, rfl, rfl, fun l => by cases l <;> rfl⟩, rfl⟩

theorem modRun_effected (s : State) (r : Run) (f : RunSt → RunSt) : Effected s (s.modRun r f) :=
  effected_acts s _ s.mx s.en s.ev s.io

theorem modMachine_effected (s : State) (m : Fin 8) (f : StMachine → StMachine) : Effected s (s.modMachine m f) :=
  effected_acts s s.runs s.mx s.en _ s.io

theorem modCo_effected (s : State) (x : Fin 4) (f : Co → Co) : Effected s (s.modCo x f) :=
  effected_acts s s.runs s.mx s.en s.ev _

theorem modPo_effected (s : State) (x : Fin 4) (f : Po → Po) : Effected s (s.modPo x f) :=
  effected_acts s s.runs s.mx s.en s.ev _

theorem noteAll_effected (text : String) (s : State) : Effected s (noteAll text s) where
  toApplied := (noteAll_talked text s).booked.applied (noteAll_sent text s)
  params := by rw [(noteAll_talked text s).cm]

/-! ## The parts of what follows from a set -/

theorem failAvg_effected (r : Run) (cause : String) (s : State) : Effected s (failAvg r cause s) := by
  unfold failAvg
  split
  · exact (modRun_effected s r _).trans (noteAll_effected _ _)
  · exact Effected.refl s

theorem failFit_effected (r : Run) (cause : String) (s : State) : Effected s (failFit r cause s) := by
  unfold failFit
  split
  · exact (effected_acts s s.runs _ s.en s.ev s.io).trans (noteAll_effected _ _)
  · exact Effected.refl s

theorem disturb_effected (r : Run) (vib : Bool) (s : State) : Effected s (disturb r vib s) :=
  (modRun_effected s r _).trans (failAvg_effected _ _ _)

theorem disturbPilot_effected (r : Run) (s : State) : Effected s (disturbPilot r s) :=
  (modRun_effected s r _).trans (failAvg_effected _ _ _)

theorem restartFe_effected (r : Run) (s : State) : Effected s (restartFe r s) :=
  ((modRun_effected s r _).trans (failAvg_effected _ _ _)).trans (failFit_effected _ _ _)

theorem effectRun_effected (before s : State) (r : Run) : Effected s (effectRun before s r) := by
  unfold effectRun
  dsimp only
  refine Effected.trans ?_ (modRun_effected _ r _)
  refine Effected.trans ?_ (Effected.ite (disturbPilot_effected r _) (Effected.refl _))
  refine Effected.trans ?_ (modRun_effected _ r _)
  refine Effected.trans ?_ (Effected.ite (disturb_effected r true _) (Effected.refl _))
  refine Effected.trans ?_ (Effected.ite (disturb_effected r false _) (Effected.refl _))
  exact (modRun_effected s r _).trans (Effected.ite (restartFe_effected r _) (Effected.refl _))

theorem effectMachine_effected (before s : State) (m : Fin 8) : Effected s (effectMachine before s m) := by
  unfold effectMachine
  dsimp only
  have adopted := Effected.ite (c := pget before (0x6200 + 0x10 * m.val + 1) ≠ pget s (0x6200 + 0x10 * m.val + 1))
    (modMachine_effected s m fun x => { x with adoptNext := true }) (Effected.refl s)
  exact Effected.ite (adopted.trans (modMachine_effected _ m _)) adopted

theorem reinitLimiter_effected (x : Fin 4) (s : State) : Effected s (reinitLimiter x s) := modCo_effected s x _

theorem refreshCo_effected (x : Fin 4) (s : State) : Effected s (refreshCo x s) := by
  unfold refreshCo
  exact modCo_effected s x _

theorem effectCo_effected (before s : State) (x : Fin 4) : Effected s (effectCo before s x) := by
  unfold effectCo
  dsimp only
  refine Effected.trans ?_ (refreshCo_effected x _)
  refine Effected.trans ?_ (Effected.ite (modCo_effected _ x _) (Effected.refl _))
  exact (Effected.ite (modCo_effected s x _) (Effected.refl s)).trans
    (Effected.ite (reinitLimiter_effected x _) (Effected.refl _))

theorem effectPo_effected (before s : State) (x : Fin 4) : Effected s (effectPo before s x) :=
  Effected.ite (modPo_effected s x _) (Effected.refl s)

theorem effectLevels_effected (s : State) : Effected s (effectLevels s) := effected_acts s s.runs s.mx s.en _ s.io

theorem effectAxes_effected (before s : State) : Effected s (effectAxes before s) :=
  Effected.ite (effected_acts s s.runs s.mx _ s.ev s.io) (Effected.refl s)

/-- Storing a member changes its value, and books the change (R51). -/
theorem storeMember_applied (m : Member) (s : State) : Applied s (storeMember m s) :=
  (stored_applied s (pStore s.cm.params m.param m.value)).trans
    ((audit_booked _ _ _ _ _ _ _ _).applied fun l => congrArg LineSt.sent (audit_line _ _ _ _ _ _ _ _ l))

theorem storeMember_params (m : Member) (s : State) : (storeMember m s).cm.params = pStore s.cm.params m.param m.value :=
  congrArg Commits.params (audit_booked _ _ _ _ _ _ _ _).cm

theorem storeUnless_applied {c : Prop} [Decidable c] (m : Member) (s : State) :
    Applied s (if c then s else storeMember m s) := by
  split
  · exact Applied.refl s
  · exact storeMember_applied m s

theorem effectDi_applied (before s : State) : Applied s (effectDi before s) := by
  unfold effectDi
  dsimp only
  split
  · exact Applied.refl s
  · exact (storeUnless_applied _ s).trans (storeUnless_applied _ _)

/-- Inputs keep their functions where `safety.reset.di` keeps its value (R299). -/
theorem effectDi_same {before s : State} (h : pget before 0xA003 = pget s 0xA003) : effectDi before s = s :=
  if_pos (congrArg Int.toNat h)

/-- All effects but that on the functions of the inputs. -/
def effectsAhead (before s : State) : State :=
  (List.finRange 4).foldl (effectCo before) ((List.finRange 4).foldl (effectPo before)
    ((List.finRange 8).foldl (effectMachine before) (allRuns.foldl (effectRun before)
      (effectAxes before (if storedGains before = storedGains s then s
        else { s with mx := s.mx.takeGains (decide (s.pw.pass = .burst)) (storedGains s) })))))

theorem effects_eq (before s : State) : effects before s = effectLevels (effectDi before (effectsAhead before s)) := rfl

theorem effectsAhead_effected (before s : State) : Effected s (effectsAhead before s) := by
  have gains : Effected s (if storedGains before = storedGains s then s
      else { s with mx := s.mx.takeGains (decide (s.pw.pass = .burst)) (storedGains s) }) :=
    Effected.ite (Effected.refl s) (effected_acts s s.runs _ s.en s.ev s.io)
  exact ((((gains.trans (effectAxes_effected before _)).trans
    (Effected.foldl _ (effectRun_effected before) _ _)).trans
    (Effected.foldl _ (effectMachine_effected before) _ _)).trans
    (Effected.foldl _ (effectPo_effected before) _ _)).trans (Effected.foldl _ (effectCo_effected before) _ _)

theorem effects_applied (before s : State) : Applied s (effects before s) := by
  rw [effects_eq]
  exact ((effectsAhead_effected before s).toApplied.trans (effectDi_applied before _)).trans
    (effectLevels_effected _).toApplied

/-- Beside `safety.reset.di`, what follows from a set stores nothing. -/
theorem effects_params {before s : State} (h : pget before 0xA003 = pget s 0xA003) :
    (effects before s).cm.params = s.cm.params := by
  have ahead := (effectsAhead_effected before s).params
  have same : pget before 0xA003 = pget (effectsAhead before s) 0xA003 :=
    h.trans (congrArg (pLook · 0xA003) ahead.symm)
  rw [effects_eq, (effectLevels_effected _).params, effectDi_same same, ahead]

/-! ## A set as a whole -/

theorem storeAllMembers_applied (ms : List Member) (s : State) : Applied s (ms.foldl (fun t m => storeMember m t) s) :=
  Applied.foldl _ (fun t m => storeMember_applied m t) ms s

theorem storeAllMembers_params (ms : List Member) (s : State) :
    (ms.foldl (fun t m => storeMember m t) s).cm.params = storedAfter ms s.cm.params := by
  induction ms generalizing s with
  | nil => rfl
  | cons m ms ih => exact (ih _).trans (congrArg (storedAfter ms) (storeMember_params m s))

theorem moveGains_applied (before s : State) : Applied s (moveGains before s) := by
  unfold moveGains
  dsimp only
  split
  · exact Applied.refl s
  · exact Applied.foldl _ (fun t c => Applied.foldl _ (fun u k => storeUnless_applied _ u) _ t) _ s

/-- Gains stay where the fast cells do (R118). -/
theorem moveGains_same {before s : State} (h : ∀ n ∈ cellParams true, pget before n = pget s n) : moveGains before s = s :=
  if_pos (List.map_congr_left h)

theorem applyMembers_applied (ms : List Member) (s : State) : Applied s (applyMembers ms s) :=
  (((storeAllMembers_applied _ s).trans (moveGains_applied s _)).trans (storeAllMembers_applied _ _)).trans
    (effects_applied s _)

theorem cellKind_none {n : Nat} : cellKind n = none ↔ n ∉ cellParams true ∧ n ∉ cellParams false := by
  unfold cellKind
  split_ifs
  all_goals simp [*]

/-- Members that assign no cell are not settled again (R85). -/
theorem resettle_same {ms : List Member} (s : State) (h : ∀ m ∈ ms, cellKind m.param = none) : resettle s ms = ms := by
  unfold resettle
  dsimp only
  rw [List.filterMap_congr (g := some) fun m hm => by simp [h m hm], List.filterMap_some]

/-- A set that assigns no cell and leaves `safety.reset.di` alone stores its members and nothing else. -/
theorem applyMembers_params {ms : List Member} (s : State) (hc : ∀ m ∈ ms, cellKind m.param = none)
    (hd : ∀ m ∈ ms, m.param ≠ 0xA003) : (applyMembers ms s).cm.params = storedAfter (storingOrder ms) s.cm.params := by
  have low := storeAllMembers_params (ms.filter fun m => m.param < 0x5000) s
  have moved : moveGains s ((ms.filter fun m => m.param < 0x5000).foldl (fun t m => storeMember m t) s)
      = (ms.filter fun m => m.param < 0x5000).foldl (fun t m => storeMember m t) s := by
    refine moveGains_same fun n hn => ?_
    unfold pget
    rw [low, pLook_storedAfter fun m hm e => ?_]
    exact (cellKind_none.mp (hc m (List.mem_filter.mp hm).1)).1 (e ▸ hn)
  have all : ((ms.filter fun m => 0x5000 ≤ m.param).foldl (fun t m => storeMember m t)
      ((ms.filter fun m => m.param < 0x5000).foldl (fun t m => storeMember m t) s)).cm.params
      = storedAfter (storingOrder ms) s.cm.params := by
    rw [storeAllMembers_params, low, storingOrder, storedAfter, storedAfter, storedAfter, List.foldl_append]
  unfold applyMembers
  rw [resettle_same s hc]
  dsimp only
  rw [moved, effects_params, all]
  unfold pget
  rw [all, pLook_storedAfter fun m hm => hd m ?_]
  rcases List.mem_append.mp hm with h | h
  · exact (List.mem_filter.mp h).1
  · exact (List.mem_filter.mp h).1

/-! ## Classes -/

theorem classRank_le_foldl (ms : List Member) : ∀ c : CommitClass,
    classRank c ≤ classRank (ms.foldl (fun c m => if classRank c < classRank (classOf m.param) then classOf m.param else c) c)
    ∧ ∀ m ∈ ms, classRank (classOf m.param)
      ≤ classRank (ms.foldl (fun c m => if classRank c < classRank (classOf m.param) then classOf m.param else c) c) := by
  induction ms with
  | nil => exact fun c => ⟨le_refl _, fun m hm => by cases hm⟩
  | cons m ms ih =>
    intro c
    obtain ⟨first, rest⟩ := ih (if classRank c < classRank (classOf m.param) then classOf m.param else c)
    have both : classRank c ≤ classRank (if classRank c < classRank (classOf m.param) then classOf m.param else c)
        ∧ classRank (classOf m.param)
          ≤ classRank (if classRank c < classRank (classOf m.param) then classOf m.param else c) := by
      split
      · omega
      · omega
    refine ⟨both.1.trans first, fun x hx => ?_⟩
    rcases List.mem_cons.mp hx with rfl | hx
    · exact both.2.trans first
    · exact rest x hx

/-- No member is stricter than the strictest (R47). -/
theorem classRank_le_strictest {ms : List Member} {m : Member} (h : m ∈ ms) :
    classRank (classOf m.param) ≤ classRank (strictest ms) := (classRank_le_foldl ms .i).2 m h

/-- The parameters that assign slow cells are of class S (Table 4.4). -/
theorem classOf_slowCell : ∀ n ∈ cellParams false, classOf n = .s := by decide

/-- A set of class I assigns no slow cell. -/
theorem slowCell_not_immediate {ms : List Member} (h : strictest ms = .i) : ∀ m ∈ ms, m.param ∉ cellParams false := by
  intro m hm cell
  have rank := classRank_le_strictest hm
  rw [h, classOf_slowCell _ cell] at rank
  exact absurd rank (by decide)

/-! ## Scheduling -/

/-- A set of a class above I is scheduled: class Z joins the pending set, the others wait for their boundary (R47). -/
theorem schedule_timed {ms : List Member} (note : Option Line) (s : State) (h : strictest ms ≠ .i) :
    schedule ms note s = { s with cm := { s.cm with
      pendingZ := if strictest ms = .z then mergeZ s.cm.pendingZ ms else s.cm.pendingZ
      due := if strictest ms = .z then s.cm.due else s.cm.due ++
        [⟨strictest ms, if strictest ms = .f then s.ck.mono else s.ck.mono + (1000 - nowMs s % 1000), ms, note⟩] } } := by
  unfold schedule
  cases hc : strictest ms
  case i => exact absurd hc h
  all_goals rfl

theorem strictest_single (m : Member) : strictest [m] = classOf m.param := by
  simp only [strictest, List.foldl_cons, List.foldl_nil]
  cases classOf m.param
  all_goals rfl

end Sys2Proof.Machine
end

section
/-! PROOFS. The front end: lead calibration and restart (R86, R91, R92, R131). -/

namespace Sys2Proof.Machine

/-! ## Lead calibration -/

theorem bodyFeLeadcal_ok {rq : Req} {s : State} {rt : String} {r : Run} (hv : s.serving = true)
    (key : sealOk s rq.line .m = true) (hr : runField rt = .ok r) :
    bodyFeLeadcal rq [rt] s = .ok (s.modRun r fun t => t.modFe fun f => { f with
      leadcal := some ⟨rp r 0x217, 0, lineCode rq.line, (s.line rq.line).role⟩, leadcalSum := (0, 0) },
      ["ok do fe.leadcal " ++ runText r ++ " started"]) := by
  simp [bodyFeLeadcal, needMetrology, hr, key, served_serving hv]

theorem classOf_leadEntered : ∀ r : Run, classOf (rp r 0x217) = .b := by decide

/-- The mean of a complete calibration is scheduled as `fe.lead` of its run, class B (R92). -/
theorem feLeadcalDone_complete {r : Run} {s : State} {m : Member} (hm : s.runs[r].fe.leadcal = some m)
    (hp : m.param = rp r 0x217) (full : s.runs[r].fe.leadcalSum.2 = 64) :
    feLeadcalDone r s = { (s.modRun r fun t => t.modFe fun f => { f with leadcal := none }) with
      cm := { s.cm with due := s.cm.due ++ [⟨.b, s.ck.mono + (1000 - nowMs s % 1000),
        [{ m with value := clampInt 0 50000 (roundDiv s.runs[r].fe.leadcalSum.1 64) }], lineOf m⟩] } } := by
  have cls : strictest [{ m with value := clampInt 0 50000 (roundDiv s.runs[r].fe.leadcalSum.1 64) }] = .b := by
    rw [strictest_single, hp, classOf_leadEntered]
  simp only [feLeadcalDone, hm, full, if_true]
  rw [schedule_timed _ _ (by rw [cls]; decide), cls]
  rfl

theorem feLeadcalDone_short {r : Run} {s : State} (h : s.runs[r].fe.leadcalSum.2 ≠ 64) : feLeadcalDone r s = s := by
  simp only [feLeadcalDone, h, if_false]
  split
  all_goals rfl

theorem feLeadcalDone_none {r : Run} {s : State} (h : s.runs[r].fe.leadcal = none) : feLeadcalDone r s = s := by
  simp only [feLeadcalDone, h]

/-! ## Restart -/

theorem Talked.withCm {s t : State} (h : Talked s t) (c : Commits) : Talked { s with cm := c } { t with cm := c } := by
  obtain ⟨h1, hh, hv⟩ := h
  refine ⟨?_, hh, hv⟩
  rw [h1]

/-- Beside the lines' talk, run `r` alone changes. -/
structure RunTalked (r : Run) (s t : State) : Prop where
  talked : Talked { s with runs := t.runs } t
  others : ∀ q : Run, q ≠ r → t.runs[q] = s.runs[q]

theorem RunTalked.trans {r : Run} {s t u : State} (a : RunTalked r s t) (b : RunTalked r t u) : RunTalked r s u where
  talked := by
    obtain ⟨⟨a1, ah, av⟩, -⟩ := a
    obtain ⟨⟨b1, bh, bv⟩, -⟩ := b
    refine ⟨?_, LineSt.talks_trans ah bh, LineSt.talks_trans av bv⟩
    rw [b1, a1]
  others q h := (b.others q h).trans (a.others q h)

theorem modRun_runTalked (r : Run) (s : State) (f : RunSt → RunSt) : RunTalked r s (s.modRun r f) where
  talked := ⟨rfl, rfl, rfl⟩
  others q h := State.modRun_other s r q f h

/-- A failed average is dropped, and its notice goes to the lines (R140). -/
theorem failAvg_eq (r : Run) (cause : String) (s : State) :
    RunTalked r s (failAvg r cause s)
    ∧ ∃ avg, (failAvg r cause s).runs[r] = s.runs[r].modPilot fun p => { p with avg := avg } := by
  unfold failAvg
  split
  · have noted := noteAll_talked (spaced ["pilot.ref", runText r, "fail", cause])
      (s.modRun r fun t => t.modPilot fun p => { p with avg := none })
    have changed := modRun_runTalked r s fun t => t.modPilot fun p => { p with avg := none }
    refine ⟨changed.trans ⟨?_, fun q _ => by rw [noted.runs]⟩, none, ?_⟩
    · rw [noted.runs]
      exact noted
    · rw [noted.runs, State.modRun_run]
  · exact ⟨⟨Talked.refl s, fun _ _ => rfl⟩, _, rfl⟩

/-- What a disturbance of a fast path makes of its run, an average apart (R131, R141, R146). -/
def RunSt.disturbed (n : Nat) (vib : Bool) (t : RunSt) : RunSt :=
  ((t.modEng fun e => if vib then { e with vibAnneal := n } else { e with liftAnneal := n }).modPilot
    fun p => { p with disturbed := true }).modCur fun b => { b with disturbed := true }

theorem disturb_eq (r : Run) (vib : Bool) (s : State) :
    RunTalked r s (disturb r vib s)
    ∧ ∃ avg, (disturb r vib s).runs[r]
      = (s.runs[r].disturbed (pathSettle s r vib) vib).modPilot fun p => { p with avg := avg } := by
  obtain ⟨talked, avg, run⟩ := failAvg_eq r "anneal" (s.modRun r (RunSt.disturbed (pathSettle s r vib) vib))
  refine ⟨(modRun_runTalked r s _).trans talked, avg, ?_⟩
  rw [State.modRun_run] at run
  exact run

theorem pnat_congr {s t : State} (h : t.cm = s.cm) : pnat t = pnat s :=
  funext fun n => congrArg (fun c : Commits => (pLook c.params n).toNat) h

theorem pathSettle_congr {s t : State} (h : t.cm = s.cm) (r : Run) (vib : Bool) : pathSettle t r vib = pathSettle s r vib := by
  unfold pathSettle
  rw [pnat_congr h]

theorem noteCommit_talked (l : Option Line) (n : Nat) (s : State) : Talked s (noteCommit l n s) := by
  cases l
  · exact Talked.refl s
  · exact noteTo_talked _ _ s

/-- Class S sets whose restarts are complete are noted. -/
theorem noteRestarts_talked (s : State) :
    Talked { s with cm := { s.cm with restarting := (noteRestarts s).cm.restarting } } (noteRestarts s) := by
  have notes := Talked.foldl (fun t (q : Option Line × Nat) => noteCommit q.1 q.2 t)
    (fun t q => noteCommit_talked q.1 q.2 t) s.cm.restarting { s with cm := { s.cm with restarting := [] } }
  unfold noteRestarts
  split
  · rw [notes.cm]
    exact notes
  · exact Talked.refl s

theorem mem_allRuns : ∀ r : Run, r ∈ allRuns := by decide

theorem noteRestarts_complete {s : State} (h : ∀ q : Run, s.runs[q].fe.restarting = false) :
    (noteRestarts s).cm.restarting = [] := by
  have notes := Talked.foldl (fun t (q : Option Line × Nat) => noteCommit q.1 q.2 t)
    (fun t q => noteCommit_talked q.1 q.2 t) s.cm.restarting { s with cm := { s.cm with restarting := [] } }
  rw [noteRestarts, if_pos (List.all_eq_true.mpr fun q _ => by rw [h q]; rfl), notes.cm]

theorem noteRestarts_waiting {s : State} {q : Run} (h : s.runs[q].fe.restarting = true) : noteRestarts s = s :=
  if_neg fun all => absurd (List.all_eq_true.mp all q (mem_allRuns q)) (by rw [h]; decide)

theorem feRestartDone_early {r : Run} {s : State} (h : s.runs[r].fe.restarting = false ∨ s.ck.awake < s.runs[r].fe.restartAt + 20) :
    feRestartDone r s = s := if_neg fun c => by
  obtain ⟨c1, c2⟩ := c
  rcases h with h | h
  · rw [h] at c1
    exact absurd c1 (by decide)
  · omega

theorem feRestartDone_due {r : Run} {s : State} (h : s.runs[r].fe.restarting = true)
    (due : s.runs[r].fe.restartAt + 20 ≤ s.ck.awake) :
    feRestartDone r s = noteRestarts (disturb r true (disturb r false
      (s.modRun r fun t => t.modFe fun f => { f with restarting := false }))) := if_pos ⟨h, due⟩

/-- Settles O33: a restart's end is two disturbances of its run behind the cleared mark, and the notes that waited. -/
theorem frontEndIsCalibratedAndRestarted : Obligations.FrontEndIsCalibratedAndRestarted := by
  unfold Obligations.FrontEndIsCalibratedAndRestarted
  refine fun r s => ⟨fun rq rt hs hv key hr => ?_, fun m hm hp => ⟨fun full => ?_, fun short => ?_⟩, fun none => ?_,
    fun early => ?_, fun hr due => ?_⟩
  · exact answers_of_body rfl hs (bodyFeLeadcal_ok hv key hr) (by cases rq.line <;> rfl)
  · exact gives_of_done (congrArg done (feLeadcalDone_complete hm hp full))
  · exact gives_of_done (congrArg done (feLeadcalDone_short short))
  · exact gives_of_done (congrArg done (feLeadcalDone_none none))
  · exact gives_of_done (congrArg done (feRestartDone_early early))
  · let u := s.modRun r fun t => t.modFe fun f => { f with restarting := false }
    let d := disturb r true (disturb r false u)
    obtain ⟨liftTalked, a, lift⟩ := disturb_eq r false u
    obtain ⟨vibTalked, b, vib⟩ := disturb_eq r true (disturb r false u)
    rw [pathSettle_congr liftTalked.talked.cm, lift, State.modRun_run] at vib
    have ran : RunTalked r s d := ((modRun_runTalked r s _).trans liftTalked).trans vibTalked
    have noted := (noteRestarts_talked d).trans (flushNotes_talked _)
    have left : (flushNotes (noteRestarts d)).cm.restarting = (noteRestarts d).cm.restarting :=
      congrArg Commits.restarting (flushNotes_talked _).cm
    have fe : d.runs[r].fe = { s.runs[r].fe with restarting := false } := congrArg RunSt.fe vib
    refine ⟨flushNotes (noteRestarts d), congrArg done (feRestartDone_due hr due), ?_⟩
    rw [left, noted.runs]
    refine ⟨fe, ?_, ?_, ?_, ?_, ran.others, ?_, fun complete => ?_, fun ⟨q, hq, waits⟩ => ?_⟩
    · exact congrArg (·.eng.liftAnneal) vib
    · exact congrArg (·.eng.vibAnneal) vib
    · exact congrArg (·.eng.pilot.disturbed) vib
    · exact congrArg (·.qty.cur.disturbed) vib
    · have body := (ran.talked.withCm _).trans noted
      rw [show d.cm = s.cm from ran.talked.cm] at body
      exact body
    · refine noteRestarts_complete fun q => ?_
      by_cases hq : q = r
      · rw [hq, fe]
      · rw [ran.others q hq, complete q hq]
    · rw [noteRestarts_waiting ((congrArg (·.fe.restarting) (ran.others q hq)).trans waits)]
      exact congrArg Commits.restarting ran.talked.cm

end Sys2Proof.Machine
end

section
/-! PROOFS. SET, the attic and the safety confirmation (R42, R46 ... R50, R317, R318). -/

namespace Sys2Proof.Machine

/-! ## Outcomes of a body -/

theorem line_withCm (s : State) (c : Commits) (l : Line) : ({ s with cm := c } : State).line l = s.line l := by
  cases l <;> rfl

/-- An answered line command whose body also takes notes. -/
theorem answers_of_talked {rq : Req} {i : Instr} {verb : String} {body : Body} {s t u : State} {lines : List String}
    (hi : exec i s = done (runLine rq verb body s)) (hs : linesUp s = true) (hb : body s = .ok (t, lines))
    (hl : (t.line rq.line).sent = (s.line rq.line).sent) (hu : Talked u t) : Answers rq i s lines u := by
  obtain ⟨w, hw, ht, m, hm⟩ := runLine_ok (rq := rq) (verb := verb) hs hb
  exact ⟨w, hi.trans hw, ⟨m, by rw [hm, hl]⟩, hu.trans ht⟩

theorem Talked.sf {s t : State} (h : Talked s t) : t.sf = s.sf := by rw [h.1]
theorem Talked.ident {s t : State} (h : Talked s t) : t.ident = s.ident := by rw [h.1]
theorem Talked.pending {s t : State} (h : Talked s t) : t.pending = s.pending := by rw [h.1]

/-- An answered line command whose body applies a set at once: the stored values and sets are those of the body. -/
theorem replied_of_applied {rq : Req} {i : Instr} {verb : String} {body : Body} {s u t : State} {lines : List String}
    (hi : exec i s = done (runLine rq verb body s)) (hs : linesUp s = true) (hb : body s = .ok (t, lines))
    (ha : Applied u t) (hu : (u.line rq.line).sent = (s.line rq.line).sent) :
    ∃ w, exec i s = .next w ∧ Replied rq lines s w ∧ w.cm = t.cm ∧ w.pw = u.pw ∧ w.ck = u.ck ∧ w.sf = u.sf
      ∧ w.ident = u.ident ∧ w.pending = u.pending := by
  obtain ⟨w, hw, ht, m, hm⟩ := runLine_ok (rq := rq) (verb := verb) hs hb
  refine ⟨w, hi.trans hw, ⟨m, by rw [hm, ha.sent, hu]⟩, ht.cm, ?_, ?_, ?_, ?_, ?_⟩
  · rw [ht.pw, ha.pw]
  · rw [ht.1, ha.ck]
  · rw [ht.sf, ha.sf]
  · rw [ht.ident, ha.ident]
  · rw [ht.pending, ha.pending]

/-! ## Scheduling and waiting -/

theorem schedule_immediate {ms : List Member} (note : Option Line) (s : State) (h : strictest ms = .i) :
    schedule ms note s = applyMembers ms s := by
  unfold schedule
  rw [h]

theorem schedule_sent (ms : List Member) (note : Option Line) (s : State) (l : Line) :
    ((schedule ms note s).line l).sent = (s.line l).sent := by
  by_cases h : strictest ms = .i
  · rw [schedule_immediate note s h]
    exact (applyMembers_applied ms s).sent l
  · rw [schedule_timed note s h]
    cases l <;> rfl

theorem noteSeries_sent (l : Line) (texts : List String) (s : State) (k : Line) :
    ((noteSeries l texts s).line k).sent = (s.line k).sent := by
  unfold noteSeries
  split
  · exact modLine_sent _ _ _ _ fun _ => rfl
  · rfl

/-- The set that waits for its confirmation (R317). -/
def waitingSet (l : Line) (ms : List Member) (s : State) : WaitSet :=
  { set := ⟨strictest ms, 0, ms, some l⟩, line := l, role := (s.line l).role, code := (Config.confirmCode s.cm.drawn).val
    wrong := 0, deadline := s.ck.mono + 1000 * pnat s 0xA007 }

theorem awaitConfirm_talked (l : Line) (ms : List Member) (s : State) :
    Talked { s with cm := { s.cm with wait := some (waitingSet l ms s), drawn := s.cm.drawn + 1 } } (awaitConfirm l ms s) :=
  noteSeries_talked _ _ _

theorem awaitConfirm_sent (l : Line) (ms : List Member) (s : State) (k : Line) :
    ((awaitConfirm l ms s).line k).sent = (s.line k).sent := by
  rw [awaitConfirm, noteSeries_sent]
  cases k <;> rfl

theorem waitFree_none {s : State} (h : s.cm.wait = none) (ms : List Member) (b : Bool) : waitFree s ms b = true := by
  simp [waitFree, h]

/-- A set of class I that assigns no fast cell and leaves `safety.reset.di` alone. -/
theorem applyMembers_immediate {ms : List Member} (s : State) (h : strictest ms = .i)
    (hm : ∀ m ∈ ms, m.param ∉ cellParams true ∧ m.param ≠ 0xA003) :
    (applyMembers ms s).cm.params = storedAfter (storingOrder ms) s.cm.params :=
  applyMembers_params s (fun m h1 => cellKind_none.mpr ⟨(hm m h1).1, slowCell_not_immediate h m h1⟩) fun m h1 => (hm m h1).2

/-! ## SET -/

section Set

variable {rq : Req} {s : State} {args : List String} {p : PInfo} {v : Int} {ms : List Member}

/-- The reply to a SET: the stored value (R42). -/
def setReply (p : PInfo) (v : Int) (ms : List Member) : List String :=
  ["ok " ++ p.name ++ " " ++ valueText p.kind ((memberValue ms p.num).getD v) ++ (if p.cls = some .z then " pending" else "")]

theorem bodySet_settled (hv : s.serving = true) (hp : paramValue rq.tag.isSome args s = .ok (p, v))
    (hc : p.cls.isSome = true) (key : sealOk s rq.line p.sc = true) (free : memberValue s.cm.attic p.num = none)
    (hw : s.cm.wait = none) (hs : settleSet s [⟨p.num, v, lineCode rq.line, (s.line rq.line).role⟩] = some ms) :
    bodySet rq args s = .ok (if needsConfirm ms then awaitConfirm rq.line ms s else schedule ms none s, setReply p v ms) := by
  simp only [bodySet, hp, ok_bind, served_serving hv, free, waitFree_none hw, hc, key, hs, Option.isNone_none,
    Bool.and_self, need_true]
  split
  all_goals rfl

end Set

/-- Settles O17: the body of SET is an application, a scheduling or a wait, by its settled members. -/
theorem setSchedulesItsParameter : Obligations.SetSchedulesItsParameter := by
  unfold Obligations.SetSchedulesItsParameter
  intro rq s args p v ms hs hv hp hc key free hw settled
  have body := bodySet_settled hv hp hc key free hw settled
  refine ⟨fun timed plain => ?_, fun confirm => ?_, fun now plain hm => ?_⟩
  · rw [if_neg (by simp [plain]), schedule_timed none s timed] at body
    exact answers_of_body rfl hs body (by rw [line_withCm])
  · rw [if_pos confirm] at body
    exact answers_of_talked rfl hs body (awaitConfirm_sent ..) (awaitConfirm_talked ..)
  · rw [if_neg (by simp [plain]), schedule_immediate none s now] at body
    have applied := applyMembers_applied ms s
    obtain ⟨t, run, replied, cm, pw, ck, sf, ident, pending⟩ :=
      replied_of_applied (i := .set rq args) (verb := "set") rfl hs body applied rfl
    have sets := cm.trans applied.cm
    refine ⟨t, run, replied, ?_, ?_, ?_, ?_, ?_, congrArg Power.ms pw, congrArg Clock.t ck, sf, ident, pending⟩
    · rw [cm]
      exact applyMembers_immediate s now hm
    all_goals rw [sets]

/-! ## The attic -/

theorem atticFree_iff {rq : Req} {s : State} :
    (s.cm.attic = [] || s.cm.owner = some rq.line) = true ↔ s.cm.attic = [] ∨ s.cm.owner = some rq.line := by
  simp

theorem needRole_operate {s : State} {l : Line} (h : 1 ≤ roleCode (s.line l).role) : needRole s l .operate = .ok () :=
  congrArg (need · .noRole) (decide_eq_true h)

section Attic

variable {rq : Req} {s : State} (hv : s.serving = true) (own : (s.cm.attic = [] || s.cm.owner = some rq.line) = true)

include hv own

theorem bodyStage_ok {args : List String} {p : PInfo} {v : Int} (hp : paramValue rq.tag.isSome args s = .ok (p, v))
    (hc : p.cls.isSome = true) (key : sealOk s rq.line p.sc = true)
    (room : ((memberValue s.cm.attic p.num).isSome || s.cm.attic.length < 64) = true) :
    bodyStage rq args s = .ok ({ s with cm := { s.cm with
      attic := stageMember ⟨p.num, v, lineCode rq.line, (s.line rq.line).role⟩ s.cm.attic, owner := some rq.line } },
      ["ok stage " ++ p.name ++ " " ++ valueText p.kind v]) := by
  simp only [bodyStage, hp, ok_bind, served_serving hv, own, room, hc, key, Bool.and_self, need_true]

/-- The reply to a COMMIT: its members, and their count and class (R47). -/
def commitReply (ms : List Member) : List String :=
  ms.map (fun m => "part " ++ memberText m) ++ ["ok commit " ++ natText ms.length ++ " " ++ className (strictest ms)
    ++ (if strictest ms = .z then " pending" else "")]

/-- The attic's members as the line commits them. -/
def stagedBy (rq : Req) (s : State) : List Member :=
  s.cm.attic.map fun m => { m with line := lineCode rq.line, role := (s.line rq.line).role }

theorem bodyCommit_settled {ms : List Member} (hw : s.cm.wait = none)
    (key : (s.cm.attic.all fun m => sealOk s rq.line (sealOf m.param)) = true)
    (hs : settleSet s (stagedBy rq s) = some ms) :
    bodyCommit rq [] s = .ok (if needsConfirm ms
      then awaitConfirm rq.line ms { s with cm := { s.cm with attic := [], owner := none } }
      else schedule ms (some rq.line) { s with cm := { s.cm with attic := [], owner := none } }, commitReply ms) := by
  have permitted : ((stagedBy rq s).all fun m => sealOk s rq.line (sealOf m.param)) = true := by
    rw [stagedBy, List.all_map]
    exact key
  simp only [bodyCommit, decide_true, need_true, ok_bind, served_serving hv, own, waitFree_none hw]
  rw [← stagedBy, permitted, hs]
  simp only [need_true, ok_bind]
  split
  all_goals rfl

theorem bodyDiscard_ok (hr : 1 ≤ roleCode (s.line rq.line).role) :
    bodyDiscard rq [] s = .ok (emptyAttic (lineCode rq.line) (roleCode (s.line rq.line).role) s,
      ["ok discard " ++ natText s.cm.attic.length]) := by
  simp only [bodyDiscard, decide_true, need_true, ok_bind, served_serving hv, own, needRole_operate hr]

omit own in
theorem bodyDiscardPending_ok (hr : 1 ≤ roleCode (s.line rq.line).role) :
    bodyDiscardPending rq [] s = .ok ({ s with cm := { s.cm with pendingZ := [] } },
      ["ok discard " ++ natText s.cm.pendingZ.length]) := by
  simp only [bodyDiscardPending, decide_true, need_true, ok_bind, served_serving hv, needRole_operate hr]

end Attic

/-- Settles O16: COMMIT splits as SET does, on the attic's settled members; the other three bodies have one outcome. -/
theorem stagingKeepsOneOwnedAttic : Obligations.StagingKeepsOneOwnedAttic := by
  unfold Obligations.StagingKeepsOneOwnedAttic
  refine fun rq s hs hv free => ⟨fun args p v hp hc key room => ?_, fun ms hw key settled timed plain => ?_,
    fun ms hw key settled => ⟨fun confirm => ?_, fun now plain hm => ?_⟩, fun hr => ⟨?_, ?_⟩⟩
  · exact answers_of_body rfl hs (bodyStage_ok hv (atticFree_iff.mpr free) hp hc key (by simpa using room)) (by rw [line_withCm])
  · have body := bodyCommit_settled hv (atticFree_iff.mpr free) hw key settled
    rw [if_neg (by simp [plain]), schedule_timed _ _ timed] at body
    exact answers_of_body rfl hs body (by rw [line_withCm])
  · have body := bodyCommit_settled hv (atticFree_iff.mpr free) hw key settled
    rw [if_pos confirm] at body
    refine answers_of_talked rfl hs body ((awaitConfirm_sent ..).trans ?_) ?_
    · rw [line_withCm]
    · have talked := awaitConfirm_talked rq.line ms { s with cm := { s.cm with attic := [], owner := none } }
      rw [waitingSet, line_withCm] at talked
      exact talked
  · have body := bodyCommit_settled hv (atticFree_iff.mpr free) hw key settled
    rw [if_neg (by simp [plain]), schedule_immediate _ _ now] at body
    have applied := applyMembers_applied ms { s with cm := { s.cm with attic := [], owner := none } }
    obtain ⟨t, run, replied, cm, pw, ck, sf, ident, pending⟩ :=
      replied_of_applied (i := .commit rq []) (verb := "commit") rfl hs body applied (by rw [line_withCm])
    have sets := cm.trans applied.cm
    refine ⟨t, run, replied, ?_, ?_, ?_, ?_, ?_, congrArg Power.ms pw, congrArg Clock.t ck, sf, ident, pending⟩
    case refine_3 =>
      rw [cm]
      exact applyMembers_immediate _ now hm
    all_goals rw [sets]
  · exact booked_of_body rfl hs (bodyDiscard_ok hv (atticFree_iff.mpr free) hr) (by rw [emptyAttic_line]) (emptyAttic_booked _ _ _)
  · exact answers_of_body rfl hs (bodyDiscardPending_ok hv hr) (by rw [line_withCm])

/-! ## The safety confirmation -/

section Confirm

variable {rq : Req} {s : State} {w : WaitSet} {ct : String} {n : Nat} (hv : s.serving = true) (hw : s.cm.wait = some w)
  (line : w.line = rq.line) (early : s.ck.mono < w.deadline) (four : ct.toList.length = 4) (code : parseNat ct = some n)

include hv hw line early four code

theorem bodySafetyConfirm_right (right : n = w.code) (key : sealOk s rq.line .s = true) :
    bodySafetyConfirm rq [ct] s =
      .ok (confirmSet w s, ["ok do safety.confirm " ++ natText w.set.members.length]) := by
  simp only [bodySafetyConfirm, four, if_true, code, want_some, ok_bind, served_serving hv, hw, line, decide_true, need_true,
    Nat.not_le.mpr early, if_false, right, ne_eq, not_true_eq_false, key]

theorem bodySafetyConfirm_wrong (wrong : n ≠ w.code) :
    bodySafetyConfirm rq [ct] s = .ok (if 3 ≤ w.wrong + 1 then dropWait 3 s
      else { s with cm := { s.cm with wait := some { w with wrong := w.wrong + 1 } } }, ["no word"]) := by
  simp only [bodySafetyConfirm, four, if_true, code, want_some, ok_bind, served_serving hv, hw, line, decide_true, need_true,
    Nat.not_le.mpr early, if_false, wrong, ne_eq, not_false_eq_true]

end Confirm

/-- A dropped set is noted and booked (R318). -/
theorem dropWait_booked {s : State} {w : WaitSet} (hw : s.cm.wait = some w) (outcome : Nat) :
    Booked { s with cm := { s.cm with wait := none } } (dropWait outcome s) := by
  simp only [dropWait, hw]
  exact ((noteTo_talked _ _ _).booked.trans (moduleNote_booked _ _ _)).trans (audit_booked _ _ _ _ _ _ _ _)

theorem dropWait_sent {s : State} {w : WaitSet} (hw : s.cm.wait = some w) (outcome : Nat) (l : Line) :
    ((dropWait outcome s).line l).sent = (s.line l).sent := by
  simp only [dropWait, hw]
  rw [audit_line, safetySetNote, moduleNote_line, noteTo_sent, line_withCm]

/-- A confirmed set is scheduled, and the rest is booked and noted (R317, R318). -/
theorem confirmSet_booked (w : WaitSet) (s : State) :
    Booked (schedule w.set.members (some w.line) { s with cm := { s.cm with wait := none } }) (confirmSet w s) := by
  have noted : ∀ (c : Prop) [Decidable c] (n : Nat) (t : State),
      Booked t (if c then noteCommit (some w.line) n t else t) := fun c _ n t =>
    ite_booked (noteCommit_talked _ _ t).booked (Booked.refl t)
  exact ((noted _ _ _).trans (moduleNote_booked _ _ _)).trans (audit_booked _ _ _ _ _ _ _ _)

theorem confirmSet_sent (w : WaitSet) (s : State) (l : Line) : ((confirmSet w s).line l).sent = (s.line l).sent := by
  have noted : ∀ (c : Prop) [Decidable c] (n : Nat) (t : State),
      ((if c then noteCommit (some w.line) n t else t).line l).sent = (t.line l).sent := by
    intro c _ n t
    split
    · exact noteTo_sent _ _ _ _
    · rfl
  rw [confirmSet]
  dsimp only
  rw [audit_line, moduleNote_line, noted, schedule_sent, line_withCm]

/-- A confirmed set waits no longer. -/
theorem confirmSet_wait (w : WaitSet) (s : State) : (confirmSet w s).cm.wait = none := by
  rw [(confirmSet_booked w s).cm]
  by_cases h : strictest w.set.members = .i
  · rw [schedule_immediate _ _ h, (applyMembers_applied _ _).cm]
  · rw [schedule_timed _ _ h]

theorem confirmTimeout_due {s : State} {w : WaitSet} (hw : s.cm.wait = some w) (due : w.deadline ≤ s.ck.mono) :
    confirmTimeout s = dropWait 2 s := by
  simp only [confirmTimeout, hw, due, if_true]

theorem confirmTimeout_early {s : State} {w : WaitSet} (hw : s.cm.wait = some w) (early : s.ck.mono < w.deadline) :
    confirmTimeout s = s := by
  simp only [confirmTimeout, hw, Nat.not_le.mpr early, if_false]

/-- Settles O46: the body splits on the code; a right one schedules the set, a third wrong one and the deadline drop it. -/
theorem safetySetsAreConfirmed : Obligations.SafetySetsAreConfirmed := by
  unfold Obligations.SafetySetsAreConfirmed
  refine fun s w hw => ⟨fun rq ct n hs hv line early four code => ?_, fun due => ?_, fun early => ?_⟩
  · have right := fun h key => bodySafetyConfirm_right hv hw line early four code h key
    have booked := confirmSet_booked w s
    refine ⟨fun h key _ timed notZ => ?_, fun h key classZ => ?_, fun h key now hm => ?_, fun h key => ?_,
      fun wrong few => ?_, fun wrong many => ?_⟩
    · rw [schedule_timed _ _ timed, if_neg notZ, if_neg notZ] at booked
      exact booked_of_body rfl hs (right h key) (confirmSet_sent ..) booked
    · rw [schedule_timed _ _ (by rw [classZ]; decide), if_pos classZ, if_pos classZ] at booked
      exact booked_of_body rfl hs (right h key) (confirmSet_sent ..) booked
    · rw [schedule_immediate _ _ now] at booked
      have applied := applyMembers_applied w.set.members { s with cm := { s.cm with wait := none } }
      obtain ⟨t, run, talked, more, hm'⟩ := runLine_ok (rq := rq) (verb := "do") hs (right h key)
      have cm := talked.cm.trans booked.cm
      refine ⟨t, run, ⟨more, by rw [hm', confirmSet_sent]⟩, ?_, ?_, ?_, ?_, ?_⟩
      · rw [cm]
        exact applyMembers_params _ (fun m h1 => (hm m h1).1) fun m h1 => (hm m h1).2
      · rw [cm, applied.cm]
      · rw [cm, applied.cm]
      · rw [talked.pw, booked.pw, applied.pw]
      · rw [talked.sf, booked.1, applied.sf]
    · obtain ⟨t, run, talked, more, hm⟩ := runLine_ok (rq := rq) (verb := "do") hs (right h key)
      exact ⟨t, run, ⟨more, by rw [hm, confirmSet_sent]⟩, by rw [talked.cm, confirmSet_wait]⟩
    · have body := bodySafetyConfirm_wrong hv hw line early four code wrong
      rw [if_neg (by omega)] at body
      exact answers_of_body rfl hs body (by rw [line_withCm])
    · have body := bodySafetyConfirm_wrong hv hw line early four code wrong
      rw [if_pos (by omega)] at body
      exact booked_of_body rfl hs body (dropWait_sent hw _ _) (dropWait_booked hw _)
  · have booked := (dropWait_booked hw 2).trans (flushNotes_talked _).booked
    refine ⟨_, congrArg done (confirmTimeout_due hw due), ?_, booked⟩
    rw [booked.cm]
  · have talked := flushNotes_talked s
    exact ⟨_, congrArg done (confirmTimeout_early hw early), by rw [talked.cm, hw], talked⟩

end Sys2Proof.Machine
end

section
/-! PROOFS. The blocks that wait for pricing (R143): only the latch adds one, and only the quantity pass takes them. -/

namespace Sys2Proof.Machine

/-- The same closed blocks wait for pricing. -/
def SameBlocks (s t : State) : Prop := t.lg.closed = s.lg.closed

theorem SameBlocks.refl (s : State) : SameBlocks s s := rfl

theorem SameBlocks.trans {s t u : State} (a : SameBlocks s t) (b : SameBlocks t u) : SameBlocks s u := Eq.trans b a

theorem SameBlocks.foldl {α : Type} (g : State → α → State) (hg : ∀ s a, SameBlocks s (g s a)) :
    ∀ (xs : List α) (s : State), SameBlocks s (xs.foldl g s)
  | [], s => SameBlocks.refl s
  | x :: xs, s => (hg s x).trans (SameBlocks.foldl g hg xs (g s x))

theorem SameBlocks.ite {s a b : State} {c : Prop} [Decidable c] (ha : SameBlocks s a) (hb : SameBlocks s b) :
    SameBlocks s (if c then a else b) := by
  split
  · exact ha
  · exact hb

/-- Booking leaves the blocks alone. -/
theorem Booked.blocks {s t : State} (h : Booked s t) : SameBlocks s t := by
  unfold SameBlocks
  rw [h.1]

theorem blocks_ledger (s : State) (v : Vector RunSt 4) (w : Ledger) (h : w.closed = s.lg.closed := by rfl) :
    SameBlocks s { s with runs := v, lg := w } := h

theorem blocks_runs (s : State) (v : Vector RunSt 4) : SameBlocks s { s with runs := v } := rfl
theorem blocks_lg (s : State) (w : Ledger) (h : w.closed = s.lg.closed := by rfl) : SameBlocks s { s with lg := w } := h
theorem blocks_reopened (s : State) (v : Vector RunSt 4) (start : Nat) :
    SameBlocks s { s with runs := v, lg := { s.lg with intStart := start } } := rfl
theorem blocks_se (s : State) (v : Settle) : SameBlocks s { s with se := v } := rfl
theorem blocks_modPair (s : State) (f : Pair → Pair) : SameBlocks s (s.modPair f) := rfl
theorem blocks_modRun (s : State) (r : Run) (f : RunSt → RunSt) : SameBlocks s (s.modRun r f) := rfl
theorem blocks_modSettle (s : State) (r : Nat) (f : SettleRun → SettleRun) : SameBlocks s (s.modSettle r f) := rfl
theorem blocks_chan (s : State) (g : Channel) (f : Chan → Chan) : SameBlocks s (s.modChan g f) := rfl

theorem refreshOutputs_blocks (s : State) : SameBlocks s (refreshOutputs s) :=
  SameBlocks.foldl (fun t x => refreshCo x t) (fun _ _ => rfl) _ s

/-! ## The conversation -/

theorem wakeLine_blocks (s : State) : SameBlocks s (wakeLine s) := by
  unfold wakeLine
  split
  · rfl
  · rfl

theorem putFrame_blocks (text : String) (s : State) : SameBlocks s (putFrame text s) :=
  (blocks_modPair s _).trans (wakeLine_blocks _)

theorem sendPlain_blocks (verb fields : String) (s : State) : SameBlocks s (sendPlain verb fields s) :=
  (putFrame_blocks _ s).trans (blocks_modPair _ _)

theorem losePair_blocks (c : Nat) (s : State) : SameBlocks s (losePair c s) :=
  ((blocks_modPair s _).trans (noteAll_talked _ _).booked.blocks).trans (moduleNote_booked _ _ _).blocks

theorem resendOne_blocks (s : State) (f : OutFrame) : SameBlocks s (resendOne s f) :=
  (putFrame_blocks _ s).trans (blocks_modPair _ _)

theorem resendFrom_blocks (seq : Nat) (s : State) : SameBlocks s (resendFrom seq s) := by
  unfold resendFrom
  dsimp only
  split
  · exact losePair_blocks 4 s
  · exact (SameBlocks.foldl _ resendOne_blocks _ s).trans (blocks_modPair _ _)

theorem sendOffer_blocks (o : Offer) (s : State) : SameBlocks s (sendOffer o s) := by
  unfold sendOffer
  dsimp only
  split
  · exact sendPlain_blocks _ _ s
  · split
    · exact resendFrom_blocks _ s
    · exact (putFrame_blocks _ s).trans (blocks_modPair _ _)

theorem sendWindow_blocks : ∀ (n : Nat) (s : State), SameBlocks s (sendWindow n s)
  | 0, s => SameBlocks.refl s
  | n + 1, s => by
    unfold sendWindow
    split
    · exact SameBlocks.refl s
    · split
      · exact ((blocks_modPair s _).trans (sendOffer_blocks _ _)).trans (sendWindow_blocks n _)
      · exact SameBlocks.refl s

theorem flushPair_blocks (s : State) : SameBlocks s (flushPair s) := by
  unfold flushPair
  dsimp only
  split
  · exact SameBlocks.refl s
  · split
    · exact sendWindow_blocks 16 s
    · split
      · split
        · exact sendWindow_blocks 8 s
        · split
          · exact ((sendWindow_blocks 8 s).trans (sendPlain_blocks _ _ _)).trans (blocks_modPair _ _)
          · exact sendWindow_blocks 8 s
      · exact SameBlocks.refl s

theorem offer_blocks (kind : Nat) (body : String) (s : State) : SameBlocks s (offer kind body s) := by
  unfold offer
  split
  · exact (blocks_modPair s _).trans (flushPair_blocks _)
  · exact SameBlocks.refl s

theorem offerRecord_blocks (g : Channel) (off kind : Nat) (body : String) (s : State) :
    SameBlocks s (offerRecord g off kind body s) :=
  (SameBlocks.ite (blocks_chan s g _) (SameBlocks.refl s)).trans (offer_blocks _ _ _)

/-! ## Settlement -/

theorem decideInt_blocks (i run start code : Nat) (own : Side) (other : Option Side) (s : State) :
    SameBlocks s (decideInt i run start code own other s) := by
  unfold decideInt
  dsimp only
  have marked := (blocks_se s _ : SameBlocks s (markDecided run start s)).trans
    (putBytes_booked _ _ _ : Booked _ (putOutcome i (decisionOf s run code own other).byte0 _)).blocks
  split
  · exact ((marked.trans (blocks_modSettle _ _ _)).trans (blocks_se _ _)).trans (noteAll_talked _ _).booked.blocks
  · exact marked.trans (blocks_modSettle _ _ _)

theorem decidePair_blocks (i : Nat) (own : IntRec) (p : Entry) (s : State) : SameBlocks s (decidePair i own p s) := by
  unfold decidePair
  split
  · exact decideInt_blocks _ _ _ _ _ _ s
  · split
    · exact decideInt_blocks _ _ _ _ _ _ s
    · exact (blocks_se s _).trans (decideInt_blocks _ _ _ _ _ _ _)

theorem ownPlaced_blocks (i : Nat) (s : State) : SameBlocks s (ownPlaced i s) := by
  unfold ownPlaced
  dsimp only
  split
  · exact decideInt_blocks _ _ _ _ _ _ s
  · split
    · split
      · exact SameBlocks.refl s
      · exact decidePair_blocks _ _ _ s
    · exact SameBlocks.refl s

/-! ## Intervals, days and the backlog -/

theorem endURun_blocks (r : Run) (s : State) : SameBlocks s (endURun r s) := by
  unfold endURun
  split
  · rfl
  · rfl

theorem priceRun_blocks (b : ClosedBlock) (r : Run) (s : State) : SameBlocks s (priceRun b r s) := by
  unfold priceRun
  dsimp only
  exact (SameBlocks.ite (SameBlocks.refl s) (endURun_blocks r s)).trans (blocks_modRun _ _ _)

theorem priceBlock_blocks (b : ClosedBlock) (s : State) : SameBlocks s (priceBlock b s) :=
  SameBlocks.foldl _ (fun t r => priceRun_blocks b r t) _ s

theorem writeInterval_blocks (r : IntRec) (s : State) : SameBlocks s (writeInterval r s) := by
  unfold writeInterval
  dsimp only
  exact ((((writeChained_booked _ _ _ _).trans (ledgerPacket_booked _ _ _)).blocks.trans
    (blocks_lg _ _)).trans (offerRecord_blocks _ _ _ _ _)).trans (ownPlaced_blocks _ _)

theorem noteUnsigned_blocks (s : State) : SameBlocks s (noteUnsigned s) := by
  unfold noteUnsigned
  dsimp only
  split
  · exact (noteAll_talked _ _).booked.blocks
  · exact SameBlocks.refl s

theorem closeDay_blocks (s : State) : SameBlocks s (closeDay s) := by
  unfold closeDay
  split
  · exact SameBlocks.refl s
  · dsimp only
    exact (((noteUnsigned_blocks s).trans ((writeChained_booked _ _ _ _).trans (ledgerPacket_booked _ _ _)).blocks).trans
      (blocks_lg _ _)).trans ((offerRecord_blocks _ _ _ _ _).trans (offer_blocks _ _ _))

theorem closeDays_blocks : ∀ (n t : Nat) (s : State), SameBlocks s (closeDays n t s)
  | 0, _, s => SameBlocks.refl s
  | n + 1, t, s => by
    unfold closeDays
    split
    · split
      · exact (closeDay_blocks s).trans (closeDays_blocks n t _)
      · exact SameBlocks.refl s
    · exact SameBlocks.refl s

theorem closeOpen_blocks (start : Nat) (s : State) : SameBlocks s (closeOpen start s) := by
  unfold closeOpen
  dsimp only
  exact ((SameBlocks.ite (closeDays_blocks _ _ s) (SameBlocks.refl s)).trans
    (SameBlocks.foldl _ (fun t r => writeInterval_blocks (openRecord _ r) t) _ _)).trans
    (blocks_reopened _ _ _)

theorem spanBlocks_blocks : ∀ (n : Nat) (sp : KeepSpan) (t : Nat) (s : State), SameBlocks s (spanBlocks n sp t s)
  | 0, _, _, s => SameBlocks.refl s
  | n + 1, sp, t, s => by
    unfold spanBlocks
    dsimp only
    split
    · exact SameBlocks.refl s
    · refine SameBlocks.trans ?_ (spanBlocks_blocks n sp _ _)
      refine SameBlocks.ite ?_ (blocks_ledger s _ _)
      exact ((blocks_runs s _).trans (closeOpen_blocks _ _)).trans
        (SameBlocks.ite (closeDays_blocks _ _ _) (SameBlocks.refl _))

theorem writeSums_blocks (x : Vector Sums 4) (sp : KeepSpan) (s : State) : SameBlocks s (writeSums x sp s) := by
  unfold writeSums State.addSums
  dsimp only
  exact SameBlocks.ite ((blocks_runs s _).trans (closeOpen_blocks _ _)) (blocks_runs s _)

theorem writeSpan_blocks (sp : KeepSpan) (s : State) : SameBlocks s (writeSpan sp s) := by
  unfold writeSpan
  split
  · exact writeSums_blocks _ _ _
  · dsimp only
    exact (SameBlocks.ite ((SameBlocks.ite (closeOpen_blocks _ s) (blocks_lg s _)).trans
      (closeDays_blocks _ _ _)) (SameBlocks.refl s)).trans (spanBlocks_blocks _ _ _ _)

theorem oldBlocks_blocks : ∀ (n : Nat) (sp : KeepSpan) (stop t : Nat) (s : State), SameBlocks s (oldBlocks n sp stop t s)
  | 0, _, _, _, s => SameBlocks.refl s
  | n + 1, sp, stop, t, s => by
    unfold oldBlocks
    dsimp only
    split
    · exact SameBlocks.refl s
    · refine SameBlocks.trans ?_ (oldBlocks_blocks n sp _ _ _)
      exact SameBlocks.ite ((blocks_runs s _).trans (closeDays_blocks _ _ _)) (blocks_runs s _)

theorem gatherOld_blocks (cut : Nat) (s : State) (sp : KeepSpan) : SameBlocks s (gatherOld cut s sp) := by
  unfold gatherOld
  split
  · exact blocks_runs s _
  · exact oldBlocks_blocks _ _ _ _ _

theorem writeOld_blocks (olds : List KeepSpan) (s : State) : SameBlocks s (writeOld olds s) := by
  unfold writeOld
  dsimp only
  exact ((SameBlocks.foldl _ (fun t sp => gatherOld_blocks _ t sp) _ s).trans
    (SameBlocks.foldl _ (fun t _ => (moduleNote_booked t _ _).blocks) _ _)).trans (blocks_ledger _ _ _)

theorem joinBack_blocks (s : State) : SameBlocks s (joinBack s) := by
  unfold joinBack
  split
  · exact blocks_ledger s _ _
  · exact SameBlocks.refl s

theorem takeSpans_blocks (s : State) : SameBlocks s (takeSpans s) := by
  unfold takeSpans
  dsimp only
  split
  · exact (blocks_lg s _).trans (writeOld_blocks _ _)
  · split
    · exact SameBlocks.refl s
    · exact (blocks_lg s _).trans (writeSpan_blocks _ _)

theorem backlogStep_blocks (s : State) : SameBlocks s (backlogStep s) := by
  have swapped (t : State) : SameBlocks t (swapBack t) := blocks_ledger t _ _
  unfold backlogStep
  exact SameBlocks.ite (SameBlocks.refl s)
    (((swapped s).trans (takeSpans_blocks _)).trans ((swapped _).trans (joinBack_blocks _)))

theorem closeInterval_blocks (start : Nat) (s : State) : SameBlocks s (closeInterval start s) :=
  (SameBlocks.foldl _ (fun t _ => backlogStep_blocks t) _ s).trans (closeOpen_blocks _ _)

theorem pushBacklog_blocks (d : Option Nat) (spans : List KeepSpan) (s : State) : SameBlocks s (pushBacklog d spans s) := by
  unfold pushBacklog
  dsimp only
  exact SameBlocks.ite (SameBlocks.refl s) (blocks_ledger s _ _)

/-! ## The quantity pass -/

theorem pricedIn_blocks (stops : Bool) (s : State) (b : ClosedBlock) : SameBlocks s (pricedIn stops s b) := by
  unfold pricedIn
  dsimp only
  exact (SameBlocks.ite (SameBlocks.ite (pushBacklog_blocks _ _ s) (closeInterval_blocks _ s)) (SameBlocks.refl s)).trans
    (priceBlock_blocks _ _)

/-- Every closed block is priced (R143). -/
theorem priceClosed_closed (stops : Bool) (s : State) : (priceClosed stops s).lg.closed = [] := by
  unfold priceClosed
  exact (SameBlocks.foldl _ (fun t b => pricedIn_blocks stops t b) _ { s with lg := { s.lg with closed := [] } }).trans
    (refreshOutputs_blocks _)

theorem flushURuns_blocks (s : State) : SameBlocks s (flushURuns s) :=
  (blocks_lg s { s.lg with uNotes := [] }).trans
    (SameBlocks.foldl _ (fun t n => (moduleNote_booked t 0x01 n).blocks) _ _)

/-- A quantity pass leaves no closed block unpriced. -/
theorem quantityPass_closed (s : State) : (quantityPass s).lg.closed = [] :=
  Eq.trans (flushURuns_blocks _) (priceClosed_closed false s)

end Sys2Proof.Machine
end

section
/-! PROOFS. Sets at their boundary (R47, R51, R145). -/

namespace Sys2Proof.Machine

/-- What the sets of one boundary leave alone: beyond the stored values and the restarts that wait, the commits stand. -/
structure TookSets (s t : State) : Prop where
  cm : t.cm = { s.cm with params := t.cm.params, restarting := t.cm.restarting }
  pw : t.pw = s.pw
  ck : t.ck = s.ck
  sf : t.sf = s.sf
  ident : t.ident = s.ident
  pending : t.pending = s.pending
  closed : t.lg.closed = s.lg.closed

theorem TookSets.trans {s t u : State} (a : TookSets s t) (b : TookSets t u) : TookSets s u where
  cm := by rw [b.cm, a.cm]
  pw := b.pw.trans a.pw
  ck := b.ck.trans a.ck
  sf := b.sf.trans a.sf
  ident := b.ident.trans a.ident
  pending := b.pending.trans a.pending
  closed := b.closed.trans a.closed

theorem TookSets.foldl {α : Type} (g : State → α → State) (hg : ∀ s a, TookSets s (g s a)) :
    ∀ (xs : List α) (s : State), TookSets s (xs.foldl g s)
  | [], _ => ⟨rfl, rfl, rfl, rfl, rfl, rfl, rfl⟩
  | x :: xs, s => (hg s x).trans (TookSets.foldl g hg xs (g s x))

theorem Applied.tookSets {s t : State} (h : Applied s t) : TookSets s t :=
  ⟨by rw [h.body], h.pw, h.ck, h.sf, h.ident, h.pending, h.closed⟩

theorem Talked.tookSets {s t : State} (h : Talked s t) : TookSets s t :=
  ⟨by rw [h.cm], h.pw, h.ck, h.sf, h.ident, h.pending, h.booked.blocks⟩

/-- A due set is applied; what it has to say, now or after the restarts it begins, changes no stored value. -/
theorem applyDue_tookSets (d : DueSet) (s : State) :
    TookSets (applyMembers d.members s) (applyDue d s)
    ∧ (applyDue d s).cm.params = (applyMembers d.members s).cm.params := by
  have noted := noteCommit_talked d.note d.members.length (applyMembers d.members s)
  have told := And.intro noted.tookSets (congrArg Commits.params noted.cm)
  have silent : TookSets (applyMembers d.members s) (applyMembers d.members s) := (Talked.refl _).tookSets
  unfold applyDue
  dsimp only
  split
  · exact told
  · split
    · split
      · exact told
      · exact ⟨⟨rfl, rfl, rfl, rfl, rfl, rfl, rfl⟩, rfl⟩
    · exact ⟨silent, rfl⟩

theorem applySets_tookSets (ready : List DueSet) (s : State) :
    TookSets s (ready.foldl (fun t d => applyDue d t) s) := by
  refine TookSets.foldl (fun t d => applyDue d t) (fun t d => ?_) ready s
  exact (applyMembers_applied d.members t).tookSets.trans (applyDue_tookSets d t).1

theorem priceBefore_works (ready : List DueSet) (s : State) : Works s (priceBefore ready s) :=
  Works.ite ((blockBoundary_works s).trans (quantityPass_works _)) (Works.refl s)

/-- A boundary of class B or S that meets a free fast domain leaves no block unpriced (R145). -/
theorem priceBefore_closed {ready : List DueSet} {s : State} (h : ∃ d ∈ ready, d.cls = .b ∨ d.cls = .s)
    (free : fastFree s = true) : (priceBefore ready s).lg.closed = [] := by
  have timed : (ready.any fun d => d.cls = .b || d.cls = .s) = true := by simpa using h
  rw [priceBefore, timed, free]
  exact quantityPass_closed _

/-- The cadence apart, nothing more happens at the boundary (R65). -/
theorem cadenceAfter_eq (ready : List DueSet) (s : State) :
    cadenceAfter ready s = { s with pw := { s.pw with cad := (cadenceAfter ready s).pw.cad } } := by
  unfold cadenceAfter
  split
  · rfl
  · rfl

/-- The sets whose boundary has come. -/
def readySets (s : State) : List DueSet := s.cm.due.filter fun q => q.at_ ≤ s.ck.mono

/-- The state in which they are applied: priced, with the other sets left. -/
def beforeSets (s : State) : State :=
  { priceBefore (readySets s) s with cm := { (priceBefore (readySets s) s).cm with
    due := s.cm.due.filter fun q => s.ck.mono < q.at_ } }

theorem beforeSets_kept (s : State) : (beforeSets s).pw.ms = s.pw.ms ∧ (beforeSets s).ck.t = s.ck.t
    ∧ (beforeSets s).ck.mono = s.ck.mono ∧ (beforeSets s).sf = s.sf ∧ (beforeSets s).ident = s.ident
    ∧ (beforeSets s).pending = s.pending
    ∧ (beforeSets s).cm = { s.cm with due := s.cm.due.filter fun q => s.ck.mono < q.at_ } := by
  rw [beforeSets, (priceBefore_works (readySets s) s).1.1]
  exact ⟨rfl, rfl, rfl, rfl, rfl, rfl, rfl⟩

theorem commitApply_eq (s : State) : commitApply s =
    cadenceAfter (readySets s) ((readySets s).foldl (fun t d => applyDue d t) (beforeSets s)) := rfl

/-- With no set due nothing is left to do. -/
theorem commitApply_none {s : State} (h : readySets s = []) : commitApply s = s := by
  have all : (s.cm.due.filter fun q => s.ck.mono < q.at_) = s.cm.due := by
    refine List.filter_eq_self.mpr fun q hq => decide_eq_true ?_
    have early := List.filter_eq_nil_iff.mp h q hq
    simpa using early
  rw [commitApply_eq, beforeSets, h, all]
  rfl

/-- The stored values after one set that assigns no cell and leaves `safety.reset.di` alone (R51). -/
theorem commitApply_params {s : State} {d : DueSet} (h : readySets s = [d])
    (hc : ∀ m ∈ d.members, cellKind m.param = none) (hd : ∀ m ∈ d.members, m.param ≠ 0xA003) :
    (commitApply s).cm.params = storedAfter (storingOrder d.members) s.cm.params := by
  have priced : (beforeSets s).cm.params = s.cm.params := by
    obtain ⟨-, -, -, -, -, -, commits⟩ := beforeSets_kept s
    rw [commits]
  rw [commitApply_eq, cadenceAfter_eq, h]
  exact ((applyDue_tookSets d _).2.trans (applyMembers_params _ hc hd)).trans (congrArg _ priced)

/-- Settles O18: pricing is `Works`, the sets change stored values and what they act on, and the notes only talk. -/
theorem dueSetTakesEffectAtItsBoundary : Obligations.DueSetTakesEffectAtItsBoundary := by
  unfold Obligations.DueSetTakesEffectAtItsBoundary
  intro s
  have flushed := flushNotes_talked (commitApply s)
  have took := applySets_tookSets (readySets s) (beforeSets s)
  obtain ⟨ms, t, mono, sf, ident, pending, commits⟩ := beforeSets_kept s
  have cad := cadenceAfter_eq (readySets s) ((readySets s).foldl (fun t d => applyDue d t) (beforeSets s))
  rw [← commitApply_eq] at cad
  have cm : (flushNotes (commitApply s)).cm = { s.cm with
      due := s.cm.due.filter fun q => s.ck.mono < q.at_
      params := (commitApply s).cm.params, restarting := (commitApply s).cm.restarting } := by
    rw [flushed.cm, cad]
    exact took.cm.trans (by rw [commits])
  refine ⟨⟨flushNotes (commitApply s), rfl, by rw [cm], by rw [cm], by rw [cm], by rw [cm], by rw [cm],
    ?_, ?_, ?_, ?_, ?_, ?_, ?_, ?_⟩, fun none => ?_⟩
  · rw [flushed.pw, cad]
    exact (congrArg Power.ms took.pw).trans ms
  · rw [flushed.ck, cad]
    exact (congrArg Clock.t took.ck).trans t
  · rw [flushed.ck, cad]
    exact (congrArg Clock.mono took.ck).trans mono
  · rw [flushed.sf, cad]
    exact took.sf.trans sf
  · rw [flushed.ident, cad]
    exact took.ident.trans ident
  · rw [flushed.pending, cad]
    exact took.pending.trans pending
  · rintro ⟨d, hd, due, timed⟩ free
    refine Eq.trans flushed.booked.blocks ?_
    rw [cad]
    exact took.closed.trans (priceBefore_closed ⟨d, List.mem_filter.mpr ⟨hd, decide_eq_true due⟩, timed⟩ free)
  · intro d hd hm
    rw [flushed.cm]
    exact commitApply_params hd (fun m h => cellKind_none.mpr ⟨(hm m h).1, (hm m h).2.1⟩) fun m h => (hm m h).2.2
  · exact gives_of_done (congrArg done (commitApply_none none))

end Sys2Proof.Machine
end

section
/-! PROOFS. Knocks (R58, R69, R168, R181): the counts of comparator KC, the dead time, and pairs of knocks. -/

namespace Sys2Proof.Machine

/-! ## The event pass -/

/-- While the module measures, a fast domain that sleeps or drains wakes for an event pass (R181, R198). -/
theorem wakeEvent_measuring {s : State} (h : measuring s = true) :
    wakeEvent s = if s.pw.pass = .asleep ∨ s.pw.pass = .drain then
      { s with pw := { s.pw with pass := .event }, ev := { s.ev with passRun := (s.ck.mono, 0) } } else s := by
  simp only [wakeEvent, h, true_and]

theorem wakeEvent_eq (s : State) : wakeEvent s = { s with
    pw := { s.pw with pass := (wakeEvent s).pw.pass }, ev := { s.ev with passRun := (wakeEvent s).ev.passRun } } := by
  unfold wakeEvent
  split
  · rfl
  · rfl

@[simp] theorem wakeEvent_ck (s : State) : (wakeEvent s).ck = s.ck := by rw [wakeEvent_eq]
@[simp] theorem wakeEvent_knock (s : State) : (wakeEvent s).ev.knock = s.ev.knock := by rw [wakeEvent_eq]
@[simp] theorem wakeEvent_raised (s : State) : (wakeEvent s).ev.raised = s.ev.raised := by rw [wakeEvent_eq]

/-! ## Comparator KC -/

/-- A knock is counted in comparator KC (R58). -/
def State.kcCounted (s : State) : State := { s with pw := { s.pw with kcTotal := s.pw.kcTotal + 1, kcFlag := true } }

section Counted

variable {s : State} {peak : Nat} (loud : 10 * pget s 0x6000 < (peak : Int))

include loud

theorem knockAction_keep (hk : s.pw.ms = .keep) : knockAction peak s = { s.kcCounted with pw := { s.kcCounted.pw with
    kcCount := s.pw.kcCount + 1, kcFirst := some (s.pw.kcFirst.getD (nowSec s)) } } := by
  have heard : ¬(s.pw.ms = .cold ∨ (peak : Int) ≤ 10 * pget s 0x6000) := by simp [hk, loud]
  rw [knockAction, if_neg heard]
  dsimp only
  rw [if_pos hk]
  cases h : s.pw.kcFirst
  all_goals simp [State.kcCounted, h]

theorem knockAction_powered (hc : s.pw.ms ≠ .cold) (hk : s.pw.ms ≠ .keep) :
    knockAction peak s = recogniseKnock peak s.kcCounted := by
  have heard : ¬(s.pw.ms = .cold ∨ (peak : Int) ≤ 10 * pget s 0x6000) := by simp [hc, loud]
  rw [knockAction, if_neg heard]
  exact if_neg hk

end Counted

/-! ## Pairs of knocks -/

theorem recogniseKnock_unmeasured {s : State} (peak : Nat) (h : measuring s = false) : recogniseKnock peak s = s :=
  if_neg (by simp [h])

theorem recogniseKnock_dead {s : State} {t : Nat} (peak : Nat) (h : measuring s = true) (ht : s.ev.knockAt = some t)
    (dead : s.ck.mono < t + pnat s 0x6003) : recogniseKnock peak s = s := by
  simp only [recogniseKnock, h, ht, dead, decide_true, if_true]

/-- What a knock outside the dead time makes of the one that waits, with the gaps of a double (R168). -/
def knockPaired (least greatest peak : Nat) (u : State) : State :=
  match u.ev.knock with
  | some (t, first) =>
    if u.ck.mono - t < least then u
    else if u.ck.mono - t ≤ greatest then
      raiseEvent 0x15 0 (u.ck.mono - t : Nat) peak 0 0 { u with ev := { u.ev with knock := none } }
    else raiseEvent 0x14 0 first 0 0 0 { u with ev := { u.ev with knock := some (u.ck.mono, peak) } }
  | none => { u with ev := { u.ev with knock := some (u.ck.mono, peak) } }

theorem recogniseKnock_free {s : State} (peak : Nat) (h : measuring s = true)
    (free : ∀ t, s.ev.knockAt = some t → t + pnat s 0x6003 ≤ s.ck.mono) :
    recogniseKnock peak s =
      knockPaired (pnat s 0x6001) (pnat s 0x6002) peak (wakeEvent { s with ev := { s.ev with knockAt := some s.ck.mono } }) := by
  unfold recogniseKnock
  rw [if_pos h]
  cases ht : s.ev.knockAt with
  | none => rfl
  | some t =>
    have live : ¬s.ck.mono < t + pnat s 0x6003 := Nat.not_lt.mpr (free t ht)
    simp only [live, decide_false]
    rfl

section Paired

variable {u : State} {least greatest : Nat} (peak : Nat)

theorem knockPaired_none (h : u.ev.knock = none) :
    knockPaired least greatest peak u = { u with ev := { u.ev with knock := some (u.ck.mono, peak) } } := by
  simp only [knockPaired, h]

variable {t f : Nat} (h : u.ev.knock = some (t, f))

include h

theorem knockPaired_early (early : u.ck.mono - t < least) : knockPaired least greatest peak u = u := by
  simp only [knockPaired, h, early, if_true]

theorem knockPaired_double (late : least ≤ u.ck.mono - t) (within : u.ck.mono - t ≤ greatest) :
    knockPaired least greatest peak u = { u with ev := { u.ev with
      knock := none, raised := u.ev.raised ++ [⟨0x15, 0, (u.ck.mono - t : Nat), peak, 0, 0⟩] } } := by
  simp only [knockPaired, h, Nat.not_lt.mpr late, within, if_true, if_false]
  rfl

theorem knockPaired_beyond (late : least ≤ u.ck.mono - t) (beyond : greatest < u.ck.mono - t) :
    knockPaired least greatest peak u = { u with ev := { u.ev with
      knock := some (u.ck.mono, peak), raised := u.ev.raised ++ [⟨0x14, 0, f, 0, 0, 0⟩] } } := by
  simp only [knockPaired, h, Nat.not_lt.mpr late, Nat.not_le.mpr beyond, if_false]
  rfl

end Paired

/-! ## The greatest gap -/

theorem knockRunOut_due {s : State} {t f : Nat} (hm : measuring s = true) (hk : s.ev.knock = some (t, f))
    (due : t + pnat s 0x6002 ≤ s.ck.mono) :
    knockRunOut s = raiseEvent 0x14 0 f 0 0 0 (wakeEvent { s with ev := { s.ev with knock := none } }) := by
  simp only [knockRunOut, hk, hm, due, and_self, if_true]

theorem knockRunOut_early {s : State}
    (h : measuring s = false ∨ ∀ t f : Nat, s.ev.knock = some (t, f) → s.ck.mono < t + pnat s 0x6002) :
    knockRunOut s = s := by
  unfold knockRunOut
  cases hk : s.ev.knock with
  | none => rfl
  | some q =>
    refine if_neg fun c => ?_
    obtain ⟨hm, due⟩ := c
    rcases h with h | h
    · rw [h] at hm
      exact absurd hm (by decide)
    · exact absurd (h q.1 q.2 hk) (Nat.not_lt.mpr due)

/-- Settles O39: KC counts first; the recogniser then splits on its dead time and on the gap after a knock that waits. -/
theorem knocksAreSingleOrDouble : Obligations.KnocksAreSingleOrDouble := by
  unfold Obligations.KnocksAreSingleOrDouble
  intro s peak woken k w
  have woke : measuring s = true → wakeEvent { k with ev := { s.ev with knockAt := some s.ck.mono } } = w :=
    fun hm => wakeEvent_measuring (s := { k with ev := { s.ev with knockAt := some s.ck.mono } }) hm
  refine ⟨fun quiet => congrArg Host.Outcome.next (if_pos quiet), fun hc loud =>
    ⟨fun hk => congrArg Host.Outcome.next (knockAction_keep loud hk), fun hk hm => ?_, fun hm => ?_⟩,
    fun t f hm hk due => ?_, fun early => congrArg Host.Outcome.next (knockRunOut_early early)⟩
  · exact congrArg Host.Outcome.next ((knockAction_powered loud hc hk).trans (recogniseKnock_unmeasured peak hm))
  · have powered := knockAction_powered loud hc (measuring_not_keep hm).2
    refine ⟨fun t ht dead => ?_, fun free => ?_⟩
    · exact congrArg Host.Outcome.next (powered.trans (recogniseKnock_dead (s := s.kcCounted) peak hm ht dead))
    · have paired : exec (.knock peak) s = .next (knockPaired (pnat s 0x6001) (pnat s 0x6002) peak w) := by
        rw [← woke hm]
        exact congrArg Host.Outcome.next (powered.trans (recogniseKnock_free (s := s.kcCounted) peak hm free))
      have mono : w.ck.mono = s.ck.mono := by rw [← woke hm, wakeEvent_ck]
      have raised : w.ev.raised = s.ev.raised := by rw [← woke hm, wakeEvent_raised]
      have knock : w.ev.knock = s.ev.knock := by rw [← woke hm, wakeEvent_knock]
      rw [paired]
      refine ⟨fun none => ?_, fun t f hk => ⟨fun early => ?_, fun late within => ?_, fun late beyond => ?_⟩⟩
      · rw [knockPaired_none peak (knock.trans none), mono]
      · rw [knockPaired_early peak (knock.trans hk) (by rwa [mono])]
      · rw [knockPaired_double peak (knock.trans hk) (by rwa [mono]) (by rwa [mono]), mono, raised]
      · rw [knockPaired_beyond peak (knock.trans hk) (by rwa [mono]) (by rwa [mono]), mono, raised]
  · have woke := wakeEvent_measuring (s := { s with ev := { s.ev with knock := none } }) hm
    have raised := wakeEvent_raised { s with ev := { s.ev with knock := none } }
    intro u
    have woke : wakeEvent { s with ev := { s.ev with knock := none } } = u := woke
    rw [woke] at raised
    refine congrArg Host.Outcome.next ((knockRunOut_due hm hk due).trans ?_)
    rw [woke, raiseEvent, raised]

end Sys2Proof.Machine
end

section
/-! PROOFS. The journal queue (R193 ... R199, R210): grants, requests that are shed, late reservations, the reset and the
linger timer. -/

namespace Sys2Proof.Machine

/-! ## Grants -/

@[simp] theorem settle_waiters (n : Nat) (s : State) : (s.settle n).qu.waiters = s.qu.waiters := rfl
@[simp] theorem settle_regions (n : Nat) (s : State) : (s.settle n).qu.regions = s.qu.regions := rfl

/-- What starting a packet changes (R187). -/
theorem startPacket_eq (s : State) (w : Waiter) :
    startPacket s w = s.modQueue fun q => { q with seqs := (startPacket s w).qu.seqs } := by
  unfold startPacket
  split
  · rfl
  · rfl

theorem grant_waiters (s : State) (w : Waiter) : (grant s w).qu.waiters = s.qu.waiters := by
  rw [grant, settle_waiters, startPacket_eq]
  rfl

theorem grant_regions (s : State) (w : Waiter) : (grant s w).qu.regions = s.qu.regions ++ [regionOf s w] := by
  rw [grant, settle_regions, startPacket_eq]
  rfl

/-- A channel whose request is granted: it goes on where it stalls for it, and else finds the grant at its MARK (R210). -/
def Chan.granted (w : Waiter) (c : Chan) : Chan :=
  if c.st = .stall then { c with reserved := decide (w.words.length < w.len), st := .run, pc := c.pc + 1 }
  else { c with reserved := decide (w.words.length < w.len), markReady := true }

/-- The queue with a waiter's region in place of the waiter. -/
def State.seated (s : State) (w : Waiter) : State := grant (s.modQueue fun q => { q with waiters := q.waiters.erase w }) w

theorem seated_queued (s : State) (w : Waiter) : Queued s (s.seated w) := (modQueue_queued s _).trans (grant_queued _ w)

theorem Queued.ga {s t : State} (h : Queued s t) : t.ga = s.ga := by rw [show t = { s with qu := t.qu } from h]

theorem seated_waiters (s : State) (w : Waiter) : (s.seated w).qu.waiters = s.qu.waiters.erase w := grant_waiters _ _

theorem seated_regions (s : State) (w : Waiter) : (s.seated w).qu.regions = s.qu.regions ++ [regionOf s w] :=
  grant_regions _ _

theorem grantWaiter_channel {w : Waiter} {g : Channel} (s : State) (h : w.origin = 8 + g.val) :
    grantWaiter w s = (s.seated w).modChan g (Chan.granted w) := by
  have origin : 8 ≤ w.origin ∧ w.origin < 16 := by omega
  have index : (⟨w.origin - 8, by omega⟩ : Channel) = g := Fin.ext (by simp [h])
  rw [grantWaiter]
  dsimp only
  rw [dif_pos origin, index]
  rfl

theorem grantWaiter_producer {w : Waiter} (s : State) (h : ∀ g : Channel, w.origin ≠ 8 + g.val) :
    grantWaiter w s = s.seated w :=
  dif_neg fun c => h ⟨w.origin - 8, by omega⟩ (by simp only; omega)

theorem reservationGrant_some {s : State} {w : Waiter} (free : fastFree s = true)
    (h : firstWaiter (s.qu.waiters.filter (canGrant s)) = some w) : reservationGrant s = grantWaiter w s := by
  simp only [reservationGrant, free, h, if_true]

theorem reservationGrant_none {s : State} (h : fastFree s = false ∨ s.qu.waiters.filter (canGrant s) = []) :
    reservationGrant s = s := by
  unfold reservationGrant
  rcases h with h | h
  · simp [h]
  · simp [h, firstWaiter]

/-! ## Requests that are shed -/

/-- A packet of a class is counted as shed; the lines may have it noted, and the regions and requests stand (R194). -/
structure ShedOnce (cls : Nat) (s t : State) : Prop where
  talked : Talked { s with qu := t.qu } t
  waiters : t.qu.waiters = s.qu.waiters
  regions : t.qu.regions = s.qu.regions
  shed2 : t.qu.shed2 = if cls = 2 then s.qu.shed2 + 1 else s.qu.shed2
  shed3 : t.qu.shed3 = if cls = 3 then s.qu.shed3 + 1 else s.qu.shed3

theorem Talked.qu {s t : State} (h : Talked s t) : t.qu = s.qu := by rw [h.1]
theorem Talked.ga {s t : State} (h : Talked s t) : t.ga = s.ga := by rw [h.1]

/-- What follows with the lines' talk alone is counted alike. -/
theorem ShedOnce.of_talked {cls : Nat} {s u t : State} (h : ShedOnce cls s u) (ht : Talked u t) : ShedOnce cls s t where
  talked := by
    rw [ht.qu]
    exact h.talked.trans ht
  waiters := by rw [ht.qu, h.waiters]
  regions := by rw [ht.qu, h.regions]
  shed2 := by rw [ht.qu, h.shed2]
  shed3 := by rw [ht.qu, h.shed3]

theorem ShedOnce.ite {cls : Nat} {s a b : State} {c : Prop} [Decidable c] (ha : ShedOnce cls s a) (hb : ShedOnce cls s b) :
    ShedOnce cls s (if c then a else b) :=
  iteInduction (fun _ => ha) fun _ => hb

theorem modQueue_shedOnce {cls : Nat} (s : State) {f : Queue → Queue} (hw : (f s.qu).waiters = s.qu.waiters)
    (hr : (f s.qu).regions = s.qu.regions) (h2 : (f s.qu).shed2 = if cls = 2 then s.qu.shed2 + 1 else s.qu.shed2)
    (h3 : (f s.qu).shed3 = if cls = 3 then s.qu.shed3 + 1 else s.qu.shed3) : ShedOnce cls s (s.modQueue f) :=
  ⟨Talked.refl _, hw, hr, h2, h3⟩

theorem shed_shedOnce (s : State) (cls : Nat) : ShedOnce cls s (shed s cls) :=
  .ite (.of_talked (modQueue_shedOnce s rfl rfl rfl rfl) (noteAll_talked _ _)) (modQueue_shedOnce s rfl rfl rfl rfl)

/-- A channel whose request was shed: its words are to be discarded, and it goes on where it stalls for it (R194, R210). -/
def Chan.shedFor (w : Waiter) (c : Chan) : Chan :=
  if c.st = .stall then { c with discard := w.len - 1, st := .run, pc := c.pc + 1 }
  else { c with discard := w.len - 1, markReady := true }

/-- The queue and the channel as the shed request leaves them. -/
def State.unqueued (s : State) (g : Channel) (w : Waiter) : State :=
  ((takeSeq s w.origin).2.modQueue fun q => { q with waiters := q.waiters.erase w }).modChan g (Chan.shedFor w)

theorem unqueued_chan (s : State) (g : Channel) (w : Waiter) :
    (s.unqueued g w).ga.chans[g] = Chan.shedFor w s.ga.chans[g] := State.modChan_chan _ _ _

section Shed

variable {s : State} {g : Channel} {w : Waiter}
  (h : s.qu.waiters.find? (fun v => v.origin = chanOrigin g && v.cls ≠ 1) = some w)

include h

theorem shedWaitTimeout_due (due : w.since + pnat s 0x7005 ≤ s.ck.mono) :
    shedWaitTimeout g s = shed (s.unqueued g w) w.cls := by
  simp only [shedWaitTimeout, h, due, if_true]
  rfl

theorem shedWaitTimeout_early (early : s.ck.mono < w.since + pnat s 0x7005) : shedWaitTimeout g s = s := by
  simp only [shedWaitTimeout, h, Nat.not_le.mpr early, if_false]

end Shed

theorem shedWaitTimeout_none {s : State} {g : Channel}
    (h : s.qu.waiters.find? (fun v => v.origin = chanOrigin g && v.cls ≠ 1) = none) : shedWaitTimeout g s = s := by
  simp only [shedWaitTimeout, h]

/-! ## What booking leaves of the queue -/

/-- The read port, the resets and the spell of the queue stand. -/
structure PortStands (s t : State) : Prop where
  port : t.qu.port = s.qu.port
  resets : t.qu.resets = s.qu.resets
  spell : t.qu.spell = s.qu.spell

theorem PortStands.trans {s t u : State} (a : PortStands s t) (b : PortStands t u) : PortStands s u :=
  ⟨b.port.trans a.port, b.resets.trans a.resets, b.spell.trans a.spell⟩

theorem PortStands.of_eq {s t : State} (h : t.qu = s.qu) : PortStands s t := by
  constructor
  all_goals rw [h]

theorem grant_portStands (s : State) (w : Waiter) : PortStands s (grant s w) := by
  rw [grant, startPacket_eq]
  exact ⟨rfl, rfl, rfl⟩

theorem takeSeq_portStands (s : State) (origin : Nat) : PortStands s (takeSeq s origin).2 := ⟨rfl, rfl, rfl⟩

theorem ask_portStands (s : State) (w : Waiter) : PortStands s (ask s w) := by
  unfold ask
  split
  · exact grant_portStands s w
  · exact ⟨rfl, rfl, rfl⟩

theorem packet_portStands (s : State) (origin subject : Nat) (payload : List Word) :
    PortStands s (packet s origin subject payload) := by
  unfold packet
  split
  · exact (takeSeq_portStands s _).trans (ask_portStands _ _)
  · exact .of_eq rfl

theorem putAll_qu (parts : List (Nat × List Byte)) : ∀ s : State,
    (parts.foldl (fun t p => putBytes t p.1 p.2) s).qu = s.qu := by
  induction parts with
  | nil => exact fun _ => rfl
  | cons p ps ih => exact fun s => ih (putBytes s p.1 p.2)

theorem writeChained_qu (s : State) (k : Fin 4) (d : List Byte) (parts : List (Nat × List Byte)) :
    (writeChained s k d parts).qu = s.qu := putAll_qu parts s

theorem appendSmall_portStands (s : State) (k : Fin 4) (content : List Byte) : PortStands s (appendSmall s k content) :=
  (PortStands.of_eq (writeChained_qu s k _ _)).trans (packet_portStands _ _ _ _)

/-- A spell of shedding that ends is recorded (R194). -/
theorem shedSpellEnd_due {s : State} {a b last n2 n3 : Nat} (h : s.qu.spell = some (a, b, last, n2, n3))
    (due : last + 1000 ≤ s.ck.mono) :
    shedSpellEnd s = appendSmall (s.modQueue fun q => { q with spell := none }) 2
      (stampAt a 4 ++ leBytes 2 2 ++ fit 16 0 (leBytes 4 (last - b) ++ leBytes 4 n2 ++ leBytes 4 n3)) := by
  simp only [shedSpellEnd, h, due, if_true]

theorem shedSpellEnd_early {s : State} {a b last n2 n3 : Nat} (h : s.qu.spell = some (a, b, last, n2, n3))
    (early : s.ck.mono < last + 1000) : shedSpellEnd s = s := by
  simp only [shedSpellEnd, h, Nat.not_le.mpr early, if_false]

/-! ## Late reservations -/

/-- With no bad packet among the regions nothing is spoilt. -/
theorem spoil_none {bad : Region → Bool} {s : State} (h : ∀ r ∈ s.qu.regions, bad r = false) : spoil bad s = s := by
  have none : s.qu.regions.filter bad = [] := List.filter_eq_nil_iff.mpr fun r hr => by simp [h r hr]
  unfold spoil
  dsimp only
  rw [none]
  rfl

theorem spoil_queued (bad : Region → Bool) (s : State) : Queued s (spoil bad s) := by
  unfold spoil
  dsimp only
  split
  · exact Queued.refl s
  · exact (modQueue_queued s _).trans (settle_queued 0 _)

/-- What is left is not bad, or a void in the place of a bad packet (R195). -/
theorem spoil_regions {bad : Region → Bool} {s : State} {r : Region} (h : r ∈ (spoil bad s).qu.regions) :
    bad r = false ∨ r.void = true := by
  unfold spoil at h
  dsimp only at h
  split at h
  case isTrue none =>
    have filtered := List.length_eq_zero_iff.mp none
    exact .inl (by simpa using List.filter_eq_nil_iff.mp filtered r h)
  case isFalse =>
    rw [settle_regions] at h
    obtain ⟨q, -, hq⟩ := List.mem_map.mp h
    split at hq
    · exact .inr (hq ▸ rfl)
    · exact .inl (by simp_all)

/-- Only the channels' marks of an open reservation may differ. -/
structure Remarked (s t : State) : Prop where
  body : t = { s with ga := { s.ga with chans := t.ga.chans } }
  chans : ∀ g : Channel, t.ga.chans[g] = { s.ga.chans[g] with reserved := t.ga.chans[g].reserved }

theorem Remarked.trans {s t u : State} (a : Remarked s t) (b : Remarked t u) : Remarked s u where
  body := by rw [b.body, a.body]
  chans g := by rw [b.chans g, a.chans g]

theorem Remarked.foldl {α : Type} (f : State → α → State) (hf : ∀ s a, Remarked s (f s a)) :
    ∀ (xs : List α) (s : State), Remarked s (xs.foldl f s)
  | [], _ => ⟨rfl, fun _ => rfl⟩
  | x :: xs, s => (hf s x).trans (Remarked.foldl f hf xs (f s x))

theorem reserved_remarked (s : State) (g : Channel) (b : Bool) :
    Remarked s (s.modChan g fun c => { c with reserved := b }) where
  body := rfl
  chans k := by
    by_cases h : k = g
    · rw [h, State.modChan_chan]
    · rw [State.modChan_other s g k _ h]

/-- A reservation that has stood uncommitted for more than a second of awake time (R195). -/
def lateAt (s : State) (r : Region) : Bool := !r.committed && !r.void && decide (r.at_ + 1000 < s.ck.awake)

theorem lateAt_false {s : State} {r : Region} :
    lateAt s r = false ↔ r.committed = true ∨ r.void = true ∨ s.ck.awake ≤ r.at_ + 1000 := by
  unfold lateAt
  cases r.committed
  · cases r.void
    · simp
    · simp
  · simp

theorem reservationTimeout_remarked (s : State) : Remarked (spoil (lateAt s) s) (reservationTimeout s) :=
  Remarked.foldl _ (fun t g => reserved_remarked t g _) _ _

/-! ## The queue reset -/

theorem Gathered.trans {s t u : State} (a : Gathered s t) (b : Gathered t u) : Gathered s u := by
  obtain ⟨a1, a2, a3, a4⟩ := a
  obtain ⟨b1, b2, b3, b4⟩ := b
  refine ⟨?_, b2.trans a2, LineSt.talks_trans a3 b3, LineSt.talks_trans a4 b4⟩
  rw [b1, a1]

theorem Gathered.refl (s : State) : Gathered s s := ⟨rfl, rfl, rfl, rfl⟩

theorem Queued.gathered {s t : State} (h : Queued s t) : Gathered s t := by
  rw [show t = { s with qu := t.qu } from h]
  exact ⟨rfl, rfl, rfl, rfl⟩

theorem modChan_gathered (s : State) (g : Channel) (f : Chan → Chan) : Gathered s (s.modChan g f) := ⟨rfl, rfl, rfl, rfl⟩

theorem setProg_gathered (a : Nat) (w : Word) (s : State) : Gathered s (setProg a w s) := by
  unfold setProg
  split
  · exact ⟨rfl, rfl, rfl, rfl⟩
  · exact Gathered.refl s

theorem setProg_qu (a : Nat) (w : Word) (s : State) : (setProg a w s).qu = s.qu := by
  unfold setProg
  split
  all_goals rfl

theorem pushRing_gathered (s : State) (ws : List Word) : Gathered s (pushRing s ws) := by
  unfold pushRing
  exact ⟨rfl, rfl, rfl, rfl⟩

theorem pushRing_qu (s : State) (ws : List Word) : (pushRing s ws).qu = s.qu := by
  unfold pushRing
  rfl

theorem post_gathered (g : Channel) (kind status low : Nat) (w3 : Word) (s : State) :
    Gathered s (post g kind status low w3 s) := by
  unfold post
  dsimp only
  split
  · exact pushRing_gathered s _
  · exact modChan_gathered s g _

theorem post_qu (g : Channel) (kind status low : Nat) (w3 : Word) (s : State) :
    (post g kind status low w3 s).qu = s.qu := by
  unfold post
  dsimp only
  split
  · exact pushRing_qu s _
  · rfl

/-- The end of a MOVE is the gather engine's business alone. -/
theorem finishMove_gathered (g : Channel) (status : Nat) (bad : Bool) (s : State) :
    Gathered s (finishMove g status bad s) := by
  unfold finishMove
  dsimp only
  refine Gathered.trans ?_ (modChan_gathered _ g _)
  split
  · exact (setProg_gathered _ _ s).trans (setProg_gathered _ _ _)
  · split
    · exact post_gathered _ _ _ _ _ s
    · exact Gathered.refl s

theorem finishMove_qu (g : Channel) (status : Nat) (bad : Bool) (s : State) : (finishMove g status bad s).qu = s.qu := by
  unfold finishMove
  dsimp only
  rw [State.modChan_qu]
  split
  · rw [setProg_qu, setProg_qu]
  · split
    · exact post_qu _ _ _ _ _ s
    · rfl

/-- The open packet's end frees the read port (R197, R199). -/
theorem endPacket_freed (s : State) :
    Gathered s (endPacket s) ∧ (endPacket s).qu.port = none ∧ (endPacket s).qu.resets = s.qu.resets := by
  unfold endPacket
  split
  case h_1 p _ =>
    have freed : Gathered s (State.settle p.left.length (s.modQueue fun q => { q with port := none })) :=
      ((modQueue_queued s _).trans (settle_queued _ _)).gathered
    dsimp only
    split
    · refine ⟨freed.trans (finishMove_gathered _ _ _ _), ?_⟩
      rw [finishMove_qu]
      exact ⟨rfl, rfl⟩
    · exact ⟨freed, rfl, rfl⟩
  case h_2 none => exact ⟨Gathered.refl s, none, rfl⟩

/-- The queue emptied and the reset counted, ahead of its note (R199). -/
def queueEmptied (s : State) : State :=
  State.settle (fillOf (endPacket s).qu) { endPacket s with
    qu := { (endPacket s).qu with regions := [], resets := (endPacket s).qu.resets + 1, lingerFrom := s.ck.mono }
    ga := { (endPacket s).ga with chans := (endPacket s).ga.chans.map fun c => { c with reserved := false } } }

theorem queueEmptied_gathered (s : State) : Gathered s (queueEmptied s) :=
  (endPacket_freed s).1.trans ⟨rfl, rfl, rfl, rfl⟩

theorem queueReset_on {s : State} (cause : QueueFault) (h : fastOn s = true) :
    Booked (queueEmptied s) (queueReset cause s) ∧ PortStands (queueEmptied s) (queueReset cause s) := by
  rw [show queueReset cause s = _ from if_pos h]
  have noted := fun text => noteAll_talked text (queueEmptied s)
  exact ⟨(noted _).booked.trans (moduleNote_booked _ _ _),
    (PortStands.of_eq (noted _).qu).trans (appendSmall_portStands _ _ _)⟩

/-! ## The linger timer -/

/-- A change of the power record and the queue stands beside the lines' talk. -/
theorem Talked.withQueue {s t : State} (h : Talked s t) (p : Power) (q : Queue) :
    Talked { s with pw := p, qu := q } { t with pw := p, qu := q } := by
  obtain ⟨h1, hh, hv⟩ := h
  refine ⟨?_, hh, hv⟩
  rw [h1]

theorem lingerExpiry_due {s : State} (on : fastOn s = true) (some : (visible s).isSome = true)
    (due : s.qu.lingerFrom + pnat s 0x7002 ≤ s.ck.mono) :
    Talked { s with
      pw := { s.pw with pass := if s.pw.pass = .asleep && measuring s then .drain else s.pw.pass }
      qu := { s.qu with lingers := s.qu.lingers + 1, lingerFlag := true, lingerFrom := s.ck.mono
                        drainAt := if s.pw.pass = .asleep && measuring s then s.ck.mono else s.qu.drainAt } }
      (lingerExpiry s) := by
  have noted := noteAll_talked (spaced ["queue linger", natText (fillOf s.qu), natText (packetCount s)]) s
  rw [show lingerExpiry s = _ from if_pos ⟨on, some, due⟩]
  dsimp only
  rw [noted.pw, noted.qu]
  exact noted.withQueue _ _

theorem lingerExpiry_early {s : State}
    (h : fastOn s = false ∨ visible s = none ∨ s.ck.mono < s.qu.lingerFrom + pnat s 0x7002) : lingerExpiry s = s := by
  refine if_neg fun c => ?_
  obtain ⟨on, some, due⟩ := c
  rcases h with h | h | h
  · simp [h] at on
  · simp [h] at some
  · omega

/-- Settles O55: each row splits on whether it is due; a grant and a shed request change their own channel alone, a late
reservation is spoilt, and the reset is the end of the open packet with what is booked behind it. -/
theorem queueIsGrantedShedResetAndDrained : Obligations.QueueIsGrantedShedResetAndDrained := by
  unfold Obligations.QueueIsGrantedShedResetAndDrained
  intro s
  refine ⟨fun none => congrArg Host.Outcome.next (reservationGrant_none none), fun w free first => ?_,
    fun g w waits => ⟨fun due => ?_, fun early => gives_of_done (congrArg done (shedWaitTimeout_early waits early))⟩,
    fun g none => gives_of_done (congrArg done (shedWaitTimeout_none none)),
    fun a b last n2 n3 spell => ⟨fun due => ?_, fun early => congrArg Host.Outcome.next (shedSpellEnd_early spell early)⟩,
    ?_, fun q => ⟨fun on => ?_, fun off => gives_of_done (congrArg done (if_neg (by simp [off])))⟩, fun on some due => ?_,
    fun early => gives_of_done (congrArg done (lingerExpiry_early early)),
    fun drain ends => congrArg Host.Outcome.next (if_pos ⟨drain, ends⟩),
    fun stays => congrArg Host.Outcome.next (if_neg fun c => ?_)⟩
  · have granted : exec .reservationGrant s = .next (grantWaiter w s) :=
      congrArg Host.Outcome.next (reservationGrant_some free first)
    have seated := seated_queued s w
    refine ⟨_, granted, ?_⟩
    by_cases hg : ∃ g : Channel, w.origin = 8 + g.val
    · obtain ⟨g, hg⟩ := hg
      rw [grantWaiter_channel s hg]
      refine ⟨seated_waiters s w, seated_regions s w, fun k hk => ?_, fun k hk => ?_, ?_⟩
      · obtain rfl : k = g := Fin.ext (by omega)
        rw [State.modChan_chan, seated.ga, Chan.granted]
        refine ⟨fun stall => ?_, fun other => ?_⟩
        · rw [if_pos stall]
          exact ⟨rfl, rfl⟩
        · rw [if_neg other]
          exact ⟨rfl, rfl⟩
      · have other : k ≠ g := fun e => hk (e ▸ hg)
        rw [State.modChan_other _ _ _ _ other, seated.ga]
      · rw [show s.seated w = { s with qu := (s.seated w).qu } from seated]
        rfl
    · have producer : ∀ g : Channel, w.origin ≠ 8 + g.val := fun g h => hg ⟨g, h⟩
      rw [grantWaiter_producer s producer]
      refine ⟨seated_waiters s w, seated_regions s w, fun k hk => absurd hk (producer k), fun k _ => by rw [seated.ga], ?_⟩
      rw [show s.seated w = { s with qu := (s.seated w).qu } from seated]
  · have counted := (shed_shedOnce (s.unqueued g w) w.cls).of_talked (flushNotes_talked _)
    have chans : (flushNotes (shed (s.unqueued g w) w.cls)).ga = (s.unqueued g w).ga := counted.talked.ga
    refine ⟨_, congrArg done (shedWaitTimeout_due waits due), counted.waiters, counted.regions, counted.shed2,
      counted.shed3, ?_, fun stall => ?_, fun k hk => ?_, ?_⟩
    · rw [chans, unqueued_chan, Chan.shedFor]
      split
      all_goals rfl
    · rw [chans, unqueued_chan, Chan.shedFor, if_pos stall]
      exact ⟨rfl, rfl⟩
    · rw [chans, State.unqueued, State.modChan_other _ _ _ _ hk]
      rfl
    · rw [chans]
      exact counted.talked
  · have stands := appendSmall_portStands (s.modQueue fun q => { q with spell := none }) 2
    exact ⟨_, congrArg Host.Outcome.next (shedSpellEnd_due spell due), (stands _).spell,
      (modQueue_booked s _).trans (appendSmall_booked _ _ _)⟩
  · have marked := reservationTimeout_remarked s
    have spoilt := spoil_queued (lateAt s) s
    have qu : (reservationTimeout s).qu = (spoil (lateAt s) s).qu := by rw [marked.body]
    refine ⟨_, rfl, fun r hr => ?_, fun prompt => ?_, fun g => ?_, ?_⟩
    · rw [qu] at hr
      rcases spoil_regions hr with h | h
      · exact lateAt_false.mp h
      · exact .inr (.inl h)
    · rw [qu, spoil_none fun r hr => lateAt_false.mpr (prompt r hr)]
    · rw [marked.chans g, spoilt.ga]
    · rw [marked.body, show spoil (lateAt s) s = { s with qu := _ } from spoilt]
  · obtain ⟨booked, stands⟩ := queueReset_on q on
    have talked := flushNotes_talked (queueReset q s)
    obtain ⟨-, port, resets⟩ := endPacket_freed s
    refine ⟨_, queueEmptied s, rfl, ?_, ?_, queueEmptied_gathered s, booked.trans talked.booked⟩
    · rw [talked.qu, stands.resets, ← resets]
      rfl
    · rw [talked.qu, stands.port]
      exact port
  · exact ⟨_, rfl, (lingerExpiry_due on some due).trans (flushNotes_talked _)⟩
  · obtain ⟨drain, ends⟩ := c
    rcases stays with h | ⟨filled, early⟩
    · exact h drain
    · rcases ends with h | h
      · exact filled h
      · omega

end Sys2Proof.Machine
end

section
/-! PROOFS. What pricing, recording and conversing leave alone (R143, R160, R254): nothing is sent on a command line, an
awake fast domain goes on as it was, of a run only the quantities change, and the last latch stands. -/

namespace Sys2Proof.Machine

/-- What `Worked` leaves open and the quantity pass does not change. -/
structure Accounted (s t : State) : Prop where
  sent : ∀ l : Line, (t.line l).sent = (s.line l).sent
  pass : s.pw.pass ≠ .asleep → t.pw.pass = s.pw.pass
  runs : ∀ r : Run, t.runs[r] = { s.runs[r] with qty := t.runs[r].qty }
  latchAt : t.lg.latchAt = s.lg.latchAt

theorem Accounted.refl (s : State) : Accounted s s := ⟨fun _ => rfl, fun _ => rfl, fun _ => rfl, rfl⟩

theorem Accounted.trans {s t u : State} (a : Accounted s t) (b : Accounted t u) : Accounted s u where
  sent l := (b.sent l).trans (a.sent l)
  pass h := (b.pass (by rwa [a.pass h])).trans (a.pass h)
  runs r := by rw [b.runs r, a.runs r]
  latchAt := b.latchAt.trans a.latchAt

theorem Accounted.foldl {α : Type} (g : State → α → State) (hg : ∀ s a, Accounted s (g s a))
    (xs : List α) (s : State) : Accounted s (xs.foldl g s) :=
  List.foldlRecOn xs g (Accounted.refl s) fun _ h x _ => h.trans (hg _ x)

theorem Accounted.ite {s a b : State} {c : Prop} [Decidable c] (ha : Accounted s a) (hb : Accounted s b) :
    Accounted s (if c then a else b) :=
  iteInduction (fun _ => ha) fun _ => hb

/-! ## Plain updates -/

/-- Booking that sends nothing. -/
theorem Booked.accounted {s t : State} (h : Booked s t) (hs : ∀ l : Line, (t.line l).sent = (s.line l).sent) :
    Accounted s t where
  sent := hs
  pass _ := by rw [h.1]
  runs r := by rw [h.1]
  latchAt := by rw [h.1]

theorem moduleNote_accounted (s : State) (code : Nat) (payload : List Byte) : Accounted s (moduleNote s code payload) :=
  (moduleNote_booked s code payload).accounted fun l => congrArg LineSt.sent (moduleNote_line s code payload l)

theorem audit_accounted (kind line role detail subject : Nat) (old new : Int) (s : State) :
    Accounted s (audit kind line role detail subject old new s) :=
  (audit_booked ..).accounted fun _ => congrArg LineSt.sent (audit_line ..)

theorem noteAll_accounted (text : String) (s : State) : Accounted s (noteAll text s) :=
  (noteAll_talked text s).booked.accounted (noteAll_sent text s)

theorem putBytes_accounted (s : State) (off : Nat) (bs : List Byte) : Accounted s (putBytes s off bs) :=
  (putBytes_booked s off bs).accounted fun l => congrArg LineSt.sent (putBytes_line s off bs l)

theorem writeChained_accounted (s : State) (k : Fin 4) (d : List Byte) (parts : List (Nat × List Byte)) :
    Accounted s (writeChained s k d parts) :=
  (writeChained_booked s k d parts).accounted fun l => congrArg LineSt.sent (writeChained_line s k d parts l)

theorem ledgerPacket_accounted (s : State) (kind : Nat) (bytes : List Byte) : Accounted s (ledgerPacket s kind bytes) :=
  (ledgerPacket_booked s kind bytes).accounted fun l => congrArg LineSt.sent (packet_line s 2 kind _ l)

/-- A change of the quantities of the runs, the session, the settlement, the outputs, the channels and the ledger, its
latch apart. -/
theorem accounted_plain (s : State) (v : Vector RunSt 4) (w : Ledger) (p : Pair) (e : Settle) (i : Io) (g : Gather)
    (hv : ∀ r : Run, v[r] = { s.runs[r] with qty := v[r].qty }) (hw : w.latchAt = s.lg.latchAt := by rfl) :
    Accounted s { s with runs := v, lg := w, pair := p, se := e, io := i, ga := g } where
  sent l := by
    cases l
    all_goals rfl
  pass _ := rfl
  runs := hv
  latchAt := hw

theorem accounted_lg (s : State) (w : Ledger) (hw : w.latchAt = s.lg.latchAt := by rfl) :
    Accounted s { s with lg := w } := accounted_plain s s.runs w s.pair s.se s.io s.ga (fun _ => rfl) hw

theorem accounted_se (s : State) (e : Settle) : Accounted s { s with se := e } :=
  accounted_plain s s.runs s.lg s.pair e s.io s.ga fun _ => rfl

theorem accounted_modPair (s : State) (f : Pair → Pair) : Accounted s (s.modPair f) :=
  accounted_plain s s.runs s.lg _ s.se s.io s.ga fun _ => rfl

theorem accounted_modCo (s : State) (x : Fin 4) (f : Co → Co) : Accounted s (s.modCo x f) :=
  accounted_plain s s.runs s.lg s.pair s.se _ s.ga fun _ => rfl

theorem accounted_modChan (s : State) (g : Channel) (f : Chan → Chan) : Accounted s (s.modChan g f) :=
  accounted_plain s s.runs s.lg s.pair s.se s.io _ fun _ => rfl

theorem accounted_mapQty (s : State) (f : RunSt → QtyRun → QtyRun) (w : Ledger)
    (hw : w.latchAt = s.lg.latchAt := by rfl) :
    Accounted s { s with runs := s.runs.map fun t => t.modQty (f t), lg := w } :=
  accounted_plain s _ w s.pair s.se s.io s.ga (fun r => by simp [RunSt.modQty]) hw

theorem accounted_reopened (s : State) (f : RunSt → QtyRun → QtyRun) (start : Nat) :
    Accounted s { s with runs := s.runs.map fun t => t.modQty (f t), lg := { s.lg with intStart := start } } :=
  accounted_mapQty s f _

theorem accounted_modSettle (s : State) (r : Nat) (f : SettleRun → SettleRun) : Accounted s (s.modSettle r f) :=
  accounted_se s _

theorem accounted_ofFnQty (s : State) (f : Fin 4 → QtyRun → QtyRun) :
    Accounted s { s with runs := Vector.ofFn fun (r : Fin 4) => s.runs[r].modQty (f r) } :=
  accounted_plain s _ s.lg s.pair s.se s.io s.ga fun r => by simp [RunSt.modQty]

theorem accounted_runQty (s : State) (r : Run) (f : RunSt → QtyRun → QtyRun) :
    Accounted s (s.modRun r fun t => t.modQty (f t)) :=
  accounted_plain s _ s.lg s.pair s.se s.io s.ga fun q => by
    by_cases h : q = r
    · rw [h]
      simp [RunSt.modQty]
    · have other := State.modRun_other s r q (fun t => t.modQty (f t)) h
      unfold State.modRun at other
      rw [other]

theorem refreshCo_accounted (x : Fin 4) (s : State) : Accounted s (refreshCo x s) := by
  unfold refreshCo
  exact accounted_modCo s x _

theorem refreshOutputs_accounted (s : State) : Accounted s (refreshOutputs s) :=
  Accounted.foldl _ (fun t x => refreshCo_accounted x t) _ s

/-! ## The conversation -/

theorem wakeLine_accounted (s : State) : Accounted s (wakeLine s) where
  sent l := congrArg LineSt.sent (wakeLine_line s l)
  pass h := by rw [wakeLine_eq, if_neg h]
  runs r := by rw [wakeLine_eq]
  latchAt := by rw [wakeLine_eq]

theorem putFrame_accounted (text : String) (s : State) : Accounted s (putFrame text s) :=
  (accounted_modPair s _).trans (wakeLine_accounted _)

theorem sendPlain_accounted (verb fields : String) (s : State) : Accounted s (sendPlain verb fields s) :=
  (putFrame_accounted _ s).trans (accounted_modPair _ _)

theorem losePair_accounted (c : Nat) (s : State) : Accounted s (losePair c s) :=
  ((accounted_modPair s _).trans (noteAll_accounted _ _)).trans (moduleNote_accounted _ _ _)

theorem resendOne_accounted (s : State) (f : OutFrame) : Accounted s (resendOne s f) :=
  (putFrame_accounted _ s).trans (accounted_modPair _ _)

theorem resendFrom_accounted (seq : Nat) (s : State) : Accounted s (resendFrom seq s) := by
  unfold resendFrom
  exact .ite (losePair_accounted 4 s) ((Accounted.foldl _ resendOne_accounted _ s).trans (accounted_modPair _ _))

theorem sendOffer_accounted (o : Offer) (s : State) : Accounted s (sendOffer o s) := by
  unfold sendOffer
  exact .ite (sendPlain_accounted _ _ s)
    (.ite (resendFrom_accounted _ s) ((putFrame_accounted _ s).trans (accounted_modPair _ _)))

theorem sendWindow_accounted : ∀ (n : Nat) (s : State), Accounted s (sendWindow n s)
  | 0, s => Accounted.refl s
  | n + 1, s => by
    unfold sendWindow
    split
    · exact Accounted.refl s
    · exact .ite (((accounted_modPair s _).trans (sendOffer_accounted _ _)).trans (sendWindow_accounted n _))
        (Accounted.refl s)

theorem flushPair_accounted (s : State) : Accounted s (flushPair s) := by
  have windowed := sendWindow_accounted 8 s
  unfold flushPair
  refine .ite (Accounted.refl s) (.ite (sendWindow_accounted 16 s) (.ite ?_ (Accounted.refl s)))
  exact .ite windowed (.ite ((windowed.trans (sendPlain_accounted _ _ _)).trans (accounted_modPair _ _)) windowed)

theorem offer_accounted (kind : Nat) (body : String) (s : State) : Accounted s (offer kind body s) :=
  .ite ((accounted_modPair s _).trans (flushPair_accounted _)) (Accounted.refl s)

theorem offerRecord_accounted (g : Channel) (off kind : Nat) (body : String) (s : State) :
    Accounted s (offerRecord g off kind body s) :=
  (Accounted.ite (accounted_modChan s g _) (Accounted.refl s)).trans (offer_accounted _ _ _)

/-! ## Settlement -/

theorem decideInt_accounted (i run start code : Nat) (own : Side) (other : Option Side) (s : State) :
    Accounted s (decideInt i run start code own other s) := by
  have marked := (accounted_se s _ : Accounted s (markDecided run start s)).trans
    (putBytes_accounted _ _ _ : Accounted _ (putOutcome i (decisionOf s run code own other).byte0 _))
  unfold decideInt
  exact .ite (((marked.trans (accounted_modSettle _ _ _)).trans (accounted_se _ _)).trans (noteAll_accounted _ _))
    (marked.trans (accounted_modSettle _ _ _))

theorem decidePair_accounted (i : Nat) (own : IntRec) (p : Entry) (s : State) : Accounted s (decidePair i own p s) := by
  unfold decidePair
  exact .ite (decideInt_accounted _ _ _ _ _ _ s)
    (.ite (decideInt_accounted _ _ _ _ _ _ s) ((accounted_se s _).trans (decideInt_accounted _ _ _ _ _ _ _)))

theorem ownPlaced_accounted (i : Nat) (s : State) : Accounted s (ownPlaced i s) := by
  unfold ownPlaced
  refine .ite (decideInt_accounted _ _ _ _ _ _ s) ?_
  split
  · exact .ite (Accounted.refl s) (decidePair_accounted _ _ _ s)
  · exact Accounted.refl s

/-! ## Blocks, intervals and days -/

theorem endURun_accounted (r : Run) (s : State) : Accounted s (endURun r s) := by
  unfold endURun
  split
  · exact (accounted_runQty s r _).trans (accounted_lg _ _)
  · exact Accounted.refl s

theorem priceRun_accounted (b : ClosedBlock) (r : Run) (s : State) : Accounted s (priceRun b r s) := by
  unfold priceRun
  exact (Accounted.ite (Accounted.refl s) (endURun_accounted r s)).trans (accounted_runQty _ r _)

theorem writeInterval_accounted (r : IntRec) (s : State) : Accounted s (writeInterval r s) :=
  ((((writeChained_accounted _ _ _ _).trans (ledgerPacket_accounted _ _ _)).trans (accounted_lg _ _)).trans
    (offerRecord_accounted _ _ _ _ _)).trans (ownPlaced_accounted _ _)

theorem closeDay_accounted (s : State) : Accounted s (closeDay s) := by
  unfold closeDay
  split
  · exact Accounted.refl s
  · have noted : Accounted s (noteUnsigned s) := .ite (noteAll_accounted _ _) (Accounted.refl s)
    exact (((noted.trans (writeChained_accounted _ _ _ _)).trans (ledgerPacket_accounted _ _ _)).trans
      (accounted_lg _ _)).trans ((offerRecord_accounted _ _ _ _ _).trans (offer_accounted _ _ _))

theorem closeDays_accounted : ∀ (n t : Nat) (s : State), Accounted s (closeDays n t s)
  | 0, _, s => Accounted.refl s
  | n + 1, t, s => by
    unfold closeDays
    split
    · exact .ite ((closeDay_accounted s).trans (closeDays_accounted n t _)) (Accounted.refl s)
    · exact Accounted.refl s

theorem closeOpen_accounted (start : Nat) (s : State) : Accounted s (closeOpen start s) :=
  ((Accounted.ite (closeDays_accounted _ _ s) (Accounted.refl s)).trans
    (Accounted.foldl _ (fun t r => writeInterval_accounted (openRecord _ r) t) _ _)).trans (accounted_reopened _ _ _)

/-! ## The backlog -/

theorem spanBlocks_accounted : ∀ (n : Nat) (sp : KeepSpan) (t : Nat) (s : State), Accounted s (spanBlocks n sp t s)
  | 0, _, _, s => Accounted.refl s
  | n + 1, sp, t, s => by
    unfold spanBlocks
    refine .ite (Accounted.refl s) (Accounted.trans (.ite ?_ (accounted_ofFnQty s _)) (spanBlocks_accounted n sp _ _))
    exact ((accounted_ofFnQty s _).trans (closeOpen_accounted _ _)).trans
      (.ite (closeDays_accounted _ _ _) (Accounted.refl _))

theorem addSums_accounted (s : State) (x : Vector Sums 4) : Accounted s (s.addSums x) := accounted_ofFnQty s _

theorem writeSpan_accounted (sp : KeepSpan) (s : State) : Accounted s (writeSpan sp s) := by
  unfold writeSpan
  split
  · exact .ite ((addSums_accounted s _).trans (closeOpen_accounted _ _)) (addSums_accounted s _)
  · exact (Accounted.ite ((Accounted.ite (closeOpen_accounted _ s) (accounted_lg s _)).trans
      (closeDays_accounted _ _ _)) (Accounted.refl s)).trans (spanBlocks_accounted _ _ _ _)

theorem oldBlocks_accounted : ∀ (n : Nat) (sp : KeepSpan) (stop t : Nat) (s : State),
    Accounted s (oldBlocks n sp stop t s)
  | 0, _, _, _, s => Accounted.refl s
  | n + 1, sp, stop, t, s => by
    unfold oldBlocks
    refine .ite (Accounted.refl s) (Accounted.trans (.ite ?_ (accounted_ofFnQty s _)) (oldBlocks_accounted n sp _ _ _))
    exact (accounted_ofFnQty s _).trans (closeDays_accounted _ _ _)

theorem gatherOld_accounted (cut : Nat) (s : State) (sp : KeepSpan) : Accounted s (gatherOld cut s sp) := by
  unfold gatherOld
  split
  · exact addSums_accounted s _
  · exact oldBlocks_accounted _ _ _ _ _

theorem writeOld_accounted (olds : List KeepSpan) (s : State) : Accounted s (writeOld olds s) :=
  ((Accounted.foldl _ (fun t sp => gatherOld_accounted _ t sp) _ s).trans
    (Accounted.foldl _ (fun t _ => moduleNote_accounted t _ _) _ _)).trans (accounted_mapQty _ _ _)

theorem joinBack_accounted (s : State) : Accounted s (joinBack s) := by
  unfold joinBack
  split
  · exact accounted_mapQty s _ _
  · exact Accounted.refl s

theorem takeSpans_accounted (s : State) : Accounted s (takeSpans s) := by
  unfold takeSpans
  refine .ite ((accounted_lg s _).trans (writeOld_accounted _ _)) ?_
  split
  · exact Accounted.refl s
  · exact (accounted_lg s _).trans (writeSpan_accounted _ _)

theorem backlogStep_accounted (s : State) : Accounted s (backlogStep s) := by
  have swapped (t : State) : Accounted t (swapBack t) := accounted_mapQty t _ _
  exact .ite (Accounted.refl s)
    (((swapped s).trans (takeSpans_accounted _)).trans ((swapped _).trans (joinBack_accounted _)))

theorem drainBacklog_accounted (s : State) : Accounted s (drainBacklog s) :=
  Accounted.foldl _ (fun t _ => backlogStep_accounted t) _ s

theorem closeInterval_accounted (start : Nat) (s : State) : Accounted s (closeInterval start s) :=
  (drainBacklog_accounted s).trans (closeOpen_accounted _ _)

theorem pushBacklog_accounted (d : Option Nat) (spans : List KeepSpan) (s : State) :
    Accounted s (pushBacklog d spans s) := .ite (Accounted.refl s) (accounted_mapQty s _ _)

/-! ## The quantity pass -/

theorem pricedIn_accounted (stops : Bool) (s : State) (b : ClosedBlock) : Accounted s (pricedIn stops s b) :=
  (Accounted.ite (.ite (pushBacklog_accounted _ _ s) (closeInterval_accounted _ s)) (Accounted.refl s)).trans
    (Accounted.foldl _ (fun t r => priceRun_accounted b r t) _ _)

theorem priceClosed_accounted (stops : Bool) (s : State) : Accounted s (priceClosed stops s) :=
  ((accounted_lg s _).trans (Accounted.foldl _ (fun t b => pricedIn_accounted stops t b) _ _)).trans
    (refreshOutputs_accounted _)

theorem flushURuns_accounted (s : State) : Accounted s (flushURuns s) :=
  (accounted_lg s _).trans (Accounted.foldl _ (fun t _ => moduleNote_accounted t _ _) _ _)

theorem quantityPass_accounted (s : State) : Accounted s (quantityPass s) :=
  (priceClosed_accounted false s).trans (flushURuns_accounted _)

end Sys2Proof.Machine
end

section
/-! PROOFS. Tally counters and the latch of a block (R58, R59, R61, R65, R143). -/

namespace Sys2Proof.Machine

/-! ## Crossings -/

/-- The comparator of a run is ready at a crossing: it was, or the signal has fallen by the hysteresis (R59). -/
def tallyReady (s : State) (r : Run) (low : Nat) : Bool :=
  s.runs[r].tallyArmed || decide (100 * low ≤ rearmLevel s r)

/-- A crossing is not within 50 µs of the last one that was counted (R59). -/
def RunSt.crossFree (t : RunSt) (us : Nat) : Bool :=
  match t.crossed with
  | some c => c + 50 ≤ us
  | none => true

theorem tallyReady_iff {s : State} {r : Run} {low : Nat} : tallyReady s r low = true ↔
    s.runs[r].tallyArmed = true ∨ 100 * low ≤ s.runs[r].threshold * (100 - pnat s (rp r 0x42)) := by
  rw [tallyReady, Bool.or_eq_true, decide_eq_true_eq, rearmLevel]

theorem RunSt.crossFree_iff {t : RunSt} {us : Nat} :
    t.crossFree us = true ↔ t.crossed = none ∨ ∃ c, t.crossed = some c ∧ c + 50 ≤ us := by
  unfold RunSt.crossFree
  cases t.crossed with
  | none => simp only [true_or]
  | some c => simp only [reduceCtorEq, false_or, Option.some.injEq, exists_eq_left', decide_eq_true_eq]

theorem tallyCrossing_powered {s : State} (r : Run) (low mv us : Nat) (hc : s.pw.ms ≠ .cold) :
    tallyCrossing r low mv us s = s.modRun r fun q =>
      if (tallyReady s r low && decide (s.runs[r].threshold < mv)) && s.runs[r].crossFree us
      then { q with tally := q.tally + 1, crossed := some us, tallyArmed := false }
      else { q with tallyArmed := tallyReady s r low && !(tallyReady s r low && decide (s.runs[r].threshold < mv)) } :=
  if_neg hc

theorem tallyCrossing_counted {s : State} {r : Run} {low mv us : Nat} (hc : s.pw.ms ≠ .cold)
    (ready : tallyReady s r low = true) (rises : s.runs[r].threshold < mv) (free : s.runs[r].crossFree us = true) :
    tallyCrossing r low mv us s =
      s.modRun r fun q => { q with tally := q.tally + 1, crossed := some us, tallyArmed := false } := by
  rw [tallyCrossing_powered r low mv us hc, ready, free, decide_eq_true rises]
  rfl

theorem tallyCrossing_uncounted {s : State} {r : Run} {low mv us : Nat} (hc : s.pw.ms ≠ .cold)
    (h : ¬(tallyReady s r low = true ∧ s.runs[r].threshold < mv ∧ s.runs[r].crossFree us = true)) :
    tallyCrossing r low mv us s = s.modRun r fun q =>
      { q with tallyArmed := tallyReady s r low && decide (mv ≤ s.runs[r].threshold) } := by
  have lost : ((tallyReady s r low && decide (s.runs[r].threshold < mv)) && s.runs[r].crossFree us) = false := by
    simpa [and_assoc] using h
  have armed : (tallyReady s r low && !(tallyReady s r low && decide (s.runs[r].threshold < mv)))
      = (tallyReady s r low && decide (mv ≤ s.runs[r].threshold)) := by
    cases tallyReady s r low
    · rfl
    · simp only [Bool.true_and, ← decide_not, Nat.not_lt]
  rw [tallyCrossing_powered r low mv us hc, lost, armed]
  rfl

/-! ## The latch -/

/-- The last latch lies in an earlier second, or there has been none. -/
def latchDue (s : State) : Bool :=
  match s.lg.latchAt with
  | some x => x < nowSec s
  | none => true

theorem latchDue_iff {s : State} : latchDue s = true ↔ ∀ x, s.lg.latchAt = some x → x < nowSec s := by
  unfold latchDue
  cases s.lg.latchAt
  all_goals simp

/-- The block that ends with a latch (R61). -/
def endedBlock (s : State) : ClosedBlock :=
  { start := s.lg.latchAt.getD (nowSec s)
    whole := s.pw.blockWhole && measuring s
    unset := !s.ck.valid || s.ck.partUnset
    runs := Vector.ofFn fun (r : Fin 4) =>
      { s.runs[r].qty.cur with n := (s.runs[r].tally - s.runs[r].latched).toNat } }

/-- A run whose counter has been latched, with a new block begun. -/
def RunSt.latch (t : RunSt) : RunSt :=
  { t with
    latched := t.tally, rate := some (t.tally - t.latched).toNat
    qty := { t.qty with
      cur := { RunBlock.zero with loss := decide (t.eng.pilot.status = .loss), disturbed := t.fe.restarting } } }

/-- The module with all counters latched, ahead of its current outputs. -/
def latchedState (s : State) : State :=
  { s with
    runs := s.runs.map RunSt.latch
    pw := { s.pw with blockWhole := measuring s, cad := cadence s }
    ck := { s.ck with partUnset := !s.ck.valid }
    lg := { s.lg with latchAt := some (nowSec s)
                      closed := if fastOn s && s.lg.latchAt.isSome then s.lg.closed ++ [endedBlock s] else s.lg.closed } }

theorem blockBoundary_due {s : State} (hc : s.pw.ms ≠ .cold) (due : latchDue s = true) :
    blockBoundary s = refreshOutputs (latchedState s) := by
  have mapped : (s.runs.map fun t => { t with
        latched := t.tally, rate := some (t.tally - t.latched).toNat, qty := { t.qty with cur := .zero } }).map
      (fun t => { t with qty := { t.qty with
        cur := { t.qty.cur with loss := decide (t.eng.pilot.status = .loss), disturbed := t.fe.restarting } } })
      = s.runs.map RunSt.latch := by
    rw [Vector.map_map]
    rfl
  refine (if_pos ⟨hc, due⟩ : blockBoundary s = _).trans ?_
  rw [mapped]
  rfl

theorem blockBoundary_early {s : State} (h : s.pw.ms = .cold ∨ latchDue s = false) : blockBoundary s = s := by
  refine if_neg fun c => ?_
  obtain ⟨hc, due⟩ := c
  rcases h with h | h
  · exact hc h
  · exact absurd (due.symm.trans h) (by decide)

theorem blockBoundary_body {s : State} (hc : s.pw.ms ≠ .cold) (due : latchDue s = true) :
    blockBoundary s = { latchedState s with io := { s.io with co := (blockBoundary s).io.co } } := by
  rw [blockBoundary_due hc due]
  exact refreshOutputs_currentsOnly (latchedState s)

theorem latchedState_run (s : State) (r : Run) : (latchedState s).runs[r] = s.runs[r].latch :=
  Vector.getElem_map ..

theorem latchedState_waiting (s : State) : (latchedState s).lg.closed.length
    = s.lg.closed.length + if fastOn s = true ∧ s.lg.latchAt ≠ none then 1 else 0 := by
  unfold latchedState
  dsimp only
  cases fastOn s
  · simp
  · cases s.lg.latchAt
    · simp
    · simp

/-- A block joins those that wait where the fast domain is on and an earlier latch began it (R61). -/
theorem latchedState_closed {s : State} {x : Nat} (on : fastOn s = true) (h : s.lg.latchAt = some x) :
    (latchedState s).lg.closed = s.lg.closed ++ [endedBlock s] := by
  simp [latchedState, on, h]

theorem latchedState_closed_none {s : State} (h : fastOn s = false ∨ s.lg.latchAt = none) :
    (latchedState s).lg.closed = s.lg.closed := by
  unfold latchedState
  rcases h with h | h
  · simp [h]
  · simp [h]

/-- Settles O29: a crossing splits on the comparator alone; a latch is one step for all counters, and a quantity pass behind it
changes of a run only the quantities. -/
theorem tallyIsCountedAndLatched : Obligations.TallyIsCountedAndLatched := by
  unfold Obligations.TallyIsCountedAndLatched
  refine fun s => ⟨fun r low mv us hc => ?_, fun r low mv us hc => congrArg Host.Outcome.next (if_pos hc), fun hc due => ?_,
    fun early few => ?_⟩
  · intro ready free
    refine ⟨fun isReady rises isFree => ?_, fun lost => ⟨_, ?_, congrArg Host.Outcome.next (tallyCrossing_uncounted hc ?_)⟩⟩
    · exact congrArg Host.Outcome.next
        (tallyCrossing_counted hc (tallyReady_iff.mpr isReady) rises (RunSt.crossFree_iff.mpr isFree))
    · rw [Bool.and_eq_true, tallyReady_iff, decide_eq_true_eq]
    · rwa [tallyReady_iff, RunSt.crossFree_iff]
  · have due := latchDue_iff.mpr due
    have body := blockBoundary_body hc due
    have free : fastFree (blockBoundary s) = fastFree s := by rw [body]; rfl
    have closed : (blockBoundary s).lg.closed = (latchedState s).lg.closed := by rw [body]
    have runs : ∀ r : Run, (blockBoundary s).runs[r] = s.runs[r].latch := by
      intro r
      rw [body]
      exact latchedState_run s r
    intro waiting
    have length : (blockBoundary s).lg.closed.length = waiting := by rw [closed, latchedState_waiting]
    have talked := flushNotes_talked (blockTick s)
    refine ⟨_, rfl, fun r => ?_, fun few => ?_, fun many free' => ?_⟩
    · rw [talked.runs]
      have kept : Accounted (blockBoundary s) (blockTick s) := .ite (quantityPass_accounted _) (Accounted.refl _)
      rw [kept.runs r, runs r]
      exact ⟨rfl, rfl⟩
    · have tick : blockTick s = blockBoundary s := if_neg fun c => by
        rw [length, free] at c
        rcases few with h | h
        · omega
        · exact absurd (c.2.symm.trans h) (by decide)
      rw [tick] at talked ⊢
      rw [show (flushNotes (blockBoundary s)).lg = (blockBoundary s).lg from by rw [talked.1], closed]
      refine ⟨fun on x hx => ⟨endedBlock s, latchedState_closed on hx, ?_, rfl, rfl, fun r => ?_⟩, latchedState_closed_none, ?_⟩
      · rw [endedBlock, hx]
        rfl
      · simp [endedBlock]
      · rw [talked.1, body]
        rfl
    · have tick : blockTick s = quantityPass (blockBoundary s) := if_pos ⟨by omega, free.trans free'⟩
      rw [tick] at talked ⊢
      rw [show (flushNotes (quantityPass (blockBoundary s))).lg = (quantityPass (blockBoundary s)).lg from by rw [talked.1]]
      refine ⟨quantityPass_closed _, ?_, ?_⟩
      · rw [(quantityPass_accounted _).latchAt, body]
        rfl
      · exact (((blockBoundary_works s).trans (quantityPass_works _)).trans talked.works).1
  · have stands : blockBoundary s = s := by
      refine blockBoundary_early (early.imp_right fun ⟨x, hx, le⟩ => ?_)
      rw [← Bool.not_eq_true, latchDue_iff]
      exact fun h => absurd (h x hx) (Nat.not_lt.mpr le)
    have tick : blockTick s = s := by
      unfold blockTick
      rw [stands]
      exact if_neg fun c => by omega
    exact gives_of_done (congrArg done tick)

end Sys2Proof.Machine
end

section
/-! PROOFS. The clock (R72 ... R77): a clock that is put at a time beside the boundary's measuring and records, and a
millisecond without a command (log 2). -/

namespace Sys2Proof.Machine

/-! ## The trim and the end of a slew -/

theorem clockTrim_powered {s : State} (d : Int) (h : s.pw.ms ≠ .cold) : clockTrim d s = { s with ck := { s.ck with
    temp := some d, correction := roundDiv (34 * (d - 250) * (d - 250)) 100 + Config.crystalOffset } } := if_neg h

/-! ## A clock put at a time -/

/-- The clock at time `x` with `d` to slew: no step is due, and the sets that wait for a whole second wait for that of the
new time (R74, R75). -/
def State.clockAt (s : State) (x : Nat) (d : Int) : State :=
  { s with ck := { s.ck with t := x, slew := d, due := none }, cm := { s.cm with due := moveDue x s } }

/-- A change of the clock stands beside `Worked`, which leaves open only its marks of the block and of the stored time. -/
theorem Worked.withClock {s t : State} (h : Worked s t) {f g : Clock → Clock} (hfg : ∀ (c : Clock) (p : Bool) (n : Nat),
    g { c with partUnset := p, stored := n } = { f c with
      partUnset := (g { c with partUnset := p, stored := n }).partUnset
      stored := (g { c with partUnset := p, stored := n }).stored } := by exact fun _ _ _ => rfl) :
    Worked { s with ck := f s.ck } { t with ck := g t.ck } := by
  obtain ⟨h1, hh, hv⟩ := h
  have ck : g t.ck = { f s.ck with partUnset := (g t.ck).partUnset, stored := (g t.ck).stored } := by
    rw [show t.ck = { s.ck with partUnset := t.ck.partUnset, stored := t.ck.stored } from by rw [h1]]
    exact hfg _ _ _
  refine ⟨?_, hh, hv⟩
  dsimp only
  rw [ck, h1]

theorem Worked.withCm {s t : State} (h : Worked s t) (c : Commits) : Worked { s with cm := c } { t with cm := c } := by
  obtain ⟨h1, hh, hv⟩ := h
  refine ⟨?_, hh, hv⟩
  rw [h1]

theorem Worked.moveDue {s t : State} (h : Worked s t) (x : Nat) : moveDue x t = Machine.moveDue x s := by
  rw [h.1]
  rfl

theorem Worked.clockAt {s t : State} (h : Worked s t) (x : Nat) (d : Int) : Worked (s.clockAt x d) (t.clockAt x d) := by
  have cm : t.cm = s.cm := by rw [h.1]
  unfold State.clockAt
  rw [h.moveDue, cm]
  exact (h.withClock (f := fun c => { c with t := x, slew := d, due := none })
    (g := fun c => { c with t := x, slew := d, due := none })).withCm _

theorem putClock_worked (x : Nat) (s : State) : Worked (s.clockAt x 0) (putClock x s) := (works_lg (s.clockAt x 0) _).1

/-! ## A step at its second -/

theorem clockStep_none {s : State} (h : s.ck.due = none) : clockStep s = s := by
  simp only [clockStep, h]

/-- The block or the interval that a step ends (R75, R76). -/
def stepEnded (s : State) : State :=
  if s.pw.ms = .keep then blockBoundary s
  else if nowSec s % intSeconds s = 0 then keepSets (storeTime (intervalRecords s))
  else priceClosed false (blockBoundary s)

/-- What opens at the second `now` of a clock that was stepped there from the second `old`, and the notes that follow. -/
def stepOpened (old now : Nat) (s : State) : State :=
  flushURuns (if s.pw.ms = .keep then stepKeeps old now s
    else if s.ck.valid ∧ s.lg.intStart < old ∧ intervalHeld s then closeInterval now s
    else { s with lg := { s.lg with intStart := if s.ck.valid then now else s.lg.intStart } })

/-- A step of the clock from `old` ms that has been taken but for its remainder. -/
def stepBooked (who : Nat × Nat) (old : Nat) (rem : Int) (s : State) : State :=
  auditClock who.1 who.2 old (nowMs s) { s with ck := { s.ck with slew := rem } }

theorem stepEnded_works (s : State) : Works s (stepEnded s) :=
  .ite (blockBoundary_works s) (.ite
    (((intervalRecords_works s).trans (storeTime_works _)).trans (keepSets_works _))
    ((blockBoundary_works s).trans (priceClosed_works _ _)))

theorem stepOpened_works (old now : Nat) (s : State) : Works s (stepOpened old now s) :=
  (Works.ite (works_lg s _) (.ite (closeInterval_works _ s) (works_lg s _))).trans (flushURuns_works _)

theorem stepBooked_worked {s u : State} {x : Nat} (who : Nat × Nat) (old : Nat) (rem : Int) (h : Worked (s.clockAt x 0) u) :
    Worked (s.clockAt x rem) (stepBooked who old rem u) :=
  (h.withClock (f := fun c => { c with slew := rem }) (g := fun c => { c with slew := rem })).trans
    (audit_works _ _ _ _ _ _ _ _).1

section Step

variable {s : State} {sec n : Nat} {rem : Int} (h : s.ck.due = some (sec, n, rem))

include h

theorem clockStep_early (early : nowSec s < sec ∨ s.pw.nrst = true) : clockStep s = s := by
  simp only [clockStep, h]
  exact if_pos early

theorem clockStep_due (due : sec ≤ nowSec s) (free : s.pw.nrst = false) :
    clockStep s = stepBooked s.ck.dueBy (nowMs s) rem
      (stepOpened (nowSec (stepEnded s)) (((stepEnded s).ck.t + n * secUnits) / secUnits)
        (putClock ((stepEnded s).ck.t + n * secUnits) (stepEnded s))) := by
  have now : ¬(nowSec s < sec ∨ s.pw.nrst = true) := by simp [free, due]
  unfold clockStep
  rw [h]
  exact if_neg now

/-- A step puts the clock at its new time between two pieces of what the boundary measures and records. -/
theorem clockStep_worked (due : sec ≤ nowSec s) (free : s.pw.nrst = false) :
    Worked (s.clockAt (s.ck.t + n * secUnits) rem) (clockStep s) := by
  have ended := (stepEnded_works s).1
  have time : (stepEnded s).ck.t = s.ck.t := by rw [ended.1]
  rw [clockStep_due h due free, time]
  refine stepBooked_worked _ _ _ ?_
  exact ((ended.clockAt _ 0).trans (putClock_worked _ _)).trans (stepOpened_works _ _ _).1

end Step

/-- Settles O28: the trim is one formula, and a step at its second puts the clock at its new time between two pieces of what
the boundary measures and records. -/
theorem clockIsTrimmedSteppedAndSlewed : Obligations.ClockIsTrimmedSteppedAndSlewed := by
  unfold Obligations.ClockIsTrimmedSteppedAndSlewed
  refine fun s => ⟨fun d hc => congrArg Host.Outcome.next (clockTrim_powered d hc),
    fun d hc => congrArg Host.Outcome.next (if_pos hc), fun none => gives_of_done (congrArg done (clockStep_none none)),
    fun sec n rem due => ⟨fun early => gives_of_done (congrArg done (clockStep_early due early)), fun now free => ?_⟩,
    fun small => congrArg Host.Outcome.next (if_pos small),
    fun large => congrArg Host.Outcome.next (if_neg (Nat.not_le.mpr large))⟩
  exact ⟨_, rfl, (clockStep_worked due now free).trans (flushNotes_talked _).works.1⟩

end Sys2Proof.Machine
end

section
/-! PROOFS. TIME SET (R72, R74 ... R77): the outcomes of its body, and that none of them sends on a line. -/

namespace Sys2Proof.Machine

/-! ## Outcomes that measure and settle -/

/-- Nothing has been sent on a command line. -/
def Unsent (s t : State) : Prop := ∀ l : Line, (t.line l).sent = (s.line l).sent

theorem Unsent.trans {s t u : State} (a : Unsent s t) (b : Unsent t u) : Unsent s u := fun l => (b l).trans (a l)

theorem unsent_of_lines {s t : State} (hh : t.host = s.host) (hv : t.service = s.service) : Unsent s t
  | .host => congrArg LineSt.sent hh
  | .service => congrArg LineSt.sent hv

theorem Unsent.ite {s a b : State} {c : Prop} [Decidable c] (ha : Unsent s a) (hb : Unsent s b) :
    Unsent s (if c then a else b) :=
  iteInduction (fun _ => ha) fun _ => hb

/-- A line command whose body also measures, settles or speaks with the partner. -/
theorem worked_of_body {rq : Req} {i : Instr} {verb : String} {body : Body} {s t u : State} {lines : List String}
    (hi : exec i s = done (runLine rq verb body s)) (hs : linesUp s = true) (hb : body s = .ok (t, lines))
    (hl : Unsent s t) (hu : Worked u t) : AnswersWorked rq i s lines u := by
  obtain ⟨w, hw, ht, m, hm⟩ := runLine_ok (rq := rq) (verb := verb) hs hb
  exact ⟨w, hi.trans hw, ⟨m, by rw [hm, hl]⟩, hu.trans ht.works.1⟩

theorem blockBoundary_unsent (s : State) : Unsent s (blockBoundary s) := by
  unfold blockBoundary
  exact .ite (Unsent.trans (unsent_of_lines rfl rfl) (refreshOutputs_accounted _).sent) fun _ => rfl

/-! ## A clock that becomes set -/

/-- The clock is valid; the X gap at the end of the backlog ends `gone` seconds before it was set, at the second `now`
(R77). -/
def gapClosed (now gone : Nat) (s : State) : State :=
  { s with
    ck := { s.ck with valid := true, partUnset := true }
    lg := { s.lg with
      backlog := closeGap (now - gone) s.lg.backlog
      day := some (s.lg.day.getD (now - now % 86400)) } }

/-- The first interval of a clock that was set at the second `now`. -/
def intervalBegun (now : Nat) (s : State) : State :=
  if intervalHeld s then closeInterval now s else { s with lg := { s.lg with intStart := now } }

/-- The unset time that its notes have told of is over (R77). -/
def unsetOver (s : State) : State :=
  { s with runs := s.runs.map fun x => x.modQty fun q => { q with unset := (0, 0) } }

/-- A keep-period block begins at the set time (R76). -/
def keepsBegun (now : Nat) (s : State) : State :=
  if s.pw.ms = .keep then { s with lg := { s.lg with keeps := [⟨now, s.runs.map (·.latched), false⟩] } } else s

theorem gapClosed_worked (now gone : Nat) (s : State) :
    Worked { s with ck := { s.ck with valid := true } } (gapClosed now gone s) := ⟨rfl, rfl, rfl⟩

theorem gapClosed_unsent (now gone : Nat) (s : State) : Unsent s (gapClosed now gone s) := unsent_of_lines rfl rfl

theorem intervalBegun_works (now : Nat) (s : State) : Works s (intervalBegun now s) :=
  .ite (closeInterval_works _ _) (works_lg _ _)

theorem intervalBegun_unsent (now : Nat) (s : State) : Unsent s (intervalBegun now s) :=
  .ite (closeInterval_accounted _ _).sent (unsent_of_lines rfl rfl)

theorem putClock_unsent (t : Nat) (s : State) : Unsent s (putClock t s) := unsent_of_lines rfl rfl

theorem unsetOver_works (s : State) : Works s (unsetOver s) := works_runs _ _

theorem unsetOver_unsent (s : State) : Unsent s (unsetOver s) := unsent_of_lines rfl rfl

theorem keepsBegun_works (now : Nat) (s : State) : Works s (keepsBegun now s) := .ite (works_lg _ _) (Works.refl _)

theorem keepsBegun_unsent (now : Nat) (s : State) : Unsent s (keepsBegun now s) :=
  .ite (unsent_of_lines rfl rfl) fun _ => rfl

theorem writeFromCold_worked (s : State) : Worked { s with ck := { s.ck with fromCold := [] } } (writeFromCold s) :=
  (Works.foldl _ (fun t _ => audit_works _ _ _ _ _ _ _ t) _ _).1

theorem writeFromCold_unsent (s : State) : Unsent s (writeFromCold s) :=
  Unsent.trans (unsent_of_lines rfl rfl) (Accounted.foldl _ (fun t _ => audit_accounted _ _ _ _ _ _ _ t) _ _).sent

/-- The clock set at time `x` (R77). -/
def State.clockSet (s : State) (x : Nat) : State :=
  { s.clockAt x 0 with ck := { (s.clockAt x 0).ck with valid := true, fromCold := [] } }

theorem becomeSet_sets (t : Nat) (s : State) : Worked (s.clockSet t) (becomeSet t s) ∧ Unsent s (becomeSet t s) := by
  unfold becomeSet
  extract_lets now dur s1 ck lg s2 lg2 s3 s4 s5 s6 lg6
  have put : Worked (s.clockAt t 0) s1 ∧ Unsent s s1 :=
    ⟨((priceClosed_works false s).1.clockAt t 0).trans (putClock_worked t _),
      Unsent.trans (priceClosed_accounted false s).sent (putClock_unsent t _)⟩
  have priced : Worked { s.clockAt t 0 with ck := { (s.clockAt t 0).ck with valid := true } } s2 ∧ Unsent s s2 :=
    ⟨((put.1.withClock (f := fun c => { c with valid := true }) (g := fun c => { c with valid := true })).trans
        (gapClosed_worked now dur s1)).trans (drainBacklog_works _).1,
      (put.2.trans (gapClosed_unsent now dur s1)).trans (drainBacklog_accounted _).sent⟩
  clear_value s2
  have begun : Works s2 s3 ∧ Unsent s2 s3 := ⟨intervalBegun_works now s2, intervalBegun_unsent now s2⟩
  clear_value s3
  have noted : Accounted s3 s4 := (flushURuns_accounted s3).trans (moduleNote_accounted _ _ _)
  have told : Works s3 s5 ∧ Unsent s3 s5 :=
    ⟨((flushURuns_works s3).trans (moduleNote_works _ _ _)).trans
        (Works.foldl _ (fun t r => quantityNote_works _ r _ _ t) _ _),
      (noted.trans (Accounted.foldl _ (fun t _ => moduleNote_accounted t _ _) _ _)).sent⟩
  clear_value s5
  have resumed := (priced.1.trans begun.1.1).trans (told.1.1.trans (unsetOver_works s5).1)
  have entered : Worked (s.clockSet t) s6 ∧ Unsent s s6 :=
    ⟨(resumed.withClock (f := fun c => { c with fromCold := [] }) (g := fun c => { c with fromCold := [] })).trans
        (writeFromCold_worked _),
      ((priced.2.trans begun.2).trans (told.2.trans (unsetOver_unsent s5))).trans (writeFromCold_unsent _)⟩
  clear_value s6
  exact ⟨entered.1.trans (keepsBegun_works now s6).1, entered.2.trans (keepsBegun_unsent now s6)⟩

/-! ## A backward step without a record -/

/-- The first interval after a backward step to the second `now` (R75, R76). -/
def stepBegun (now : Nat) (s : State) : State :=
  { s with
    runs := s.runs.map fun x => x.modQty fun q => { q with sums := .zero }
    lg := { s.lg with intStart := now
                      keeps := if s.pw.ms = .keep then [⟨now, s.runs.map (·.latched), false⟩] else s.lg.keeps
                      day := if s.lg.chains[1].written = 0 then some (now - now % 86400) else s.lg.day } }

theorem stepBegun_works (now : Nat) (s : State) : Works s (stepBegun now s) := works_runsLg _ _ _

theorem stepBegun_unsent (now : Nat) (s : State) : Unsent s (stepBegun now s) := unsent_of_lines rfl rfl

theorem foldKeeps_works (s : State) : Works s (foldKeeps s) := works_runsLg _ _ _

theorem foldKeeps_unsent (s : State) : Unsent s (foldKeeps s) := unsent_of_lines rfl rfl

/-- The block of the totals that a backward step ends. -/
def backEnded (s : State) : State := if s.pw.ms = .keep then blockBoundary s else quantityPass (blockBoundary s)

theorem backEnded_works (s : State) : Works s (backEnded s) :=
  .ite (blockBoundary_works s) ((blockBoundary_works s).trans (quantityPass_works _))

theorem backEnded_unsent (s : State) : Unsent s (backEnded s) :=
  .ite (blockBoundary_unsent s) ((blockBoundary_unsent s).trans (quantityPass_accounted _).sent)

theorem stepBack_steps (line role t : Nat) (s : State) :
    Worked (s.clockAt t 0) (stepBack line role t s) ∧ Unsent s (stepBack line role t s) := by
  unfold stepBack
  extract_lets now s1 s2 s3
  have folded : Works s s1 ∧ Unsent s s1 :=
    ⟨(backEnded_works s).trans (foldKeeps_works _), (backEnded_unsent s).trans (foldKeeps_unsent _)⟩
  clear_value s1
  have told : Works s s2 ∧ Unsent s s2 :=
    ⟨folded.1.trans (Works.foldl _ (fun t r => quantityNote_works _ r _ _ t) _ _),
      folded.2.trans (Accounted.foldl _ (fun t _ => moduleNote_accounted t _ _) _ _).sent⟩
  clear_value s2
  have put : Worked (s.clockAt t 0) s3 ∧ Unsent s s3 :=
    ⟨(told.1.1.clockAt t 0).trans (putClock_worked t _), told.2.trans (putClock_unsent t _)⟩
  clear_value s3
  exact ⟨(put.1.trans (stepBegun_works now s3).1).trans (audit_works _ _ _ _ _ _ _ _).1,
    (put.2.trans (stepBegun_unsent now s3)).trans (audit_accounted _ _ _ _ _ _ _ _).sent⟩

/-! ## TIME SET -/

/-- No step is due any more. -/
def State.undue (s : State) : State := { s with ck := { s.ck with due := none } }

theorem undue_unsent (s : State) : Unsent s s.undue := unsent_of_lines rfl rfl

theorem clockAt_undue (s : State) (x : Nat) : s.undue.clockAt x 0 = s.clockAt x 0 := rfl

theorem clockSet_undue (s : State) (x : Nat) : s.undue.clockSet x = s.clockSet x := rfl

theorem stepBack_undue (line role t : Nat) (s : State) :
    Worked (s.clockAt t 0) (stepBack line role t s.undue) ∧ Unsent s (stepBack line role t s.undue) :=
  ⟨clockAt_undue s t ▸ (stepBack_steps line role t s.undue).1, (undue_unsent s).trans (stepBack_steps line role t s.undue).2⟩

theorem becomeSet_undue (line role old new t : Nat) (s : State) :
    Worked (s.clockSet t) (auditClock line role old new (becomeSet t s.undue)) ∧
      Unsent s (auditClock line role old new (becomeSet t s.undue)) := by
  obtain ⟨set, unsent⟩ := becomeSet_sets t s.undue
  exact ⟨(clockSet_undue s t ▸ set).trans (audit_works _ _ _ _ _ _ _ _).1,
    ((undue_unsent s).trans unsent).trans (audit_accounted _ _ _ _ _ _ _ _).sent⟩

section TimeSet

variable {rq : Req} {s : State} {x : String} {ms : Int}

/-- The reply to TIME SET: the applied time, and whether it is stepped or slewed to (R75). -/
def timeReply (w : Nat) (how : String) : List String := [spaced ["ok time", msText w, how]]

theorem bodyTimeSet_ok {t : State} {a : Nat} {how : String} (hs : linesUp s = true)
    (end_ : ¬(s.pair.st = .opened ∧ s.pair.up = some false)) (role : 2 ≤ roleCode (s.line rq.line).role)
    (hx : timeField x = .ok ms)
    (set : setTime (lineCode rq.line) (roleCode (s.line rq.line).role) (clampTime ms) s = (t, a, how)) :
    bodyTimeSet rq [x] s = .ok (t, timeReply a how) := by
  have upstream : (!(decide (s.pair.st = .opened) && decide (s.pair.up = some false))) = true := by
    simp only [Bool.not_eq_true', Bool.and_eq_false_iff, decide_eq_false_iff_not]
    exact not_and_or.mp end_
  have metrology : needRole s rq.line .metrology = .ok () := congrArg (need · .noRole) (decide_eq_true role)
  simp only [bodyTimeSet, hx, ok_bind, served_always hs (verb := "time") rfl, upstream, need_true, metrology, set]
  rfl

end TimeSet

section SetTime

variable {s : State} (line role t : Nat)

theorem setTime_unset (h : s.ck.valid = false) : setTime line role t s =
    (auditClock line role (nowMs s) t (becomeSet (t * msUnits) s.undue), t, "step") := if_pos h

variable (h : s.ck.valid = true)

include h

theorem setTime_near (near : (((t * msUnits : Nat) : Int) - s.ck.t).natAbs ≤ secUnits) : setTime line role t s =
    (startSlew line role (((t * msUnits : Nat) : Int) - s.ck.t) { s with ck := { s.ck with due := none } }, t, "slew") := by
  unfold setTime
  rw [h]
  exact if_pos near

theorem setTime_forward (far : (secUnits : Int) < ((t * msUnits : Nat) : Int) - s.ck.t) : setTime line role t s =
    ({ s with ck := { s.ck with
      due := some (nowSec s + 1, (roundDiv (((t * msUnits : Nat) : Int) - s.ck.t) secUnits).toNat,
        ((t * msUnits : Nat) : Int) - s.ck.t
          - ((roundDiv (((t * msUnits : Nat) : Int) - s.ck.t) secUnits).toNat * secUnits : Nat))
      dueBy := (line, role) } }, t, "step") := by
  have beyond : ¬(((t * msUnits : Nat) : Int) - s.ck.t).natAbs ≤ secUnits := by omega
  have ahead : 0 < ((t * msUnits : Nat) : Int) - s.ck.t := by omega
  unfold setTime
  rw [h]
  exact (if_neg beyond).trans (if_pos ahead)

section Back

variable (far : ((t * msUnits : Nat) : Int) - s.ck.t < -(secUnits : Int))

include far

theorem setTime_back (first : recordCount s 0 = 0) : setTime line role t s =
    (stepBack line role (t * msUnits) s.undue, t, "step") := by
  have beyond : ¬(((t * msUnits : Nat) : Int) - s.ck.t).natAbs ≤ secUnits := by omega
  have behind : ¬0 < ((t * msUnits : Nat) : Int) - s.ck.t := by omega
  unfold setTime
  rw [h]
  exact (if_neg beyond).trans ((if_neg behind).trans (if_pos first))

theorem setTime_recorded (held : recordCount s 0 ≠ 0) : setTime line role t s =
    (auditClock line role t (nowMs s - 1000)
      { s with ck := { s.ck with slew := -(secUnits : Int), due := none } }, nowMs s - 1000, "slew") := by
  have beyond : ¬(((t * msUnits : Nat) : Int) - s.ck.t).natAbs ≤ secUnits := by omega
  have behind : ¬0 < ((t * msUnits : Nat) : Int) - s.ck.t := by omega
  unfold setTime
  rw [h]
  exact (if_neg beyond).trans ((if_neg behind).trans (if_neg held))

end Back

end SetTime

/-- Settles O27: the body has one outcome for each case of the clock, of the distance and of the ledger. -/
theorem timeSetSlewsOrSteps : Obligations.TimeSetSlewsOrSteps := by
  unfold Obligations.TimeSetSlewsOrSteps
  intro rq s x ms hs end_ role hx w d whole
  have body {t a how} := bodyTimeSet_ok (t := t) (a := a) (how := how) hs end_ role hx
  refine ⟨fun valid => ⟨fun near => ?_, fun far => ?_, fun far held => ?_, fun far first => ?_⟩, fun unset => ?_⟩
  · exact booked_of_body rfl hs (body (setTime_near _ _ _ valid near)) (congrArg LineSt.sent (audit_line ..))
      (audit_booked ..)
  · exact answers_of_body rfl hs (body (setTime_forward _ _ _ valid far)) (by cases rq.line <;> rfl)
  · exact booked_of_body rfl hs (body (setTime_recorded _ _ _ valid far held)) (congrArg LineSt.sent (audit_line ..))
      (audit_booked ..)
  · obtain ⟨stepped, unsent⟩ := stepBack_undue (lineCode rq.line) (roleCode (s.line rq.line).role) (w * msUnits) s
    exact worked_of_body rfl hs (body (setTime_back _ _ _ valid far first)) unsent stepped
  · obtain ⟨set, unsent⟩ :=
      becomeSet_undue (lineCode rq.line) (roleCode (s.line rq.line).role) (nowMs s) w (w * msUnits) s
    exact worked_of_body rfl hs (body (setTime_unset _ _ _ unset)) unsent set

end Sys2Proof.Machine
end

section
/-! PROOFS. A millisecond without a command (log 2): the clock goes on, closed blocks are priced, and nothing else but the
completion ring and the lines moves. -/

namespace Sys2Proof.Machine

/-! ## The completion ring is freed and the lines talk -/

/-- `t` is `s` but for the lines, the gather engine and the SRAM. -/
def Freed (s t : State) : Prop :=
  t = { s with host := t.host, service := t.service, ga := t.ga, mem := { s.mem with sram := t.mem.sram } }

theorem Freed.refl (s : State) : Freed s s := rfl

theorem Freed.trans {s t u : State} (a : Freed s t) (b : Freed t u) : Freed s u := by
  unfold Freed at *
  rw [b, a]

theorem Freed.foldl {α : Type} (g : State → α → State) (hg : ∀ s a, Freed s (g s a))
    (xs : List α) (s : State) : Freed s (xs.foldl g s) :=
  List.foldlRecOn xs g (Freed.refl s) fun _ h x _ => h.trans (hg _ x)

theorem Talked.freed {s t : State} (h : Talked s t) : Freed s t := by
  obtain ⟨h, -, -⟩ := h
  unfold Freed
  rw [h]

theorem pushRing_freed (s : State) (ws : List Word) : Freed s (pushRing s ws) := by
  unfold pushRing
  rfl

theorem ringEmptied_freed (s : State) : Freed s { s with ga := { s.ga with ringUsed := 0 } } := rfl

theorem modChan_freed (s : State) (g : Channel) (f : Chan → Chan) : Freed s (s.modChan g f) := rfl

theorem freeRing_freed (s : State) : Freed s (freeRing s) := by
  unfold freeRing
  split
  · exact .refl s
  · refine Freed.trans (ringEmptied_freed s) (Freed.foldl _ (fun t g => ?_) _ _)
    split
    · exact (modChan_freed t g _).trans (pushRing_freed _ _)
    · exact .refl t

theorem watchNote_freed (l : Line) (w : Watch) (v : String) (s : State) : Freed s (watchNote l w v s) := by
  cases l <;> rfl

theorem changeWatches_freed (l : Line) (s : State) : Freed s (changeWatches l s) := by
  unfold changeWatches
  split
  · refine Freed.foldl _ (fun t w => ?_) _ _
    dsimp only
    split
    · split
      · exact .refl t
      · exact watchNote_freed l w _ t
    · exact .refl t
  · exact .refl s

/-! ## The pass and the turn of a millisecond -/

theorem wakePass_works (s : State) : Works s (wakePass s) := .ite (quantityPass_works s) (Works.refl s)

theorem wakePass_still {s : State} (h : awake s = false ∨ s.lg.closed = []) : wakePass s = s :=
  if_neg fun ⟨up, _, waits⟩ => h.elim (fun down => by simp [down] at up) waits

theorem wakePass_closed {s : State} (up : awake s = true) (free : fastFree s = true) : (wakePass s).lg.closed = [] := by
  unfold wakePass
  split
  · exact quantityPass_closed s
  · next rest => exact not_not.mp fun waits => rest ⟨up, free, waits⟩

theorem turnDue_works (s : State) : Works s (turnDue s) := .ite (flushPair_works s) (Works.refl s)

theorem turnDue_blocks (s : State) : SameBlocks s (turnDue s) := by
  unfold turnDue
  split
  · exact flushPair_blocks s
  · exact SameBlocks.refl s

theorem turnDue_still {s : State} (h : s.pair.turn = false) : turnDue s = s :=
  if_neg fun ⟨_, _, turn, _⟩ => by simp [h] at turn

/-! ## The clock -/

theorem clockAfter_cold {s : State} (h : s.pw.ms = .cold) : (clockAfter s).t = s.ck.t ∧ (clockAfter s).slew = s.ck.slew := by
  unfold clockAfter
  rw [if_pos h]
  exact ⟨rfl, rfl⟩

theorem clockAfter_mono (s : State) : (clockAfter s).mono = s.ck.mono + 1 := by
  unfold clockAfter
  dsimp only
  split <;> rfl

theorem clockAfter_powered {s : State} (h : s.pw.ms ≠ .cold) :
    let trim := if (s.ck.mono + 1) % 1000 = 0 then trimStep s else (s.ck.residue, 0)
    (clockAfter s).slew = s.ck.slew - clampInt (-500) 500 s.ck.slew ∧ (clockAfter s).residue = trim.1 ∧
      (clockAfter s).t = ((s.ck.t + msUnits : Nat) + trim.2 + clampInt (-500) 500 s.ck.slew).toNat := by
  unfold clockAfter
  rw [if_neg h]
  exact ⟨rfl, rfl, rfl⟩

/-! ## The millisecond -/

/-- The state with the clock one millisecond on. -/
def State.ticked (s : State) : State := { s with ck := clockAfter s }

theorem step_idle {s : State} (h : s.pending = []) : step s = .next (idleTick s) := by
  unfold step
  rw [h]

theorem idleTick_freed (s : State) : Freed (turnDue (wakePass s.ticked)) (idleTick s) :=
  (((freeRing_freed _).trans (changeWatches_freed _ _)).trans (changeWatches_freed _ _)).trans
    (flushNotes_talked _).freed

/-- What stands through measuring and settling, the ring's release and the talk. -/
theorem Freed.of_worked {s u t : State} (f : Freed u t) (w : Worked s u) :
    t.pending = s.pending ∧ t.ident = s.ident ∧ t.pw.ms = s.pw.ms ∧ t.cm = s.cm ∧ t.mx = s.mx ∧ t.en = s.en ∧
      t.ev = s.ev ∧ t.sf = s.sf ∧ t.mem.cellar = s.mem.cellar := by
  obtain ⟨w, -, -⟩ := w
  rw [f, w]
  exact ⟨rfl, rfl, rfl, rfl, rfl, rfl, rfl, rfl, rfl⟩

theorem Freed.ck_of_worked {s u t : State} (f : Freed u t) (w : Worked s u) :
    t.ck = { s.ck with partUnset := u.ck.partUnset, stored := u.ck.stored } := by
  obtain ⟨w, -, -⟩ := w
  rw [f, w]

theorem Freed.lg {s t : State} (f : Freed s t) : t.lg = s.lg := by rw [f]

/-- What stands where nothing is priced and no turn ends. -/
theorem Freed.stands {s t : State} (f : Freed s t) : t.pw = s.pw ∧ t.runs = s.runs ∧ t.qu = s.qu ∧ t.lg = s.lg ∧
    t.pair = s.pair ∧ t.se = s.se ∧ t.io = s.io ∧ t.sp = s.sp ∧ t.mem.a = s.mem.a ∧ t.mem.b = s.mem.b := by
  rw [f]
  exact ⟨rfl, rfl, rfl, rfl, rfl, rfl, rfl, rfl, rfl, rfl⟩

/-- Settles O2: the clock goes on, what is priced and sent is `Works`, and what follows it touches no more than the ring and
the lines. -/
theorem idleMillisecondPasses : Obligations.IdleMillisecondPasses := by
  unfold Obligations.IdleMillisecondPasses
  intro s idle
  have freed := idleTick_freed s
  have settled : Worked s.ticked (turnDue (wakePass s.ticked)) := ((wakePass_works _).trans (turnDue_works _)).1
  have ck := freed.ck_of_worked settled
  obtain ⟨pending, ident, ms, cm, mx, en, ev, sf, cellar⟩ := freed.of_worked settled
  refine ⟨idleTick s, step_idle idle, ?_, fun powered => ?_, fun cold => ?_, pending.trans idle, ident, ms, cm, mx, en, ev,
    sf, cellar, fun up free => ?_, fun still turn => ?_⟩
  · rw [ck]
    exact clockAfter_mono s
  · rw [ck]
    exact clockAfter_powered powered
  · rw [ck]
    exact clockAfter_cold cold
  · rw [freed.lg, turnDue_blocks]
    exact wakePass_closed up free
  · rw [wakePass_still (s := s.ticked) still, turnDue_still (s := s.ticked) turn] at freed
    exact freed.stands

end Sys2Proof.Machine
end

section
/-! PROOFS. The stream packets of the filter engine (R186 ... R189): they move in the queue and in the packets under assembly,
and speak on the lines where one is shed. -/

namespace Sys2Proof.Machine

/-! ## The queue and the talk -/

/-- `t` is `s` but for the queue and the lines' talk. -/
def Posted (s t : State) : Prop := Talked { s with qu := t.qu } t

theorem Posted.trans {s t u : State} (a : Posted s t) (b : Posted t u) : Posted s u := by
  obtain ⟨a1, a2, a3⟩ := a
  obtain ⟨b1, b2, b3⟩ := b
  refine ⟨?_, LineSt.talks_trans a2 b2, LineSt.talks_trans a3 b3⟩
  rw [b1, a1]

theorem Posted.ite {s a b : State} {c : Prop} [Decidable c] (ha : Posted s a) (hb : Posted s b) :
    Posted s (if c then a else b) :=
  iteInduction (fun _ => ha) fun _ => hb

theorem Queued.posted {s t : State} (h : Queued s t) : Posted s t := by
  unfold Posted
  rw [← show t = { s with qu := t.qu } from h]
  exact Talked.refl t

theorem Posted.en {s t : State} (h : Posted s t) : t.en = s.en := by rw [h.1]

/-- A packet leaves the engine as it was. -/
theorem streamPacket_posted (subject clock : Nat) (words : List Word) (s : State) :
    Posted s (streamPacket subject clock words s) :=
  ((takeSeq_queued s 0).posted.trans
    (.ite ((modQueue_queued _ _).posted.trans (shed_shedOnce _ 2).talked) (Queued.refl _).posted)).trans
    (ask_queued _ _).posted

/-! ## The packets under assembly -/

/-- `t` is `s` but for the queue, the packets under assembly and the lines' talk. -/
def Streamed (s t : State) : Prop := Talked { s with qu := t.qu, en := { s.en with bufs := t.en.bufs } } t

theorem Streamed.refl (s : State) : Streamed s s := Talked.refl s

theorem Streamed.trans {s t u : State} (a : Streamed s t) (b : Streamed t u) : Streamed s u := by
  obtain ⟨a1, a2, a3⟩ := a
  obtain ⟨b1, b2, b3⟩ := b
  refine ⟨?_, LineSt.talks_trans a2 b2, LineSt.talks_trans a3 b3⟩
  rw [b1, a1]

theorem Streamed.ite {s a b : State} {c : Prop} [Decidable c] (ha : Streamed s a) (hb : Streamed s b) :
    Streamed s (if c then a else b) :=
  iteInduction (fun _ => ha) fun _ => hb

theorem Streamed.foldl {α : Type} (g : State → α → State) (hg : ∀ s a, Streamed s (g s a))
    (xs : List α) (s : State) : Streamed s (xs.foldl g s) :=
  List.foldlRecOn xs g (Streamed.refl s) fun _ h x _ => h.trans (hg _ x)

theorem Posted.streamed {s t : State} (h : Posted s t) : Streamed s t := by
  obtain ⟨h1, h2, h3⟩ := h
  refine ⟨?_, h2, h3⟩
  rw [h1]

theorem modBuf_streamed (s : State) (k : Fin 17) (b : StreamBuf) : Streamed s (s.modBuf k b) := Talked.refl (s.modBuf k b)

/-- A packet is closed. -/
theorem packetClosed_streamed (k : Fin 17) (subject clock : Nat) (words : List Word) (s : State) :
    Streamed s (streamPacket subject clock words (s.modBuf k ⟨[], 0⟩)) :=
  (modBuf_streamed s k _).trans (streamPacket_posted _ _ _ _).streamed

theorem streamOut_streamed (k : Fin 17) (clock : Nat) (words : List Word) (s : State) :
    Streamed s (streamOut k clock words s) :=
  .ite (.ite (packetClosed_streamed k _ _ _ s) (modBuf_streamed s k _)) (.refl s)

theorem flushStreams_streamed (s : State) : Streamed s (flushStreams s) :=
  Streamed.foldl _ (fun t k => .ite (.refl t) (packetClosed_streamed k _ _ _ t)) _ s

/-- One packet of `flushStreams`. -/
def closeStream (s : State) (k : Fin 17) : State :=
  if s.en.bufs[k].words = [] then s
  else streamPacket (streamSubject k) s.en.bufs[k].clock s.en.bufs[k].words (s.modBuf k ⟨[], 0⟩)

theorem closeStream_en {s : State} {k : Fin 17} (h : s.en.bufs[k].words ≠ []) :
    (closeStream s k).en = (s.modBuf k ⟨[], 0⟩).en :=
  (congrArg State.en (if_neg h)).trans (streamPacket_posted _ _ _ _).en

theorem closeStream_bufs (s : State) (k j : Fin 17) :
    (closeStream s k).en.bufs[j].words = if k = j then [] else s.en.bufs[j].words := by
  by_cases empty : s.en.bufs[k].words = []
  · rw [show closeStream s k = s from if_pos empty]
    split
    · next same => rw [← same, empty]
    · rfl
  · rw [closeStream_en empty]
    split
    · next same => simp [State.modBuf, same]
    · next other => simp [State.modBuf, Fin.val_ne_of_ne other]

theorem closeStreams_bufs (j : Fin 17) : ∀ (ks : List (Fin 17)) (s : State),
    (j ∈ ks ∨ s.en.bufs[j].words = []) → (ks.foldl closeStream s).en.bufs[j].words = []
  | [], s, h => h.resolve_left List.not_mem_nil
  | k :: ks, s, h => by
    refine closeStreams_bufs j ks (closeStream s k) ?_
    rw [closeStream_bufs]
    by_cases same : k = j
    · exact .inr (if_pos same)
    · rw [if_neg same]
      exact h.imp_left fun mem => (List.mem_cons.mp mem).resolve_left (Ne.symm same)

theorem flushStreams_eq (s : State) : flushStreams s = (List.finRange 17).foldl closeStream s := by
  unfold flushStreams closeStream
  rfl

theorem flushStreams_bufs (s : State) (j : Fin 17) : (flushStreams s).en.bufs[j].words = [] := by
  rw [flushStreams_eq]
  exact closeStreams_bufs j (List.finRange 17) s (.inl (List.mem_finRange j))

end Sys2Proof.Machine
end

section
/-! PROOFS. The end of a burst (R57, R62, R134, R137, R138): the estimate of each run, and what the fast domain goes on to. -/

namespace Sys2Proof.Machine

/-! ## The estimate of a run -/

theorem estimateOf_anneal {s : State} {r : Run} (hf : s.runs[r].fe.restarting = false)
    (clean : s.runs[r].eng.track.clean = false) : estimateOf s r = (.anneal, s.runs[r].eng.freq) := by
  simp only [estimateOf, hf, clean, Bool.false_eq_true, if_false, if_true]

theorem estimateOf_nolock {s : State} {r : Run} (hf : s.runs[r].fe.restarting = false)
    (clean : s.runs[r].eng.track.clean = true) (span : s.runs[r].eng.track.span = none) :
    estimateOf s r = (.nolock, s.runs[r].eng.freq) := by
  simp only [estimateOf, hf, clean, span, Bool.false_eq_true, if_false, reduceCtorEq]

theorem estimateOf_ok {s : State} {r : Run} {w : Span} (hf : s.runs[r].fe.restarting = false)
    (clean : s.runs[r].eng.track.clean = true) (span : s.runs[r].eng.track.span = some w)
    (low : 500 ≤ s.runs[r].eng.tracked) (high : s.runs[r].eng.tracked ≤ freqLimit s r)
    (cycles : 4 * 2 ^ 24 ≤ (windowOf w).1) (clocks : 0 < (windowOf w).2) :
    estimateOf s r = (.ok, some (windowFreq (windowOf w).1 (windowOf w).2)) := by
  simp only [estimateOf, hf, clean, span, Bool.false_eq_true, if_false, reduceCtorEq, Nat.not_lt.mpr high,
    Nat.not_lt.mpr low, Nat.not_lt.mpr cycles, clocks.ne']

/-- A run `y` that was `x` has the estimate `e`. -/
structure Estimated (e : FreqStatus × Option Nat) (x y : RunSt) : Prop where
  status : y.eng.status = e.1
  freq : y.eng.freq = e.2
  tally : y.tally = x.tally
  fe : y.fe = x.fe

theorem Estimated.modCur {e : FreqStatus × Option Nat} {x y : RunSt} (h : Estimated e x y) (f : RunBlock → RunBlock) :
    Estimated e x (y.modCur f) := ⟨h.status, h.freq, h.tally, h.fe⟩

theorem endRun_estimated (s : State) (r : Run) : Estimated (estimateOf s r) s.runs[r] (endRun s r) := by
  unfold endRun
  generalize estimateOf s r = e
  obtain ⟨st, f⟩ := e
  dsimp -zeta only
  extract_lets x window y z
  have tracked : Estimated (st, f) x y := ⟨rfl, rfl, rfl, rfl⟩
  clear_value y
  have counted : Estimated (st, f) x z := by
    unfold z
    split
    · exact tracked.modCur _
    · split
      · exact tracked.modCur _
      · exact tracked
    · exact tracked
  clear_value z
  obtain ⟨status, freq, tally, fe⟩ := counted
  split
  · exact ⟨status, freq, tally, fe⟩
  · exact ⟨status, freq, tally, fe⟩

/-! ## The fast domain after a burst -/

theorem passAfterBurst_stays {s : State} (h : s.pw.cad.1 = true ∧ measuring s = true) : passAfterBurst s = .burst := by
  simp [passAfterBurst, h.1, h.2]

theorem passAfterBurst_ends {s : State} (h : ¬(s.pw.cad.1 = true ∧ measuring s = true)) :
    passAfterBurst s = if linesQuiet s then .asleep else .line := by
  have ends : (s.pw.cad.1 && measuring s) = false := by simpa using h
  simp [passAfterBurst, ends]

/-- The runs as the end of a burst leaves them. -/
def runsEnded (s : State) : State := { s with runs := Vector.ofFn fun (r : Fin 4) => endRun s r }

/-- The fast domain goes on as `p`. -/
def goesOn (p : Pass) (b : Nat) (s : State) : State := { s with pw := { s.pw with pass := p, burstTo := b } }

theorem burstEnd_early {s : State} (h : s.pw.pass ≠ .burst ∨ s.ck.mono < s.pw.burstTo) : burstEnd s = s :=
  if_neg fun ⟨burst, due⟩ => h.elim (· burst) (Nat.not_lt.mpr due)

section Due

variable {s : State} (burst : s.pw.pass = .burst) (due : s.pw.burstTo ≤ s.ck.mono)

include burst due

theorem burstEnd_stays (h : s.pw.cad.1 = true ∧ measuring s = true) :
    burstEnd s = refreshOutputs (goesOn .burst (burstEndAt s) (turnSecond (runsEnded s))) := by
  unfold burstEnd
  rw [if_pos ⟨burst, due⟩, passAfterBurst_stays h]
  rfl

theorem burstEnd_ends (h : ¬(s.pw.cad.1 = true ∧ measuring s = true)) :
    burstEnd s = refreshOutputs (goesOn (if linesQuiet s then .asleep else .line) (burstEndAt s)
      (closeBurst (runsEnded s))) := by
  have quiet : (if linesQuiet s then Pass.asleep else .line) ≠ .burst := by split <;> decide
  unfold burstEnd
  rw [if_pos ⟨burst, due⟩, passAfterBurst_ends h]
  dsimp only
  rw [if_neg quiet, goesOn, runsEnded]

end Due

/-! ## What the end of a burst changes -/

/-- `t` is `s` but for what the end of a burst changes. -/
def BurstEnded (s t : State) : Prop :=
  Talked { s with
    runs := t.runs, qu := t.qu, mx := t.mx
    io := { s.io with co := t.io.co }
    en := { s.en with bufs := t.en.bufs }
    ev := { s.ev with rotVec := t.ev.rotVec, rot := t.ev.rot }
    pw := { s.pw with pass := t.pw.pass, burstTo := t.pw.burstTo } } t

theorem BurstEnded.refl (s : State) : BurstEnded s s := Talked.refl s

theorem BurstEnded.trans {s t u : State} (a : BurstEnded s t) (b : BurstEnded t u) : BurstEnded s u := by
  obtain ⟨a1, a2, a3⟩ := a
  obtain ⟨b1, b2, b3⟩ := b
  refine ⟨?_, LineSt.talks_trans a2 b2, LineSt.talks_trans a3 b3⟩
  rw [b1, a1]

theorem Streamed.burstEnded {s t : State} (h : Streamed s t) : BurstEnded s t := by
  obtain ⟨h1, h2, h3⟩ := h
  refine ⟨?_, h2, h3⟩
  rw [h1]

theorem CurrentsOnly.burstEnded {s t : State} (h : CurrentsOnly s t) : BurstEnded s t := by
  rw [show t = { s with io := { s.io with co := t.io.co } } from h]
  exact Talked.refl _

theorem Talked.burstEnded {s t : State} (h : Talked s t) : BurstEnded s t := by
  obtain ⟨h1, h2, h3⟩ := h
  refine ⟨?_, h2, h3⟩
  rw [h1]

theorem goesOn_burstEnded (p : Pass) (b : Nat) (s : State) : BurstEnded s (goesOn p b s) := Talked.refl (goesOn p b s)

theorem runsEnded_burstEnded (s : State) : BurstEnded s (runsEnded s) := Talked.refl (runsEnded s)

theorem turnSecond_burstEnded (s : State) : BurstEnded s (turnSecond s) := by
  unfold turnSecond
  split
  · exact Talked.refl _
  · exact .refl s

/-- The matrix rests and the hammers end. -/
def resting (s : State) : State :=
  { s with mx := s.mx.rest, runs := s.runs.map fun t => { t with recog := endHammer t.recog } }

theorem closeBurst_eq (s : State) : closeBurst s = resting (flushStreams s) := by
  unfold closeBurst resting
  rfl

theorem resting_burstEnded (s : State) : BurstEnded s (resting s) := Talked.refl (resting s)

theorem closeBurst_burstEnded (s : State) : BurstEnded s (closeBurst s) := by
  rw [closeBurst_eq]
  exact (flushStreams_streamed s).burstEnded.trans (resting_burstEnded _)

/-! ## The runs, the matrix and the packets at the end -/

theorem CurrentsOnly.stands {s t : State} (h : CurrentsOnly s t) :
    t.runs = s.runs ∧ t.mx = s.mx ∧ t.en = s.en ∧ t.pw = s.pw ∧ t.ck = s.ck ∧ t.cm = s.cm := by
  rw [show t = { s with io := { s.io with co := t.io.co } } from h]
  exact ⟨rfl, rfl, rfl, rfl, rfl, rfl⟩

theorem Streamed.runs {s t : State} (h : Streamed s t) : t.runs = s.runs := by rw [h.1]

theorem Streamed.mx {s t : State} (h : Streamed s t) : t.mx = s.mx := by rw [h.1]

theorem turnSecond_runs (s : State) : (turnSecond s).runs = s.runs := by
  unfold turnSecond
  split <;> rfl

theorem turnSecond_mx (s : State) : (turnSecond s).mx = s.mx := by
  unfold turnSecond
  split <;> rfl

theorem runsEnded_run (s : State) (r : Run) : (runsEnded s).runs[r] = endRun s r := by
  simp [runsEnded]

/-- A run with its hammer ended. -/
def RunSt.quiet (x : RunSt) : RunSt := { x with recog := endHammer x.recog }

theorem resting_en (s : State) : (resting s).en = s.en := rfl

theorem resting_mx (s : State) : (resting s).mx = s.mx.rest := rfl

theorem resting_run (s : State) (r : Run) : (resting s).runs[r] = s.runs[r].quiet := by
  simp [resting, RunSt.quiet]

theorem closeBurst_run (s : State) (r : Run) : (closeBurst s).runs[r] = s.runs[r].quiet := by
  rw [closeBurst_eq, resting_run, (flushStreams_streamed s).runs]

theorem closeBurst_mx (s : State) : (closeBurst s).mx = s.mx.rest := by
  rw [closeBurst_eq, resting_mx, (flushStreams_streamed s).mx]

theorem closeBurst_bufs (s : State) (k : Fin 17) : (closeBurst s).en.bufs[k].words = [] := by
  rw [closeBurst_eq, resting_en]
  exact flushStreams_bufs s k

/-! ## BURST_END -/

theorem Estimated.quiet {e : FreqStatus × Option Nat} {x y : RunSt} (h : Estimated e x y) : Estimated e x y.quiet :=
  ⟨h.status, h.freq, h.tally, h.fe⟩

theorem Talked.stands {s t : State} (h : Talked s t) : t.runs = s.runs ∧ t.mx = s.mx ∧ t.en = s.en ∧ t.pw = s.pw := by
  rw [h.1]
  exact ⟨rfl, rfl, rfl, rfl⟩

theorem goesOn_stands (p : Pass) (b : Nat) (s : State) : (goesOn p b s).runs = s.runs ∧ (goesOn p b s).mx = s.mx ∧
    (goesOn p b s).en = s.en ∧ (goesOn p b s).pw.pass = p ∧ (goesOn p b s).pw.burstTo = b := ⟨rfl, rfl, rfl, rfl, rfl⟩

/-- The last steps of a burst's end, behind what ended it: the pass, the current outputs and the notices. -/
def burstLeft (p : Pass) (b : Nat) (s : State) : State := flushNotes (refreshOutputs (goesOn p b s))

theorem burstLeft_burstEnded (p : Pass) (b : Nat) (s : State) : BurstEnded s (burstLeft p b s) :=
  ((goesOn_burstEnded p b s).trans (refreshOutputs_currentsOnly _).burstEnded).trans (flushNotes_talked _).burstEnded

theorem burstLeft_stands (p : Pass) (b : Nat) (s : State) : (burstLeft p b s).runs = s.runs ∧ (burstLeft p b s).mx = s.mx ∧
    (burstLeft p b s).en = s.en ∧ (burstLeft p b s).pw.pass = p ∧ (burstLeft p b s).pw.burstTo = b := by
  obtain ⟨runs, mx, en, pw⟩ := (flushNotes_talked (refreshOutputs (goesOn p b s))).stands
  obtain ⟨runs1, mx1, en1, pw1, -, -⟩ := (refreshOutputs_currentsOnly (goesOn p b s)).stands
  obtain ⟨runs2, mx2, en2, pass, burstTo⟩ := goesOn_stands p b s
  unfold burstLeft
  rw [runs, mx, en, pw, runs1, mx1, en1, pw1]
  exact ⟨runs2, mx2, en2, pass, burstTo⟩

section Outcome

variable {s t : State}

/-- The end of a burst after which the fast domain stays awake. -/
theorem burstStays_outcome (ht : burstLeft .burst (burstEndAt s) (turnSecond (runsEnded s)) = t) :
    (∀ r : Run, Estimated (estimateOf s r) s.runs[r] t.runs[r]) ∧ t.pw.pass = .burst ∧ t.mx = s.mx ∧
      t.pw.burstTo = burstEndAt s ∧ BurstEnded s t := by
  have stands := burstLeft_stands .burst (burstEndAt s) (turnSecond (runsEnded s))
  have left := burstLeft_burstEnded .burst (burstEndAt s) (turnSecond (runsEnded s))
  rw [ht] at stands left
  obtain ⟨runs, mx, -, pass, burstTo⟩ := stands
  refine ⟨fun r => ?_, pass, mx.trans (turnSecond_mx _), burstTo,
    ((runsEnded_burstEnded s).trans (turnSecond_burstEnded _)).trans left⟩
  rw [runs, turnSecond_runs, runsEnded_run]
  exact endRun_estimated s r

/-- The end of a burst after which the fast domain ends a line pass or sleeps. -/
theorem burstEnds_outcome {p : Pass} (ht : burstLeft p (burstEndAt s) (closeBurst (runsEnded s)) = t) :
    (∀ r : Run, Estimated (estimateOf s r) s.runs[r] t.runs[r]) ∧ t.pw.pass = p ∧ t.mx = s.mx.rest ∧
      (∀ k : Fin 17, t.en.bufs[k].words = []) ∧ t.pw.burstTo = burstEndAt s ∧ BurstEnded s t := by
  have stands := burstLeft_stands p (burstEndAt s) (closeBurst (runsEnded s))
  have left := burstLeft_burstEnded p (burstEndAt s) (closeBurst (runsEnded s))
  rw [ht] at stands left
  obtain ⟨runs, mx, en, pass, burstTo⟩ := stands
  refine ⟨fun r => ?_, pass, mx.trans (closeBurst_mx _), fun k => ?_, burstTo,
    ((runsEnded_burstEnded s).trans (closeBurst_burstEnded _)).trans left⟩
  · rw [runs, closeBurst_run, runsEnded_run]
    exact (endRun_estimated s r).quiet
  · rw [en]
    exact closeBurst_bufs _ k

end Outcome

end Sys2Proof.Machine
end

section
/-! PROOFS. The slow conversions of a burst (R83, R89 ... R98, R308): what they leave alone. -/

namespace Sys2Proof.Machine

/-! ## The relation -/

/-- What the fast inputs of a run keep from frame to frame. -/
def FrontEnd.fast (f : FrontEnd) : Bool × InStatus × InStatus × (Nat × Nat) × Option Int × Option Int :=
  (f.restarting, f.lift, f.vib, f.fastGood, f.fastOk)

/-- `t` is `s` but for what slow conversions change; the fast inputs of every run stand. -/
structure Converted (s t : State) : Prop where
  talked : Talked { s with
    qu := t.qu, runs := t.runs
    en := { s.en with bufs := t.en.bufs, leadSec := t.en.leadSec }
    sf := { s.sf with taps := t.sf.taps, tapDue := t.sf.tapDue } } t
  fast : ∀ r : Run, t.runs[r].fe.fast = s.runs[r].fe.fast

theorem Converted.refl (s : State) : Converted s s := ⟨Talked.refl s, fun _ => rfl⟩

theorem Converted.trans {s t u : State} (a : Converted s t) (b : Converted t u) : Converted s u := by
  obtain ⟨⟨a1, a2, a3⟩, af⟩ := a
  obtain ⟨⟨b1, b2, b3⟩, bf⟩ := b
  refine ⟨⟨?_, LineSt.talks_trans a2 b2, LineSt.talks_trans a3 b3⟩, fun r => (bf r).trans (af r)⟩
  rw [b1, a1]

theorem Converted.ite {s a b : State} {c : Prop} [Decidable c] (ha : Converted s a) (hb : Converted s b) :
    Converted s (if c then a else b) :=
  iteInduction (fun _ => ha) fun _ => hb

theorem Converted.foldl {α : Type} (g : State → α → State) (hg : ∀ s a, Converted s (g s a))
    (xs : List α) (s : State) : Converted s (xs.foldl g s) :=
  List.foldlRecOn xs g (Converted.refl s) fun _ h x _ => h.trans (hg _ x)

theorem Streamed.converted {s t : State} (h : Streamed s t) : Converted s t := by
  have runs := h.runs
  obtain ⟨h1, h2, h3⟩ := h
  refine ⟨⟨?_, h2, h3⟩, fun r => by rw [runs]⟩
  rw [h1]

/-! ## One conversion -/

theorem modRun_converted (s : State) (r : Run) (f : RunSt → RunSt) (h : ∀ x, (f x).fe.fast = x.fe.fast) :
    Converted s (s.modRun r f) := by
  refine ⟨Talked.refl (s.modRun r f), fun q => ?_⟩
  by_cases same : r = q
  · subst same
    rw [State.modRun_run]
    exact h _
  · rw [State.modRun_other _ _ _ _ (Ne.symm same)]

theorem putInput_converted (r : Run) (temp : Bool) (x : SlowIn) (s : State) : Converted s (putInput r temp x s) :=
  modRun_converted s r _ fun _ => by cases temp <;> rfl

theorem addTap_converted (r : Run) (temp : Bool) (v : Int) (st : InStatus) (s : State) :
    Converted s (addTap r temp v st s) :=
  .ite ⟨Talked.refl _, fun _ => rfl⟩ (.refl s)

theorem gatherResult_converted (r : Run) (temp : Bool) (v : Int) (st : InStatus) (s : State) :
    Converted s (gatherResult r temp v st s) :=
  .ite (modRun_converted s r _ fun _ => rfl) (.refl s)

theorem modRecog_converted (s : State) (r : Run) (f : RecogRun → RecogRun) : Converted s (s.modRecog r f) :=
  modRun_converted s r _ fun _ => rfl

theorem convertSlow_converted (r : Run) (temp : Bool) (c : RawConv) (clock : Nat) (s : State) :
    Converted s (convertSlow r temp c clock s) := by
  unfold convertSlow
  generalize clipConv (headroom s r temp) c.value = q
  obtain ⟨v, clipped⟩ := q
  dsimp -zeta only
  extract_lets x0 alt lin b w m clipAt
  generalize halfDiff alt _ v c.positive = h
  obtain ⟨res, x1⟩ := h
  generalize (if temp then leadTerm s r else some 0) = lead
  dsimp -zeta only
  split
  · extract_lets short hist means mean out x2 x3 holds ann tap x4 tapSt s1 s2 s3
    have tapped : Converted s s1 := (putInput_converted r temp x4 s).trans (addTap_converted r temp _ _ _)
    clear_value s1
    have queued : Converted s1 s2 := (modQueue_queued s1 _).posted.streamed.converted.trans
      (streamOut_streamed _ _ _ _).converted
    clear_value s2
    have pulsed : Converted s2 s3 := .ite (.refl s2) (modRecog_converted s2 r _)
    exact (tapped.trans queued).trans (pulsed.trans (.ite (.refl s3) (gatherResult_converted r temp _ _ s3)))
  · exact putInput_converted r temp _ s

theorem leadPhase_converted (r : Run) (v : Nat) (s : State) : Converted s (leadPhase r v s) :=
  .ite (modRun_converted s r _ fun _ => rfl) (.refl s)

theorem convertLead_converted (r : Run) (c : RawConv) (clock : Nat) (s : State) :
    Converted s (convertLead r c clock s) := by
  unfold convertLead
  extract_lets f s1 x
  have first : Converted s s1 := by
    unfold s1
    split
    · exact modRun_converted s r _ fun _ => rfl
    · refine Converted.trans ?_ (leadPhase_converted r _ _)
      exact modRun_converted s r _ fun _ => rfl
  clear_value s1
  exact first.trans (.ite (streamOut_streamed _ _ _ s1).converted (.refl s1))

theorem convertLoop_converted (r : Run) (c : RawConv) (s : State) : Converted s (convertLoop r c s) := by
  refine modRun_converted s r _ fun x => ?_
  unfold RunSt.modFe
  dsimp only
  split <;> rfl

theorem convertRun_converted (r : Run) (c : Conv) (clock : Nat) (s : State) : Converted s (convertRun r c clock s) := by
  have pressed := (convertSlow_converted r false c.press clock s).trans (convertLoop_converted r c.temp _)
  exact .ite (.refl s) (.ite (pressed.trans (convertLead_converted _ _ _ _)) (pressed.trans (convertSlow_converted _ _ _ _ _)))

/-! ## The conversions of a burst -/

theorem leadSecond_converted (s : State) : Converted s (leadSecond s) := by
  unfold leadSecond
  split
  · exact ⟨Talked.refl _, fun r => by simp [RunSt.modFe, FrontEnd.fast]⟩
  · exact .refl s

/-- One millisecond's conversions of a run in a burst that begins at engine clock `clock`. -/
def convertMs (clock : Nat) (r : Run) (s : State) (c : Conv × Nat) : State :=
  convertRun r c.1 (clock + clocksPerMs * (c.2 + 1)) s

/-- The slow conversions of a burst. -/
def convertAll (b : Burst) (clock : Nat) (s : State) : State :=
  allRuns.foldl (fun t r => b.conv[r].zipIdx.foldl (convertMs clock r) t) s

theorem convertMs_converted (clock : Nat) (r : Run) (s : State) (c : Conv × Nat) : Converted s (convertMs clock r s c) :=
  convertRun_converted _ _ _ _

theorem convertAll_converted (b : Burst) (clock : Nat) (s : State) : Converted s (convertAll b clock s) :=
  Converted.foldl _ (fun t r => Converted.foldl _ (convertMs_converted clock r) _ t) _ s

end Sys2Proof.Machine
end

section
/-! PROOFS. An engine frame (R102 ... R108, R120): what its slots leave alone, and the sinks it forms. -/

namespace Sys2Proof.Machine

/-! ## The slots of a frame -/

/-- `t` is `s` but for what the slots of a frame change beside the sinks: of the matrix the fits alone, and the count
accumulator stands. -/
def Pathed (s t : State) : Prop :=
  Talked { s with
    qu := t.qu, runs := t.runs
    en := { t.en with count := s.en.count }
    ev := { t.ev with raised := s.ev.raised, posts := s.ev.posts, machines := s.ev.machines, levels := s.ev.levels }
    mx := { s.mx with fits := t.mx.fits } } t

theorem Pathed.refl (s : State) : Pathed s s := Talked.refl s

theorem Pathed.trans {s t u : State} (a : Pathed s t) (b : Pathed t u) : Pathed s u := by
  obtain ⟨a1, a2, a3⟩ := a
  obtain ⟨b1, b2, b3⟩ := b
  refine ⟨?_, LineSt.talks_trans a2 b2, LineSt.talks_trans a3 b3⟩
  rw [b1, a1]

theorem Pathed.ite {s a b : State} {c : Prop} [Decidable c] (ha : Pathed s a) (hb : Pathed s b) :
    Pathed s (if c then a else b) :=
  iteInduction (fun _ => ha) fun _ => hb

theorem Pathed.foldl {α : Type} (g : State → α → State) (hg : ∀ s a, Pathed s (g s a))
    (xs : List α) (s : State) : Pathed s (xs.foldl g s) :=
  List.foldlRecOn xs g (Pathed.refl s) fun _ h x _ => h.trans (hg _ x)

theorem Streamed.pathed {s t : State} (h : Streamed s t) : Pathed s t := by
  obtain ⟨h1, h2, h3⟩ := h
  refine ⟨?_, h2, h3⟩
  rw [h1]

theorem Talked.pathed {s t : State} (h : Talked s t) : Pathed s t := by
  obtain ⟨h1, h2, h3⟩ := h
  refine ⟨?_, h2, h3⟩
  rw [h1]

theorem modRun_pathed (s : State) (r : Run) (f : RunSt → RunSt) : Pathed s (s.modRun r f) := Talked.refl (s.modRun r f)

theorem fastInputs_pathed (serving : List Nat) (f : Frame) (s : State) (r : Run) : Pathed s (fastInputs serving f s r) :=
  modRun_pathed s r _

theorem pilotFrame_pathed (serving : List Nat) (f : Frame) (s : State) (r : Run) : Pathed s (pilotFrame serving f s r) :=
  .ite (.refl s) (modRun_pathed s r _)

theorem pathFrame_pathed (clock : Nat) (outs : Vector (Int × Bool) 18) (clips : List Nat) (s : State) (q : Run × Bool) :
    Pathed s (pathFrame clock outs clips s q) := by
  obtain ⟨r, vib⟩ := q
  unfold pathFrame
  dsimp -zeta only
  extract_lets k e clip s1
  refine .ite (.refl s) ?_
  generalize pathStep s r vib _ clip _ _ = p
  obtain ⟨-, -, out⟩ := p
  dsimp -zeta only
  have fed : Pathed s s1 := modRun_pathed s r _
  clear_value s1
  cases out with
  | none => exact fed
  | some o => exact (fed.trans (modRun_pathed s1 r _)).trans (streamOut_streamed _ _ _ _).pathed

/-- `x` is `e` but for what the recognisers of the axes change (R171, R173, R174). -/
def FoundIn (e x : Events) : Prop :=
  x = { x with raised := e.raised, posts := e.posts, machines := e.machines, levels := e.levels }

theorem FoundIn.trans {e x y : Events} (a : FoundIn e x) (b : FoundIn x y) : FoundIn e y := by
  unfold FoundIn at *
  rw [b, a]

theorem FoundIn.ite {e x y : Events} {c : Prop} [Decidable c] (hx : FoundIn e x) (hy : FoundIn e y) :
    FoundIn e (if c then x else y) := by
  split
  · exact hx
  · exact hy

theorem fallStep_foundIn (s : State) (m clocks : Nat) (e : Events) : FoundIn e (fallStep s m clocks e) := by
  unfold fallStep
  exact .ite rfl (.ite rfl rfl)

theorem rotStep_foundIn (s : State) (rate : Vector Int 3) (clocks : Nat) (e : Events) :
    FoundIn e (rotStep s rate clocks e) := by
  unfold rotStep
  exact .ite rfl rfl

theorem gyroStep_foundIn (sec full : Nat) (rate : Vector Int 3) (acc : Nat) (e : Events) :
    FoundIn e (gyroStep sec full rate acc e) := by
  unfold gyroStep
  exact .ite rfl rfl

theorem tiltStep_foundIn (full : Nat) (acc : Vector Int 3) (e : Events) : FoundIn e (tiltStep full acc e) := by
  unfold tiltStep
  exact .ite rfl (.ite rfl rfl)

theorem axisFound_foundIn (s : State) (v : Vector Int 6) (clock clocks : Nat) (e : Events) :
    FoundIn e (axisFound s v clock clocks e) :=
  ((fallStep_foundIn s _ clocks e).trans (rotStep_foundIn s _ clocks _)).trans
    ((gyroStep_foundIn _ _ _ _ _).trans (tiltStep_foundIn _ _ _))

/-- The axis paths and what is found in them. -/
def withAxes (s : State) (en : Engine) (ev : Events) : State := { s with en := en, ev := ev }

theorem withAxes_pathed (s : State) {en : Engine} {ev : Events} (count : en.count = s.en.count) (found : FoundIn s.ev ev) :
    Pathed s (withAxes s en ev) := by
  refine ⟨?_, rfl, rfl⟩
  unfold withAxes
  dsimp only
  rw [← found, ← count]

theorem axisFrame_pathed (clock : Nat) (fresh : Bool) (s : State) : Pathed s (axisFrame clock fresh s) := by
  unfold axisFrame
  extract_lets code w taken fed en s1 anneal at_ en1
  split
  · exact withAxes_pathed s rfl rfl
  · extract_lets vals words s2
    have found : Pathed s s2 := withAxes_pathed s rfl (.ite rfl (axisFound_foundIn _ _ _ _ _))
    exact found.trans (streamOut_streamed _ _ _ _).pathed

theorem failAvg_pathed (r : Run) (cause : String) (s : State) : Pathed s (failAvg r cause s) := by
  unfold failAvg
  split
  · exact (modRun_pathed s r _).trans (noteAll_talked _ _).pathed
  · exact .refl s

/-- A vibration fit that ends. -/
def fitEnded (r : Run) (s : State) : State :=
  { s with mx := { s.mx with fits := s.mx.fits.set r.val none r.isLt } }

theorem fitEnded_pathed (r : Run) (s : State) : Pathed s (fitEnded r s) := Talked.refl (fitEnded r s)

theorem failFit_pathed (r : Run) (cause : String) (s : State) : Pathed s (failFit r cause s) := by
  unfold failFit
  split
  · exact (fitEnded_pathed r s).trans (noteAll_talked _ _).pathed
  · exact .refl s

theorem checkInputs_pathed (r : Run) (s : State) : Pathed s (checkInputs r s) := by
  have bad (cause : String) : Pathed s (failFit r cause (failAvg r cause s)) :=
    (failAvg_pathed r cause s).trans (failFit_pathed r cause _)
  exact .ite (.refl s) (.ite (bad _) (.ite (bad _) (.refl s)))

/-! ## The sinks of a frame -/

/-- `t` is `s` but for what the conversions and frames of a burst change. -/
def Sampled (s t : State) : Prop :=
  Talked { s with
    qu := t.qu, runs := t.runs, en := t.en
    mx := { t.mx with beep := s.mx.beep }
    ev := { t.ev with raised := s.ev.raised, posts := s.ev.posts, machines := s.ev.machines, levels := s.ev.levels }
    ga := { s.ga with raw := t.ga.raw }
    sf := { s.sf with taps := t.sf.taps, tapDue := t.sf.tapDue } } t

theorem Sampled.refl (s : State) : Sampled s s := Talked.refl s

theorem Sampled.trans {s t u : State} (a : Sampled s t) (b : Sampled t u) : Sampled s u := by
  obtain ⟨a1, a2, a3⟩ := a
  obtain ⟨b1, b2, b3⟩ := b
  refine ⟨?_, LineSt.talks_trans a2 b2, LineSt.talks_trans a3 b3⟩
  rw [b1, a1]

theorem Sampled.foldl {α : Type} (g : State → α → State) (hg : ∀ s a, Sampled s (g s a))
    (xs : List α) (s : State) : Sampled s (xs.foldl g s) :=
  List.foldlRecOn xs g (Sampled.refl s) fun _ h x _ => h.trans (hg _ x)

theorem Pathed.sampled {s t : State} (h : Pathed s t) : Sampled s t := by
  obtain ⟨h1, h2, h3⟩ := h
  refine ⟨?_, h2, h3⟩
  rw [h1]

theorem Converted.sampled {s t : State} (h : Converted s t) : Sampled s t := by
  obtain ⟨⟨h1, h2, h3⟩, -⟩ := h
  refine ⟨?_, h2, h3⟩
  rw [h1]

theorem Pathed.stands {s t : State} (h : Pathed s t) : t.mx.sinks = s.mx.sinks ∧ t.mx.sat = s.mx.sat ∧
    t.mx.phase = s.mx.phase ∧ t.mx.active = s.mx.active ∧ t.cm = s.cm ∧ t.en.count = s.en.count := by
  rw [h.1]
  exact ⟨rfl, rfl, rfl, rfl, rfl, rfl⟩

theorem withMx_sampled (s : State) {m : Matrix} (h : m.beep = s.mx.beep) : Sampled s { s with mx := m } := by
  refine ⟨?_, rfl, rfl⟩
  dsimp only
  rw [← h]

theorem withRaw_sampled (s : State) (raw : List Word) : Sampled s { s with ga := { s.ga with raw := raw } } := Talked.refl _

theorem withEn_sampled (s : State) (e : Engine) : Sampled s { s with en := e } := Talked.refl _

theorem Matrix.boundary_stands (m : Matrix) : m.boundary.beep = m.beep ∧ m.boundary.sat = m.sat ∧ m.boundary.phase = m.phase := by
  unfold Matrix.boundary
  split
  · dsimp only
    split <;> exact ⟨rfl, rfl, rfl⟩
  · dsimp only
    split <;> exact ⟨rfl, rfl, rfl⟩

theorem Matrix.drive_beep (m : Matrix) (steps : Vector Word 4) (outs : Vector (Int × Bool) 18) :
    (m.drive steps outs).beep = m.beep := by
  rw [Matrix.drive]

theorem Matrix.drive_sinks (m : Matrix) (steps : Vector Word 4) (outs : Vector (Int × Bool) 18) (k : Fin 18) :
    (m.drive steps outs).sinks[k] = outs[k].1 := by
  rw [Matrix.drive]
  exact Vector.getElem_map _ _

theorem Matrix.drive_sat (m : Matrix) (steps : Vector Word 4) (outs : Vector (Int × Bool) 18) (k : Fin 18) :
    (m.drive steps outs).sat[k] = if outs[k].2 then m.sat[k] + 1 else m.sat[k] := by
  rw [Matrix.drive]
  exact Vector.getElem_ofFn _

theorem Matrix.drive_phase (m : Matrix) (steps : Vector Word 4) (outs : Vector (Int × Bool) 18) (j : Fin 4) :
    (m.drive steps outs).phase[j] = m.phase[j] + steps[j] := by
  rw [Matrix.drive]
  exact Vector.getElem_ofFn _

theorem toneStep_congr {s t : State} (h : t.cm = s.cm) (j : Fin 4) : toneStep t j = toneStep s j := by
  unfold toneStep pget
  rw [h]

/-- The banks are exchanged and the axis samples taken. -/
def frameTaken (f : Frame) (s : State) : State := { s with mx := s.mx.boundary.takeAxes f }

theorem frameTaken_sampled (f : Frame) (s : State) : Sampled s (frameTaken f s) :=
  withMx_sampled s s.mx.boundary_stands.1

/-- The sinks of a frame, formed and driven, and the samples at the raw port. -/
def frameDriven (steps : Vector Word 4) (outs : Vector (Int × Bool) 18) (raw : List Word) (s : State) : State :=
  { s with mx := s.mx.drive steps outs, ga := { s.ga with raw := raw } }

theorem frameDriven_sampled (steps : Vector Word 4) (outs : Vector (Int × Bool) 18) (raw : List Word) (s : State) :
    Sampled s (frameDriven steps outs raw s) :=
  (withMx_sampled s (s.mx.drive_beep steps outs)).trans (withRaw_sampled _ raw)

/-- A frame's clocks are counted. -/
def frameCounted (s : State) : State := { s with en := { s.en with count := s.en.count + 1024 } }

theorem frameCounted_sampled (s : State) : Sampled s (frameCounted s) := withEn_sampled s _

/-- The fast inputs of a frame. -/
def frameIn (f : Frame) (s : State) : State := allRuns.foldl (fastInputs (servingCells s) f) (frameTaken f s)

/-- The values of the sinks before they are driven. -/
def frameOut (f : Frame) (s : State) (k : Fin 18) : Int × Bool :=
  sinkValue (frameTaken f s).mx.active (sources (frameIn f s) (servingCells s) f) k.val

/-- The frame `f` has been driven from `s` on. -/
structure Driven (f : Frame) (s t : State) : Prop where
  sinks : ∀ k : Fin 18, t.mx.sinks[k] = (frameOut f s k).1
  sat : ∀ k : Fin 18, t.mx.sat[k] = if (frameOut f s k).2 then s.mx.sat[k] + 1 else s.mx.sat[k]
  phase : ∀ j : Fin 4, t.mx.phase[j] = s.mx.phase[j] + toneStep s j
  count : t.en.count = s.en.count + 1024

theorem Driven.of_steps {f : Frame} {s s2 s4 : State} {outs : Vector (Int × Bool) 18} {raw : List Word}
    (before : Pathed (frameTaken f s) s2) (hout : ∀ k : Fin 18, outs[k] = frameOut f s k)
    (behind : Pathed (frameDriven (Vector.ofFn fun j => toneStep s2 j) outs raw s2) s4) :
    Driven f s (frameCounted s4) := by
  obtain ⟨-, sat, phase, -, cm, count⟩ := before.stands
  obtain ⟨sinks4, sat4, phase4, -, -, count4⟩ := behind.stands
  obtain ⟨-, bsat, bphase⟩ := s.mx.boundary_stands
  have step (j : Fin 4) : (Vector.ofFn fun j => toneStep s2 j)[j] = toneStep s j :=
    (Vector.getElem_ofFn _).trans (toneStep_congr cm j)
  refine ⟨fun k => ?_, fun k => ?_, fun j => ?_, ?_⟩
  · calc s4.mx.sinks[k]
      _ = outs[k].1 := by
        rw [sinks4]
        exact Matrix.drive_sinks _ _ _ k
      _ = (frameOut f s k).1 := congrArg Prod.fst (hout k)
  · calc s4.mx.sat[k]
      _ = if outs[k].2 then s2.mx.sat[k] + 1 else s2.mx.sat[k] := by
        rw [sat4]
        exact Matrix.drive_sat _ _ _ k
      _ = if (frameOut f s k).2 then s.mx.sat[k] + 1 else s.mx.sat[k] := by
        rw [hout k, sat, ← bsat]
        rfl
  · calc s4.mx.phase[j]
      _ = s2.mx.phase[j] + (Vector.ofFn fun j => toneStep s2 j)[j] := by
        rw [phase4]
        exact Matrix.drive_phase _ _ _ j
      _ = s.mx.phase[j] + toneStep s j := by
        rw [phase, ← bphase, step]
        rfl
  · rw [frameCounted, count4]
    exact congrArg (· + 1024) count

theorem engineFrame_outcome (clock : Nat) (f : Frame) (s : State) :
    Sampled s (engineFrame clock f s) ∧ Driven f s (engineFrame clock f s) := by
  unfold engineFrame
  extract_lets fresh s0 serving s1 src clips outs s2 ga s3 s4 s5 en
  have taken : Sampled s s0 := frameTaken_sampled f s
  have fast : Pathed s0 s1 := Pathed.foldl _ (fastInputs_pathed serving f) _ _
  have hout (k : Fin 18) : outs[k] = frameOut f s k := by
    rw [frameOut, show (frameTaken f s).mx.active = s1.mx.active from fast.stands.2.2.2.1.symm]
    exact Vector.getElem_ofFn _
  have pilot : Pathed s0 s2 := fast.trans (Pathed.foldl _ (pilotFrame_pathed serving f) _ _)
  have driven : Sampled s2 s3 := frameDriven_sampled _ _ _ _
  have paths : Pathed s3 s4 := (Pathed.foldl _ (pathFrame_pathed clock outs clips) _ _).trans (axisFrame_pathed clock fresh _)
  have checked : Pathed s3 s5 :=
    paths.trans (Pathed.foldl _ (fun t r => (modRun_pathed t r _).trans (checkInputs_pathed r _)) _ _)
  exact ⟨((taken.trans pilot.sampled).trans driven).trans (checked.sampled.trans (frameCounted_sampled s5)),
    .of_steps pilot hout checked⟩

end Sys2Proof.Machine
end

section
/-! PROOFS. BURST_WAKE and BURST_END (R57, R62 ... R64, R102 ... R108, R134 ... R138, R143). -/

namespace Sys2Proof.Machine

/-! ## Equal sources -/

/-- The states deliver the same sources: the same parameters, matrix and fast inputs. -/
structure SameSources (a b : State) : Prop where
  cm : b.cm = a.cm
  mx : b.mx = a.mx
  fast : ∀ r : Run, b.runs[r].fe.fast = a.runs[r].fe.fast

theorem FrontEnd.fast_eq {f g : FrontEnd} (h : g.fast = f.fast) : g.restarting = f.restarting ∧ g.lift = f.lift ∧
    g.vib = f.vib ∧ g.fastGood = f.fastGood ∧ g.fastOk = f.fastOk := by
  simpa only [FrontEnd.fast, Prod.mk.injEq] using h

theorem servingCells_congr {a b : State} (h : b.cm = a.cm) : servingCells b = servingCells a := by
  unfold servingCells pnat pget
  rw [h]

/-- The fast inputs of a front end over one frame. -/
def FrontEnd.sample (serving : List Nat) (f : Frame) (r : Run) (fe : FrontEnd) : FrontEnd :=
  if fe.restarting then fe
  else
    let a := fastStep (cellSample serving f (serving.getD (2 * r.val) 0)) fe.lift fe.fastGood.1 fe.fastOk.1
    let b := fastStep (cellSample serving f (serving.getD (2 * r.val + 1) 0)) fe.vib fe.fastGood.2 fe.fastOk.2
    { fe with lift := a.1, vib := b.1, fastGood := (a.2.1, b.2.1), fastOk := (a.2.2, b.2.2) }

theorem fastInputs_eq (serving : List Nat) (f : Frame) (s : State) (r : Run) :
    fastInputs serving f s r = s.modRun r fun t => t.modFe (FrontEnd.sample serving f r) := rfl

theorem FrontEnd.sample_fast (serving : List Nat) (f : Frame) (r : Run) {x y : FrontEnd} (h : y.fast = x.fast) :
    (y.sample serving f r).fast = (x.sample serving f r).fast := by
  obtain ⟨restarting, lift, vib, good, ok⟩ := FrontEnd.fast_eq h
  unfold FrontEnd.sample
  rw [restarting]
  split
  · exact h
  · simp only [FrontEnd.fast, lift, vib, good, ok]

theorem SameSources.fastInputs {a b : State} (h : SameSources a b) (serving : List Nat) (f : Frame) (r : Run) :
    SameSources (fastInputs serving f a r) (fastInputs serving f b r) where
  cm := h.cm
  mx := h.mx
  fast q := by
    rw [fastInputs_eq, fastInputs_eq]
    by_cases same : r = q
    · subst same
      rw [State.modRun_run, State.modRun_run]
      exact FrontEnd.sample_fast serving f r (h.fast r)
    · rw [State.modRun_other _ _ _ _ (Ne.symm same), State.modRun_other _ _ _ _ (Ne.symm same)]
      exact h.fast q

theorem SameSources.foldInputs (serving : List Nat) (f : Frame) : ∀ (rs : List Run) {a b : State}, SameSources a b →
    SameSources (rs.foldl (Machine.fastInputs serving f) a) (rs.foldl (Machine.fastInputs serving f) b)
  | [], _, _, h => h
  | r :: rs, _, _, h => foldInputs serving f rs (h.fastInputs serving f r)

theorem SameSources.delivered {a b : State} (h : SameSources a b) (serving : List Nat) (f : Frame) (c : Nat) :
    delivered b serving f c = Machine.delivered a serving f c := by
  unfold Machine.delivered fastIn
  split
  · next r vib _ _ =>
    obtain ⟨restarting, lift, vibIn, -, ok⟩ := FrontEnd.fast_eq (h.fast r)
    simp only [restarting, lift, vibIn, ok]
  · rfl

theorem SameSources.toneSample {a b : State} (h : SameSources a b) (j : Fin 4) :
    toneSample b j = Machine.toneSample a j := by
  unfold Machine.toneSample pget
  rw [h.cm, h.mx]

theorem SameSources.sources {a b : State} (h : SameSources a b) (serving : List Nat) (f : Frame) :
    sources b serving f = Machine.sources a serving f := by
  unfold Machine.sources
  rw [funext (h.delivered serving f), funext h.toneSample, h.mx]

/-! ## The first input of a burst -/

/-- The fast domain wakes into a burst, and the watchdog's time begins. -/
def State.woken (s : State) : State :=
  { s with pw := { s.pw with pass := .burst, burstTo := burstEndAt s }, sf := { s.sf with wakeAt := s.ck.mono } }

/-- The state in which a burst that runs goes on, and any other begins. -/
def burstFrom (s : State) : State :=
  if burstRuns s then s
  else startBurst (startWatchdog { s with pw := { s.pw with pass := .burst, burstTo := burstEndAt s } })

theorem startBurst_sampled (s : State) : Sampled s (startBurst s) := by
  unfold startBurst
  exact Talked.refl _

theorem startBurst_fast (s : State) (r : Run) : (startBurst s).runs[r].fe.fast = s.runs[r].fe.fast := by
  simp [startBurst, RunSt.modFe, RunSt.modEng, RunSt.modPilot, FrontEnd.fast]

theorem startBurst_stands (s : State) : (startBurst s).mx = { s.mx with axisAge := 0 } ∧ (startBurst s).cm = s.cm ∧
    (startBurst s).en.count = s.en.count ∧ (startBurst s).pw = s.pw := ⟨rfl, rfl, rfl, rfl⟩

/-- The watchdog's inputs of a burst that begins. -/
theorem startWatchdog_woken (s : State) : ∃ due, startWatchdog { s with pw := { s.pw with pass := .burst, burstTo := burstEndAt s } }
    = { s.woken with sf := { s.woken.sf with tapDue := due } } := ⟨_, rfl⟩

/-- What a frame takes from the state stands, and an awake fast domain goes on as it was. -/
structure InputsStand (s t : State) : Prop where
  mx : t.mx = s.mx
  cm : t.cm = s.cm
  count : t.en.count = s.en.count
  fast : ∀ r : Run, t.runs[r].fe.fast = s.runs[r].fe.fast
  burstTo : t.pw.burstTo = s.pw.burstTo
  pass : s.pw.pass = .burst → t.pw.pass = .burst

theorem InputsStand.trans {s t u : State} (a : InputsStand s t) (b : InputsStand t u) : InputsStand s u where
  mx := b.mx.trans a.mx
  cm := b.cm.trans a.cm
  count := b.count.trans a.count
  fast r := (b.fast r).trans (a.fast r)
  burstTo := b.burstTo.trans a.burstTo
  pass h := b.pass (a.pass h)

theorem Converted.inputsStand {s t : State} (h : Converted s t) : InputsStand s t := by
  obtain ⟨⟨h1, -, -⟩, fast⟩ := h
  refine ⟨?_, ?_, ?_, fast, ?_, fun burst => ?_⟩
  all_goals rw [h1]
  exact burst

theorem quantityPass_inputsStand (s : State) : InputsStand s (quantityPass s) := by
  obtain ⟨h1, -, -⟩ := (quantityPass_works s).1
  have kept := quantityPass_accounted s
  refine ⟨?_, ?_, ?_, fun r => ?_, ?_, fun burst => ?_⟩
  · rw [h1]
  · rw [h1]
  · rw [h1]
  · rw [kept.runs r]
  · rw [h1]
  · rw [kept.pass (by rw [burst]; decide), burst]

/-! ## What a burst changes -/

/-- `t` is `s` but for what a burst's settling, conversions and frames change. -/
def Measured (s t : State) : Prop :=
  Worked { s with
    mx := { t.mx with beep := s.mx.beep }
    en := t.en
    ev := { t.ev with raised := s.ev.raised, posts := s.ev.posts, machines := s.ev.machines, levels := s.ev.levels }
    ga := { s.ga with raw := t.ga.raw }
    sf := { s.sf with taps := t.sf.taps, tapDue := t.sf.tapDue } } t

theorem Measured.refl (s : State) : Measured s s := Worked.refl s

theorem Measured.trans {s t u : State} (a : Measured s t) (b : Measured t u) : Measured s u := by
  obtain ⟨a1, a2, a3⟩ := a
  obtain ⟨b1, b2, b3⟩ := b
  refine ⟨?_, LineSt.talks_trans a2 b2, LineSt.talks_trans a3 b3⟩
  rw [b1, a1]

theorem Works.measured {s t : State} (h : Works s t) : Measured s t := by
  obtain ⟨⟨h1, h2, h3⟩, -⟩ := h
  refine ⟨?_, h2, h3⟩
  rw [h1]

theorem Sampled.measured {s t : State} (h : Sampled s t) : Measured s t := by
  obtain ⟨h1, h2, h3⟩ := h
  refine ⟨?_, h2, h3⟩
  rw [h1]

/-! ## BURST_WAKE -/

/-- The state that meets the first frame of a burst. -/
def burstReady (b : Burst) (s : State) : State :=
  convertAll b (frameClock s) (leadSecond (quantityPass (burstFrom s)))

/-- One frame of a burst that begins at engine clock `clock`. -/
def frameStep (clock : Nat) (s : State) (f : Frame × Nat) : State := engineFrame (clock + clocksPerFrame * f.2) f.1 s

theorem frameStep_outcome (clock : Nat) (s : State) (f : Frame × Nat) :
    Sampled s (frameStep clock s f) ∧ Driven f.1 s (frameStep clock s f) := engineFrame_outcome _ _ _

/-- The frames of a burst. -/
def burstFrames (b : Burst) (s : State) : State := b.frames.zipIdx.foldl (frameStep (frameClock s)) (burstReady b s)

theorem burstFrames_sampled (b : Burst) (s : State) : Sampled (burstReady b s) (burstFrames b s) :=
  Sampled.foldl _ (fun u f => (frameStep_outcome _ u f).1) _ _

theorem burstFrames_one {b : Burst} {f : Frame} (s : State) (one : b.frames = [f]) :
    Driven f (burstReady b s) (burstFrames b s) := by
  have step : burstFrames b s = frameStep (frameClock s) (burstReady b s) (f, 0) := by
    rw [burstFrames, one]
    rfl
  rw [step]
  exact (frameStep_outcome _ _ (f, 0)).2

theorem burstWake_not {b : Burst} {s : State} (h : measuring s = false ∨ wakeInstant s = false) : burstWake b s = s :=
  if_neg fun ⟨up, instant⟩ => by simp [up, instant] at h

theorem burstWake_at {b : Burst} {s : State} (up : measuring s = true) (instant : wakeInstant s = true) :
    burstWake b s = refreshOutputs (burstFrames b s) := by
  unfold burstWake
  rw [if_pos ⟨up, instant⟩]
  unfold burstFrames burstReady burstFrom convertAll
  rfl

theorem burstReady_inputsStand (b : Burst) (s : State) : InputsStand (burstFrom s) (burstReady b s) :=
  ((quantityPass_inputsStand _).trans (leadSecond_converted _).inputsStand).trans (convertAll_converted _ _ _).inputsStand

theorem burstReady_measured (b : Burst) (s : State) : Measured (burstFrom s) (burstReady b s) :=
  ((quantityPass_works _).measured.trans (leadSecond_converted _).sampled.measured).trans
    (convertAll_converted _ _ _).sampled.measured

/-- The state that the obligation measures a burst's changes from. -/
def State.awoken (s : State) : State := if burstRuns s then s else s.woken

theorem burstFrom_new {s : State} (h : ¬burstRuns s = true) : ∃ due,
    burstFrom s = startBurst { s.woken with sf := { s.woken.sf with tapDue := due } } := by
  obtain ⟨due, watched⟩ := startWatchdog_woken s
  exact ⟨due, (if_neg h).trans (congrArg startBurst watched)⟩

theorem burstFrom_measured (s : State) : Measured s.awoken (burstFrom s) := by
  by_cases runs : burstRuns s = true
  · rw [State.awoken, if_pos runs, burstFrom, if_pos runs]
    exact .refl s
  · obtain ⟨due, from_⟩ := burstFrom_new runs
    rw [State.awoken, if_neg runs, from_]
    have watched : Sampled s.woken { s.woken with sf := { s.woken.sf with tapDue := due } } := Talked.refl _
    exact (watched.trans (startBurst_sampled _)).measured

/-- What the first frame of a burst finds. -/
structure ReadyFrom (s v : State) : Prop where
  mx : v.mx = { s.mx with axisAge := if burstRuns s then s.mx.axisAge else 0 }
  cm : v.cm = s.cm
  count : v.en.count = s.en.count
  fast : ∀ r : Run, v.runs[r].fe.fast = s.runs[r].fe.fast
  pass : v.pw.pass = .burst
  burstTo : v.pw.burstTo = if burstRuns s then s.pw.burstTo else burstEndAt s

theorem burstFrom_ready (s : State) : ReadyFrom s (burstFrom s) := by
  by_cases runs : burstRuns s = true
  · have burst : s.pw.pass = .burst := by
      rw [burstRuns, Bool.and_eq_true, decide_eq_true_eq] at runs
      exact runs.1
    rw [burstFrom, if_pos runs]
    exact ⟨by rw [if_pos runs], rfl, rfl, fun _ => rfl, burst, by rw [if_pos runs]⟩
  · obtain ⟨due, from_⟩ := burstFrom_new runs
    rw [from_]
    obtain ⟨mx, cm, count, pw⟩ := startBurst_stands { s.woken with sf := { s.woken.sf with tapDue := due } }
    refine ⟨?_, cm, count, startBurst_fast _, by rw [pw]; rfl, ?_⟩
    · rw [mx, if_neg runs]
      rfl
    · rw [pw, if_neg runs]
      rfl

theorem ReadyFrom.then {s u v : State} (a : ReadyFrom s u) (b : InputsStand u v) : ReadyFrom s v where
  mx := b.mx.trans a.mx
  cm := b.cm.trans a.cm
  count := b.count.trans a.count
  fast r := (b.fast r).trans (a.fast r)
  pass := b.pass a.pass
  burstTo := b.burstTo.trans a.burstTo

theorem burstReady_ready (b : Burst) (s : State) : ReadyFrom s (burstReady b s) :=
  (burstFrom_ready s).then (burstReady_inputsStand b s)

theorem Sampled.pw {s t : State} (h : Sampled s t) : t.pw = s.pw := by rw [h.1]

section Wake

variable {b : Burst} {s t : State} (ht : flushNotes (refreshOutputs (burstFrames b s)) = t)

include ht

theorem burstWake_measured : Measured s.awoken t := by
  rw [← ht]
  exact (((burstFrom_measured s).trans (burstReady_measured b s)).trans (burstFrames_sampled b s).measured).trans
    ((refreshOutputs_works _).measured.trans (flushNotes_talked _).works.measured)

/-- The notices and the outputs leave what the frames have set. -/
theorem burstWake_stands : t.mx = (burstFrames b s).mx ∧ t.en = (burstFrames b s).en ∧ t.pw = (burstReady b s).pw := by
  obtain ⟨-, mx, en, pw⟩ := (flushNotes_talked (refreshOutputs (burstFrames b s))).stands
  obtain ⟨-, mx1, en1, pw1, -, -⟩ := (refreshOutputs_currentsOnly (burstFrames b s)).stands
  rw [← ht, mx, en, pw, mx1, en1, pw1, (burstFrames_sampled b s).pw]
  exact ⟨rfl, rfl, rfl⟩

end Wake

section Frame

variable {s v : State} (ready : ReadyFrom s v) (f : Frame)

/-- The matrix as the first frame of a burst takes it. -/
def firstMatrix (f : Frame) (s : State) : Matrix :=
  ({ s.mx with axisAge := if burstRuns s then s.mx.axisAge else 0 } : Matrix).boundary.takeAxes f

include ready

theorem ReadyFrom.taken : (frameTaken f v).mx = firstMatrix f s := by
  rw [frameTaken, ready.mx, firstMatrix]

theorem ReadyFrom.sameSources : SameSources (allRuns.foldl (fastInputs (servingCells s) f) { s with mx := firstMatrix f s })
    (frameIn f v) := by
  rw [frameIn, servingCells_congr ready.cm]
  exact SameSources.foldInputs _ f allRuns ⟨ready.cm, ready.taken f, ready.fast⟩

theorem ReadyFrom.frameOut_eq (k : Fin 18) : frameOut f v k = sinkValue (firstMatrix f s).active
    (sources (allRuns.foldl (fastInputs (servingCells s) f) { s with mx := firstMatrix f s }) (servingCells s) f) k.val := by
  rw [frameOut, ready.taken, (ready.sameSources f).sources, servingCells_congr ready.cm]

end Frame

theorem ReadyFrom.sat {s v : State} (ready : ReadyFrom s v) : v.mx.sat = s.mx.sat := by rw [ready.mx]

theorem ReadyFrom.phase {s v : State} (ready : ReadyFrom s v) : v.mx.phase = s.mx.phase := by rw [ready.mx]

theorem Measured.of_awoken {s t : State} (h : Measured s.awoken t)
    (burstTo : t.pw.burstTo = if burstRuns s then s.pw.burstTo else burstEndAt s) :
    Worked { s with
      mx := { t.mx with beep := s.mx.beep }
      en := t.en
      ev := { t.ev with raised := s.ev.raised, posts := s.ev.posts, machines := s.ev.machines, levels := s.ev.levels }
      ga := { s.ga with raw := t.ga.raw }
      sf := { s.sf with
        taps := t.sf.taps, tapDue := t.sf.tapDue, wakeAt := if burstRuns s then s.sf.wakeAt else s.ck.mono }
      pw := { s.pw with burstTo := t.pw.burstTo } } t := by
  rw [burstTo]
  by_cases runs : burstRuns s = true
  · rw [State.awoken, if_pos runs] at h
    rw [if_pos runs, if_pos runs]
    exact h
  · rw [State.awoken, if_neg runs] at h
    rw [if_neg runs, if_neg runs]
    exact h

/-- The estimates of R138 that the obligation names. -/
theorem Estimated.cases {s : State} {r : Run} {y : RunSt} (h : Estimated (estimateOf s r) s.runs[r] y)
    (hf : s.runs[r].fe.restarting = false) : let e := s.runs[r].eng
    (e.track.clean = false → y.eng.status = .anneal ∧ y.eng.freq = e.freq)
    ∧ (e.track.clean = true → e.track.span = none → y.eng.status = .nolock ∧ y.eng.freq = e.freq)
    ∧ (∀ w : Span, e.track.clean = true → e.track.span = some w → 500 ≤ e.tracked → e.tracked ≤ freqLimit s r →
      4 * 2 ^ 24 ≤ (windowOf w).1 → 0 < (windowOf w).2 →
      y.eng.status = .ok ∧ y.eng.freq = some (windowFreq (windowOf w).1 (windowOf w).2)) := by
  obtain ⟨status, freq, -, -⟩ := h
  refine ⟨fun clean => ?_, fun clean span => ?_, fun w clean span low high cycles clocks => ?_⟩
  · rw [status, freq, estimateOf_anneal hf clean]
    exact ⟨rfl, rfl⟩
  · rw [status, freq, estimateOf_nolock hf clean span]
    exact ⟨rfl, rfl⟩
  · rw [status, freq, estimateOf_ok hf clean span low high cycles clocks]
    exact ⟨rfl, rfl⟩

/-- Settles O32: BURST_WAKE settles, converts and runs its frames, each of which forms the sinks from what it takes at its
start; BURST_END gives each run its estimate and lets the fast domain go on, end a line pass or sleep. -/
theorem burstRunsItsFramesAndEnds : Obligations.BurstRunsItsFramesAndEnds := by
  unfold Obligations.BurstRunsItsFramesAndEnds
  intro s
  refine ⟨fun b off => gives_of_done (congrArg done (burstWake_not off)), fun b up instant => ?_,
    fun early => gives_of_done (congrArg done (burstEnd_early early)), fun burst due => ?_⟩
  · obtain ⟨t, ht⟩ : ∃ t, flushNotes (refreshOutputs (burstFrames b s)) = t := ⟨_, rfl⟩
    have ready := burstReady_ready b s
    obtain ⟨mx, en, pw⟩ := burstWake_stands ht
    have burstTo : t.pw.burstTo = if burstRuns s then s.pw.burstTo else burstEndAt s := by rw [pw, ready.burstTo]
    refine ⟨t, ?_, by rw [pw, ready.pass], burstTo, fun f one => ?_, (burstWake_measured ht).of_awoken burstTo⟩
    · exact (congrArg done (burstWake_at up instant)).trans (congrArg Host.Outcome.next ht)
    · obtain ⟨sinks, sat, phase, count⟩ := burstFrames_one s one
      refine ⟨fun k => ⟨?_, ?_⟩, fun j => ?_, ?_⟩
      · rw [mx, sinks, ready.frameOut_eq]
        rfl
      · rw [mx, sat, ready.frameOut_eq, ready.sat]
        rfl
      · rw [mx, phase, ready.phase, toneStep_congr ready.cm]
      · rw [en, count, ready.count]
  · intro stays
    by_cases on : stays
    · obtain ⟨t, ht⟩ : ∃ t, burstLeft .burst (burstEndAt s) (turnSecond (runsEnded s)) = t := ⟨_, rfl⟩
      obtain ⟨runs, pass, mx, burstTo, ended⟩ := burstStays_outcome ht
      refine ⟨t, ?_, fun r => (runs r).cases, fun r => ⟨(runs r).tally, (runs r).fe⟩, fun _ => ⟨pass, mx⟩,
        fun off => absurd on off, burstTo ▸ ended⟩
      exact (congrArg done (burstEnd_stays burst due on)).trans (congrArg Host.Outcome.next ht)
    · obtain ⟨t, ht⟩ : ∃ t, burstLeft (if linesQuiet s then .asleep else .line) (burstEndAt s)
        (closeBurst (runsEnded s)) = t := ⟨_, rfl⟩
      obtain ⟨runs, pass, mx, bufs, burstTo, ended⟩ := burstEnds_outcome ht
      refine ⟨t, ?_, fun r => (runs r).cases, fun r => ⟨(runs r).tally, (runs r).fe⟩, fun off => absurd off on,
        fun _ => ⟨pass, mx, bufs⟩, burstTo ▸ ended⟩
      exact (congrArg done (burstEnd_ends burst due on)).trans (congrArg Host.Outcome.next ht)

end Sys2Proof.Machine
end

section
/-! PROOFS. The edits of a draft table by DO_FE_POINT, DO_K_POINT and DO_Q_POINT (R97, R150, R154). -/

namespace Sys2Proof.Machine

/-- An edit leaves the live table alone (R97). -/
theorem editDraft_live {x : Int} {y : Option Int} {t d : Table} (h : editDraft x y t = some d) : d.live = t.live := by
  obtain ⟨-, drafted⟩ := Option.ite_none_right_eq_some.mp h
  exact (congrArg Table.live (Option.some.inj drafted)).symm

/-! ## Outcomes of the bodies

Each body has one outcome, in the code `k` of the field that names the table. -/

section Points
variable {rq : Req} {s : State} {r : Run} {rt kt xt yt : String} {k : Nat} {x : Int} {y : Option Int} {d : Table}
  (hv : s.serving = true) (key : sealOk s rq.line .m = true) (hr : runField rt = .ok r)
  (form : ((parseDec xt).isSome && (!numberLike yt || (parseDec yt).isSome)) = true)
include hv key hr form

theorem bodyFePoint_ok (hk : wordField rq.tag.isSome ["temp", "press"] kt = .ok k)
    (point : (if k = 0 then pointFields rq.tag.isSome 3 3 0 5000000 (-200000) 850000 xt yt
      else pointFields rq.tag.isSome 4 2 (-672000) 672000 0 10000000 xt yt) = .ok (x, y))
    (edit : editDraft x y (if k = 0 then s.runs[r].tabTemp else s.runs[r].tabPress) = some d) :
    bodyFePoint rq [rt, kt, xt, yt] s = .ok
      (s.modRun r fun q => if k = 0 then { q with tabTemp := d } else { q with tabPress := d },
      [spaced ["ok do fe.point", runText r, if k = 0 then "temp" else "press", natText d.draft.length]]) := by
  simp only [bodyFePoint, needMetrology, form, hr, hk, key, served_serving hv, need_true, ok_bind]
  by_cases temp : k = 0
  all_goals
    simp only [temp, if_true, if_false] at point edit ⊢
    rw [point, ok_bind, edit, want_some, ok_bind]

theorem bodyKPoint_ok (point : pointFields rq.tag.isSome 3 3 500 8000000 (-10000) 10000 xt yt = .ok (x, y))
    (edit : editDraft x y s.runs[r].tabK = some d) :
    bodyKPoint rq [rt, xt, yt] s = .ok (s.modRun r fun q => { q with tabK := d },
      [spaced ["ok do k.point", runText r, natText d.draft.length]]) := by
  simp only [bodyKPoint, needMetrology, form, hr, key, served_serving hv, point, edit, need_true, want_some, ok_bind]

theorem bodyQPoint_ok (hk : wordField rq.tag.isSome ["dens", "enth", "z"] kt = .ok k)
    (point : (if k = 0 then pointFields rq.tag.isSome 3 4 (-200000) 850000 1 300000000 xt yt
      else if k = 1 then pointFields rq.tag.isSome 3 6 (-200000) 850000 (-1000000) 10000000 xt yt
      else pointFields rq.tag.isSome 2 4 0 10000000 500 30000 xt yt) = .ok (x, y))
    (edit : editDraft x y (if k = 0 then s.runs[r].tabDens else if k = 1 then s.runs[r].tabEnth
      else s.runs[r].tabZ) = some d) :
    bodyQPoint rq [rt, kt, xt, yt] s = .ok (s.modRun r fun q =>
        if k = 0 then { q with tabDens := d } else if k = 1 then { q with tabEnth := d } else { q with tabZ := d },
      [spaced ["ok do q.point", runText r, ["dens", "enth", "z"].getD k "", natText d.draft.length]]) := by
  simp only [bodyQPoint, needMetrology, form, hr, hk, key, served_serving hv, need_true, ok_bind]
  by_cases dens : k = 0
  · simp only [dens, if_true] at point edit ⊢
    rw [point, ok_bind, edit, want_some, ok_bind]
  by_cases enth : k = 1
  all_goals
    simp only [dens, enth, one_ne_zero, if_true, if_false] at point edit ⊢
    rw [point, ok_bind, edit, want_some, ok_bind]

end Points

/-- What a line has been sent is no business of a run. -/
theorem State.modRun_sent (s : State) (r : Run) (f : RunSt → RunSt) (l : Line) :
    ((s.modRun r f).line l).sent = (s.line l).sent := by
  cases l <;> rfl

/-- Settles O34: the outcome of each body at the code of each table, and an edit keeps the live table. -/
theorem tablesAreEditedInDraft : Obligations.TablesAreEditedInDraft := by
  unfold Obligations.TablesAreEditedInDraft
  intro rq s r rt kt xt yt k x y d hs hv key hr xForm yForm
  have form : ((parseDec xt).isSome && (!numberLike yt || (parseDec yt).isSome)) = true := by
    simpa [xForm] using yForm
  refine ⟨fun hk point edit => ⟨editDraft_live edit, ?_⟩, fun hk point edit => ⟨editDraft_live edit, ?_⟩,
    fun point edit => ⟨editDraft_live edit, ?_⟩, fun hk => ⟨?_, ?_, ?_⟩⟩
  · exact answers_of_body rfl hs (bodyFePoint_ok hv key hr form hk point edit) (State.modRun_sent s r _ _)
  · exact answers_of_body rfl hs (bodyFePoint_ok hv key hr form hk point edit) (State.modRun_sent s r _ _)
  · exact answers_of_body rfl hs (bodyKPoint_ok hv key hr form point edit) (State.modRun_sent s r _ _)
  all_goals
    rintro rfl point edit
    exact answers_of_body rfl hs (bodyQPoint_ok hv key hr form hk point edit) (State.modRun_sent s r _ _)

end Sys2Proof.Machine
end

section
/-! PROOFS. The vibration fit and the annunciator (R113, R115, R116): what begins, replaces and ends a fit or a pattern. -/

namespace Sys2Proof.Machine

theorem line_withMx (s : State) (m : Matrix) (l : Line) : ({ s with mx := m } : State).line l = s.line l := by
  cases l <;> rfl

/-! ## The vibration fit -/

/-- What a count is read from is a number (R39). -/
theorem parseDec_of_countField {lo hi n : Nat} {t : String} (h : countField lo hi t = .ok n) :
    (parseDec t).isSome = true := by
  unfold countField at h
  cases hd : parseDec t with
  | none => simp [hd, want] at h
  | some d => rfl

theorem bodyVibfit_ok {rq : Req} {s : State} {rt st : String} {r : Run} {n : Nat} (hv : s.serving = true)
    (role : 1 ≤ roleCode (s.line rq.line).role) (hr : runField rt = .ok r) (hn : countField 1 300 st = .ok n) :
    bodyVibfit rq [rt, st] s = .ok ({ s with mx := { s.mx with
        fits := s.mx.fits.set r.val (some (n, s.ck.awake)) r.isLt } },
      ["ok do matrix.vibfit " ++ runText r ++ " started"]) := by
  simp only [bodyVibfit, parseDec_of_countField hn, hr, hn, served_serving hv, needRole_operate role, need_true, ok_bind]

section Fit
variable {s : State} {r : Run} {n c : Nat} (fit : s.mx.fits[r] = some (n, c))
include fit

/-- A fit whose seconds have passed is over; its result is only noted (R113). -/
theorem vibfitDone_due (lv vv ll : Int) (due : c + 1000 * n ≤ s.ck.awake) :
    Talked { s with mx := { s.mx with fits := s.mx.fits.set r.val none r.isLt } } (vibfitDone r (.done lv vv ll) s) := by
  simp only [vibfitDone, fit, if_neg due.not_gt]
  exact noteAll_talked _ _

theorem vibfitDone_early (lv vv ll : Int) (early : s.ck.awake < c + 1000 * n) : vibfitDone r (.done lv vv ll) s = s := by
  simp only [vibfitDone, fit, if_pos early]

theorem failFit_talked (cause : String) :
    Talked { s with mx := { s.mx with fits := s.mx.fits.set r.val none r.isLt } } (failFit r cause s) := by
  simp only [failFit, fit]
  exact noteAll_talked _ _

/-- Outside RUN and SAFE a failure is that of a STOP (R113). -/
theorem vibfitDone_stopped (off : measuring s = false) : vibfitDone r .fail s = failFit r "stop" s := by
  simp only [vibfitDone, fit, off, Bool.false_eq_true, if_false]

end Fit

theorem vibfitDone_none {s : State} {r : Run} (fit : s.mx.fits[r] = none) (o : VibfitOutcome) : vibfitDone r o s = s := by
  simp only [vibfitDone, fit]

theorem gives_of_talked {i : Instr} {s t u : State} (hi : exec i s = done t) (hu : Talked u t) : Gives i s u :=
  ⟨flushNotes t, hi, hu.trans (flushNotes_talked t)⟩

/-! ## Requests for a pattern -/

/-- A line's request plays unless a stronger pattern does (R116). -/
theorem requestBeep_plays {s : State} {code : Nat} (weaker : ∀ b, s.mx.beep = some b → b.1 ≤ code) :
    requestBeep code true s = ({ s with mx := { s.mx with beep := some (code, true, s.ck.mono) } }, true) := by
  cases playing : s.mx.beep with
  | none => simp only [requestBeep, playing, if_true]
  | some b =>
    have wins : beepRank b.1 < beepRank code ∨ b.1 = code := by
      have := weaker b playing
      unfold beepRank
      omega
    simp [requestBeep, playing, wins]

/-- A request behind a stronger pattern is dropped, whoever makes it (R116). -/
theorem requestBeep_dropped {s : State} {code : Nat} {b : Nat × Bool × Nat} (playing : s.mx.beep = some b)
    (stronger : code < b.1) (fromLine : Bool) : requestBeep code fromLine s = (s, false) := by
  have outranked : ¬ beepRank b.1 < beepRank code := by
    unfold beepRank
    omega
  simp [requestBeep, playing, outranked, stronger.ne']

theorem bodyBeep_ok {rq : Req} {s : State} {name : String} {code : Nat} (hv : s.serving = true)
    (role : 1 ≤ roleCode (s.line rq.line).role) (hc : wordField rq.tag.isSome beepNames name = .ok code) :
    bodyBeep rq [name] s = .ok ((requestBeep code true s).1,
      ["ok do beep " ++ if (requestBeep code true s).2 then beepNames.getD code "" else "dropped"]) := by
  simp only [bodyBeep, hc, served_serving hv, needRole_operate role, ok_bind]

theorem bodyBeepStop_ok {rq : Req} {s : State} (hv : s.serving = true) (role : 1 ≤ roleCode (s.line rq.line).role) :
    bodyBeepStop rq [] s = .ok ({ s with mx := { s.mx with beep := none } }, ["ok do beep stop"]) := by
  simp only [bodyBeepStop, decide_true, need_true, served_serving hv, needRole_operate role, ok_bind]

/-! ## The end of a pattern -/

/-- A pattern that has its length behind it is over (R115). -/
theorem beepPatternEnd_over {s : State} {c t n : Nat} {f : Bool} (playing : s.mx.beep = some (c, f, t))
    (length : beepLength c = some n) (elapsed : t + n ≤ s.ck.mono) :
    beepPatternEnd s = { s with mx := { s.mx with beep := none } } := by
  simp only [beepPatternEnd, playing, length, if_pos elapsed]

/-- A pattern without a length plays until it is stopped (R115). -/
theorem beepPatternEnd_endless {s : State} {c t : Nat} {f : Bool} (playing : s.mx.beep = some (c, f, t))
    (endless : beepLength c = none) : beepPatternEnd s = s := by
  simp only [beepPatternEnd, playing, endless]

/-- The lengths of Table 5.2. -/
theorem beepLength_table : ∀ p ∈ [(0, 20), (1, 180), (5, 60000)], beepLength p.1 = some p.2 := by decide

theorem beepLength_endless : ∀ c ∈ [2, 3, 4], beepLength c = none := by decide

/-- Settles O36: each command has one outcome for what plays or runs, and each ending row one for what is over. -/
theorem fitsAndPatternsRunAndEnd : Obligations.FitsAndPatternsRunAndEnd := by
  unfold Obligations.FitsAndPatternsRunAndEnd
  refine fun s => ⟨fun rq hs hv role => ⟨fun rt st r n hr hn => ?_, fun name c hc => ⟨fun weaker => ?_, ?_⟩, ?_⟩,
    fun r lv vv ll n c fit => ⟨fun due => ?_, fun early => ?_, fun off => ?_⟩, fun r o fit => ?_,
    fun c t n f playing timed elapsed => ?_, fun c t f playing untimed => ?_⟩
  · exact answers_of_body rfl hs (bodyVibfit_ok hv role hr hn) (by rw [line_withMx])
  · have body := bodyBeep_ok hv role hc
    rw [requestBeep_plays weaker] at body
    exact answers_of_body rfl hs body (by rw [line_withMx])
  · rintro ⟨b, playing, stronger⟩
    have body := bodyBeep_ok hv role hc
    rw [requestBeep_dropped playing stronger] at body
    exact answers_of_body rfl hs body rfl
  · exact answers_of_body rfl hs (bodyBeepStop_ok hv role) (by rw [line_withMx])
  · exact gives_of_talked rfl (vibfitDone_due fit lv vv ll due)
  · exact gives_of_done (congrArg done (vibfitDone_early fit lv vv ll early))
  · exact gives_of_talked (congrArg done (vibfitDone_stopped fit off)) (failFit_talked fit "stop")
  · exact gives_of_done (congrArg done (vibfitDone_none fit o))
  · exact congrArg Host.Outcome.next (beepPatternEnd_over playing (beepLength_table _ timed) elapsed)
  · exact congrArg Host.Outcome.next (beepPatternEnd_endless playing (beepLength_endless c untimed))

end Sys2Proof.Machine
end

section
/-! PROOFS. The pilot (R98, R139 ... R141): what a check of the inputs ends, what a judged window makes of its run, and the
average of a reference. -/

namespace Sys2Proof.Machine

theorem State.modRun_modRun (s : State) (r : Run) (f g : RunSt → RunSt) :
    (s.modRun r f).modRun r g = s.modRun r (g ∘ f) := by
  simp [State.modRun]

/-! ## The check of the inputs -/

theorem failFit_fitsTalked (r : Run) (cause : String) (s : State) :
    Talked { s with mx := { s.mx with fits := (failFit r cause s).mx.fits } } (failFit r cause s) := by
  cases fit : s.mx.fits[r] with
  | none =>
    rw [show failFit r cause s = s by simp only [failFit, fit]]
    exact Talked.refl s
  | some f =>
    have failed := failFit_talked fit cause
    rw [failed.stands.2.1]
    exact failed

/-- `t` is `s` but for the lines' talk, the vibration fits, and of run `r` the average of its reference (R113, R140). -/
structure InputsChecked (r : Run) (s t : State) : Prop where
  talked : Talked { s with runs := t.runs, mx := { s.mx with fits := t.mx.fits } } t
  others : ∀ q : Run, q ≠ r → t.runs[q] = s.runs[q]
  run : ∃ avg, t.runs[r] = s.runs[r].modPilot fun p => { p with avg := avg }

theorem InputsChecked.refl (r : Run) (s : State) : InputsChecked r s s := ⟨Talked.refl s, fun _ _ => rfl, _, rfl⟩

theorem InputsChecked.ev {r : Run} {s t : State} (h : InputsChecked r s t) : t.ev = s.ev := by rw [h.talked.1]

theorem inputsFailed_checked (r : Run) (cause : String) (s : State) :
    InputsChecked r s (failFit r cause (failAvg r cause s)) := by
  obtain ⟨⟨dropped, others⟩, avg, run⟩ := failAvg_eq r cause s
  have fit := failFit_fitsTalked r cause (failAvg r cause s)
  refine ⟨?_, fun q h => ?_, avg, ?_⟩
  · obtain ⟨a1, ah, av⟩ := dropped
    obtain ⟨b1, bh, bv⟩ := fit
    refine ⟨?_, LineSt.talks_trans ah bh, LineSt.talks_trans av bv⟩
    rw [b1, a1]
  · rw [fit.runs]
    exact others q h
  · rw [fit.runs]
    exact run

theorem checkInputs_checked (r : Run) (s : State) : InputsChecked r s (checkInputs r s) := by
  unfold checkInputs
  extract_lets f bad
  have failed (st : InStatus) : InputsChecked r s (bad st) := inputsFailed_checked r _ s
  split_ifs
  · exact .refl r s
  · exact failed f.lift
  · exact failed f.vib
  · exact .refl r s

/-! ## The judgement -/

/-- Two results in a row out of band on the lift element are a loss (R141). -/
theorem judgePilot_loss {s : State} {l : PilotValue} {p : Pilot} (v : PilotValue) (out : inBand s l p.refLift = false)
    (second : 1 ≤ p.badLift) : (judgePilot s l v p).status = .loss ∧ 2 ≤ (judgePilot s l v p).badLift := by
  have bad : 2 ≤ p.badLift + 1 := by omega
  simp [judgePilot, judgedStatus, out, bad]

/-- Both elements in band of their references are ok, where no loss has to be overcome (R141). -/
theorem judgePilot_ok {s : State} {l v : PilotValue} {p : Pilot} (lift : inBand s l p.refLift = true)
    (vib : inBand s v p.refVib = true) (sound : p.status ≠ .loss) (refLift : p.refLift.isSome = true)
    (refVib : p.refVib.isSome = true) : (judgePilot s l v p).status = .ok := by
  simp [judgePilot, judgedStatus, lift, vib, sound, refLift, refVib]

/-- What a window judged as `p` makes of its run (R98, R140, R141, R146). -/
def RunSt.pilotJudged (p : Pilot) (l v : PilotValue) (t : RunSt) : RunSt :=
  ((t.modPilot fun _ => { p with avg := p.avg.map (addAvg l v) }).modCur fun b =>
    { b with loss := b.loss || decide (p.status = .loss) }).modFe fun f =>
      { f with lift := openAfter p.badLift p.status f.lift, vib := openAfter p.badVib p.status f.vib }

/-- A window judged as `p`, before the inputs are checked: a loss that is new raises the event of the run (R141, R166). -/
def State.pilotJudged (r : Run) (p : Pilot) (l v : PilotValue) (s : State) : State :=
  { s.modRun r (RunSt.pilotJudged p l v) with ev := { s.ev with
    raised := s.ev.raised ++ if p.status = .loss ∧ s.runs[r].eng.pilot.status ≠ .loss
      then [⟨0x44 + r.val, r.val + 1, 0, 0, 7, 0⟩] else [] } }

theorem State.pilotJudged_run (r : Run) (p : Pilot) (l v : PilotValue) (s : State) :
    (s.pilotJudged r p l v).runs[r] = s.runs[r].pilotJudged p l v := s.modRun_run r _

theorem State.pilotJudged_other (r : Run) (p : Pilot) (l v : PilotValue) (s : State) (q : Run) (h : q ≠ r) :
    (s.pilotJudged r p l v).runs[q] = s.runs[q] := s.modRun_other r q _ h

/-! ## PILOT_RESULT -/

/-- Outside RUN and SAFE, or with no window, nothing is taken (R139). -/
theorem pilotResult_idle {r : Run} {s : State} (h : measuring s = false ∨ s.runs[r].eng.pilot.results = []) :
    pilotResult r s = s := by
  cases waiting : s.runs[r].eng.pilot.results with
  | nil => simp only [pilotResult, waiting]
  | cons w rest =>
    have off : measuring s = false := h.resolve_right (by rw [waiting]; exact List.cons_ne_nil w rest)
    simp only [pilotResult, waiting, off, if_true]

section Window
variable {r : Run} {s : State} {l v : PilotValue} {rest : List (PilotValue × PilotValue × Bool)} (on : measuring s = true)
include on

/-- A window that holds a disturbance is reported alone (R141). -/
theorem pilotResult_cut (waiting : s.runs[r].eng.pilot.results = (l, v, true) :: rest) :
    pilotResult r s = s.modRun r fun t => t.modPilot fun q => { q with
      lift := some l, vib := some v, results := rest, status := if q.status = .idle then .anneal else q.status } := by
  simp only [pilotResult, waiting, on, Bool.true_eq_false, if_false, if_true]
  rfl

theorem pilotResult_judged (waiting : s.runs[r].eng.pilot.results = (l, v, false) :: rest) :
    pilotResult r s = checkInputs r (s.pilotJudged r (judgePilot s l v
      { s.runs[r].eng.pilot with lift := some l, vib := some v, results := rest }) l v) := by
  simp only [pilotResult, waiting, on, Bool.true_eq_false, Bool.false_eq_true, if_false, State.modRun_modRun]
  unfold State.pilotJudged
  refine congrArg (checkInputs r) ?_
  split
  · rfl
  · rw [List.append_nil]
    rfl

end Window

/-! ## The reference -/

theorem bodyPilotRef_ok {rq : Req} {s : State} {rt : String} {r : Run} (hv : s.serving = true)
    (key : sealOk s rq.line .m = true) (hr : runField rt = .ok r) :
    bodyPilotRef rq [rt] s = .ok (s.modRun r fun t => t.modPilot fun p => { p with
      avg := some ⟨0, 0, 0, 0, 0, lineCode rq.line, (s.line rq.line).role, none⟩ },
      ["ok do pilot.ref " ++ runText r ++ " started"]) := by
  simp only [bodyPilotRef, needMetrology, hr, key, served_serving hv, need_true, ok_bind]

/-- The rounded means of 250 results are stored, with their audit entry (R140, R237). -/
theorem pilotRefDone_full {r : Run} {s : State} {a : PilotAvg} (avg : s.runs[r].eng.pilot.avg = some a) (full : 250 ≤ a.n) :
    Booked (s.modRun r fun t => t.modPilot fun q => { q with
      refLift := some ⟨(roundDiv a.liftGain 250).toNat, roundDiv a.liftPhase 250⟩
      refVib := some ⟨(roundDiv a.vibGain 250).toNat, roundDiv a.vibPhase 250⟩, avg := none }) (pilotRefDone r s) := by
  simp only [pilotRefDone, avg, if_neg full.not_gt]
  exact (audit_booked _ _ _ _ _ _ _ _).trans (noteAll_talked _ _).booked

/-- Fewer results, or no average, store nothing (R140). -/
theorem pilotRefDone_short {r : Run} {s : State}
    (h : s.runs[r].eng.pilot.avg = none ∨ ∃ a, s.runs[r].eng.pilot.avg = some a ∧ a.n < 250) : pilotRefDone r s = s := by
  rcases h with avg | ⟨a, avg, short⟩
  · simp only [pilotRefDone, avg]
  · simp only [pilotRefDone, avg, if_pos short]

/-- Settles O35: the row of a judged window is its judgement, then the check of the inputs, which leaves the run but for
an average. -/
theorem pilotIsJudgedAndReferenced : Obligations.PilotIsJudgedAndReferenced := by
  unfold Obligations.PilotIsJudgedAndReferenced
  intro r s p
  refine ⟨fun idle => gives_of_done (congrArg done (pilotResult_idle idle)), fun l v cut rest on waiting =>
    ⟨?_, ?_⟩, fun rq rt hs hv key hr => answers_of_body rfl hs (bodyPilotRef_ok hv key hr) (State.modRun_sent s r _ _),
    fun a avg full => givesBooked_of_done rfl (pilotRefDone_full avg full),
    fun short => gives_of_done (congrArg done (pilotRefDone_short short))⟩
  · rintro rfl
    exact gives_of_done (congrArg done (pilotResult_cut on waiting))
  · rintro rfl
    let taken : Pilot := { p with lift := some l, vib := some v, results := rest }
    let judged : State := s.pilotJudged r (judgePilot s l v taken) l v
    have checked : InputsChecked r judged (checkInputs r judged) := checkInputs_checked r judged
    have noted := flushNotes_talked (checkInputs r judged)
    obtain ⟨avg, run⟩ := checked.run
    rw [State.pilotJudged_run] at run
    have raised : (flushNotes (checkInputs r judged)).ev.raised = judged.ev.raised := by rw [noted.1, checked.ev]
    refine ⟨flushNotes (checkInputs r judged), congrArg done (pilotResult_judged on waiting), ?_⟩
    rw [noted.runs, raised, run, noted.stands.2.1]
    refine ⟨rfl, rfl, rfl, rfl, rfl, fun out second => ?_, fun lift vib sound refLift refVib => ?_, fun q h => ?_, ?_⟩
    · obtain ⟨loss, bad⟩ := judgePilot_loss (p := taken) v out second
      exact ⟨loss, if_pos bad, fun first => congrArg (s.ev.raised ++ ·) (if_pos ⟨loss, first⟩)⟩
    · have ok := judgePilot_ok (p := taken) lift vib sound refLift refVib
      refine ⟨ok, ?_⟩
      have quiet : ¬ ((judgePilot s l v taken).status = .loss ∧ p.status ≠ .loss) := by simp [ok]
      exact (congrArg (s.ev.raised ++ ·) (if_neg quiet)).trans (List.append_nil _)
    · rw [checked.others q h]
      exact s.pilotJudged_other r _ l v q h
    · exact checked.talked.trans noted

end Sys2Proof.Machine
end

section
/-! PROOFS. The edits of a machine's draft program, its reset and the tilt reference (R174, R177, R178, R182). -/

namespace Sys2Proof.Machine

/-- The lines have no part in the event engine. -/
theorem line_withEv (s : State) (e : Events) (l : Line) : ({ s with ev := e } : State).line l = s.line l := by
  cases l <;> rfl

/-- What a line has been sent is no business of a machine. -/
theorem State.modMachine_sent (s : State) (i : Fin 8) (f : StMachine → StMachine) (l : Line) :
    ((s.modMachine i f).line l).sent = (s.line l).sent := congrArg LineSt.sent (line_withEv s _ l)

/-- What a word is read from is a hexadecimal number (R182). -/
theorem parseHex_of_wordOf {t : String} {w : Nat} (h : wordOf t = .ok w) : (parseHex t).isSome = true := by
  cases hx : parseHex t with
  | none => simp [wordOf, hexField, hx, want] at h
  | some n => rfl

/-! ## Outcomes of the bodies -/

section Machine
variable {rq : Req} {s : State} {i : Fin 8} {mt : String} (hv : s.serving = true) (hi : machineField mt = .ok i)
  (key : sealOk s rq.line (smSeal i) = true)
include hv hi key

theorem bodySmWord_ok {st tt wt : String} {a b w : Nat} (ha : countField 0 31 st = .ok a) (hb : countField 0 3 tt = .ok b)
    (hw : wordOf wt = .ok w) : bodySmWord rq [mt, st, tt, wt] s = .ok
      (s.modMachine i fun m => { m with draft := store 0 m.draft (a * 4 + b) (storedTrans w) },
      [spaced ["ok do sm.word", machineText i, natText a, natText b, hexText 8 (storedTrans w).toNat]]) := by
  simp only [bodySmWord, parseDec_of_countField ha, parseDec_of_countField hb, parseHex_of_wordOf hw, Bool.and_self,
    hi, ha, hb, hw, key, served_serving hv, need_true, ok_bind]

theorem bodySmAct_ok {it wt : String} {a w : Nat} (ha : countField 0 63 it = .ok a) (hw : wordOf wt = .ok w) :
    bodySmAct rq [mt, it, wt] s = .ok
      (s.modMachine i fun m => { m with draft := store 0 m.draft (128 + a) (storedAct i w) },
      [spaced ["ok do sm.act", machineText i, natText a, hexText 8 (storedAct i w).toNat]]) := by
  simp only [bodySmAct, parseDec_of_countField ha, parseHex_of_wordOf hw, Bool.and_self, hi, ha, hw, key,
    served_serving hv, need_true, ok_bind]

theorem bodySmFactory_ok : bodySmFactory rq [mt] s = .ok
    (s.modMachine i fun m => { m with draft := shippedProgram i.val }, ["ok do sm.factory " ++ machineText i]) := by
  simp only [bodySmFactory, hi, key, served_serving hv, need_true, ok_bind]

theorem bodySmReset_ok : bodySmReset rq [mt] s = .ok
    (s.modMachine i fun m => { m with resetNext := true }, ["ok do sm.reset " ++ machineText i]) := by
  simp only [bodySmReset, hi, key, served_serving hv, need_true, ok_bind]

end Machine

/-- The tilt reference is the vector of the last wake; without one, that of the next is asked for (R174, log 95). -/
def State.turnReferred (s : State) : State := { s with ev := { s.ev with
  tiltRef := if s.ev.tiltVec.isSome then s.ev.tiltVec else s.ev.tiltRef
  tiltWait := s.ev.tiltVec.isNone
  tiltArmed := true } }

theorem bodyTurnRef_ok {rq : Req} {s : State} (hv : s.serving = true) (key : sealOk s rq.line .m = true) :
    bodyTurnRef rq [] s = .ok (auditLine rq.line 0x0D 0 0x6032 0 0 s.turnReferred, ["ok do turn.ref"]) := by
  simp only [bodyTurnRef, needMetrology, decide_true, key, served_serving hv, need_true, ok_bind]
  cases vec : s.ev.tiltVec
  all_goals simp [State.turnReferred, vec]

/-- Settles O38: the outcome of each body, none of which speaks on a line. -/
theorem programsAreEditedInDraft : Obligations.ProgramsAreEditedInDraft := by
  unfold Obligations.ProgramsAreEditedInDraft
  refine fun rq s hs hv => ⟨fun i mt hi key => ⟨fun st tt wt a b w ha hb hw => ?_, fun it wt a w ha hw => ?_, ?_, ?_⟩,
    fun key => ?_⟩
  · exact answers_of_body rfl hs (bodySmWord_ok hv hi key ha hb hw) (s.modMachine_sent i _ _)
  · exact answers_of_body rfl hs (bodySmAct_ok hv hi key ha hw) (s.modMachine_sent i _ _)
  · exact answers_of_body rfl hs (bodySmFactory_ok hv hi key) (s.modMachine_sent i _ _)
  · exact answers_of_body rfl hs (bodySmReset_ok hv hi key) (s.modMachine_sent i _ _)
  · refine booked_of_body rfl hs (bodyTurnRef_ok hv key) ?_ (auditLine_booked ..)
    rw [auditLine_line, State.turnReferred, line_withEv]

end Sys2Proof.Machine
end

section
/-! PROOFS. The recognisers (R169 ... R174): what each row makes of the oldest find. -/

namespace Sys2Proof.Machine

/-! ## The recogniser of a run -/

theorem State.modRecog_recog (s : State) (r : Run) (f : RecogRun → RecogRun) :
    (s.modRecog r f).runs[r].recog = f s.runs[r].recog := congrArg RunSt.recog (s.modRun_run r _)

theorem State.modRecog_modRecog (s : State) (r : Run) (f g : RecogRun → RecogRun) :
    (s.modRecog r f).modRecog r g = s.modRecog r (g ∘ f) := by
  simp only [State.modRecog, State.modRun_modRun]
  rfl

/-- An update counts by what it makes of the recogniser as it stands. -/
theorem State.modRecog_congr {s : State} {r : Run} {f g : RecogRun → RecogRun}
    (h : f s.runs[r].recog = g s.runs[r].recog) : s.modRecog r f = s.modRecog r g := by
  simp only [State.modRecog, State.modRun, h]

/-! ## HAMMER -/

section Hammer
variable {s : State} {r : Run} {began peak us : Nat} {rest : List (Nat × Nat × Nat)}
  (found : s.runs[r].recog.hammers = (began, peak, us) :: rest)
include found

theorem hammerAction_raises (on : measuring s = true) (free : hammerFree s r began = true) :
    hammerAction r s = raiseEvent (0x10 + r.val) (r.val + 1) peak us 0 0
      (s.modRecog r fun c => { c with hammers := rest, hammer := some began }) := by
  simp only [hammerAction, found, on, free, Bool.and_self, if_true]

theorem hammerAction_drops (h : measuring s = false ∨ hammerFree s r began = false) :
    hammerAction r s = s.modRecog r fun c => { c with hammers := rest } := by
  have silent : ¬(measuring s && hammerFree s r began) = true := by
    rcases h with off | dead
    · simp [off]
    · simp [dead]
  simp only [hammerAction, found, if_neg silent]

end Hammer

/-! ## CADENCE -/

section Cadence
variable {s : State} {r : Run} {rest : List CadenceInput}

/-- Outside RUN and SAFE, and with cadence off, a find is only taken (R170). -/
theorem cadenceAction_off {e : CadenceInput} (found : s.runs[r].recog.beats = e :: rest)
    (h : measuring s = false ∨ pget s (rp r 0x510) = 0) :
    cadenceAction r s = s.modRecog r fun c => { c with beats := rest } := by
  simp only [cadenceAction, found]
  refine if_neg fun works => ?_
  obtain ⟨on, used⟩ := works
  rcases h with off | unused
  · exact Bool.false_ne_true (off.symm.trans on)
  · exact used unused

/-- A cadence that was on ends with its last figures (Table 8.1). -/
theorem cadenceOff_on {p g : Nat} (running : s.runs[r].recog.cadOn = true)
    (last : s.runs[r].recog.cadence = some (p, g)) :
    cadenceOff r s = raiseEvent (0x1C + r.val) (r.val + 1) p g 1 0 (s.modRecog r fun c => { c with cadOn := false }) := by
  simp only [cadenceOff, running, last, if_true, Option.getD_some]

variable (on : measuring s = true) (used : pget s (rp r 0x510) ≠ 0)
include on used

/-- A discarded interval breaks the train (R170). -/
theorem cadenceAction_discarded {x : Nat} (found : s.runs[r].recog.beats = .interval x false :: rest) :
    cadenceAction r s = s.modRecog r fun c => { c with beats := rest, ivls := [] } := by
  simp only [cadenceAction, found]
  exact (if_pos ⟨on, used⟩).trans (s.modRecog_modRecog r _ _)

/-- A missing pulse ends a cadence that was on (R170). -/
theorem cadenceAction_missing {p g : Nat} (found : s.runs[r].recog.beats = .noPulse :: rest)
    (running : s.runs[r].recog.cadOn = true) (last : s.runs[r].recog.cadence = some (p, g)) :
    cadenceAction r s = raiseEvent (0x1C + r.val) (r.val + 1) p g 1 0
      (s.modRecog r fun c => { c with beats := rest, ivls := [], cadOn := false }) := by
  let taken : State := s.modRecog r fun c => { c with beats := rest }
  have recog : taken.runs[r].recog = { s.runs[r].recog with beats := rest } := s.modRecog_recog r _
  have ended := cadenceOff_on (s := taken) (by rw [recog]; exact running) (by rw [recog]; exact last)
  calc cadenceAction r s = (cadenceOff r taken).modRecog r fun c => { c with ivls := [] } := by
        simp only [cadenceAction, found]
        exact if_pos ⟨on, used⟩
    _ = raiseEvent (0x1C + r.val) (r.val + 1) p g 1 0 ((taken.modRecog r fun c => { c with cadOn := false }).modRecog r
        fun c => { c with ivls := [] }) := congrArg (fun t => State.modRecog t r fun c => { c with ivls := [] }) ended
    _ = _ := congrArg (raiseEvent _ _ _ _ _ _)
        ((taken.modRecog_modRecog r _ _).trans (s.modRecog_modRecog r _ _))

section Interval
variable {x : Nat} (found : s.runs[r].recog.beats = .interval x true :: rest)
  (least : 1000 * pnat s (rp r 0x512) ≤ x) (most : x ≤ 1000 * pnat s (rp r 0x513))
include found least most

/-- Fewer than eight intervals in a row give no figures yet (R170). -/
theorem cadenceAction_few (few : s.runs[r].recog.ivls.length < 7) : cadenceAction r s =
    s.modRecog r fun c => { c with beats := rest, ivls := (x :: s.runs[r].recog.ivls).take 8 } := by
  have within : ¬(x < 1000 * pnat s (rp r 0x512) ∨ 1000 * pnat s (rp r 0x513) < x) := by omega
  have short : ((x :: s.runs[r].recog.ivls).take 8).length < 8 := by
    simp only [List.length_take, List.length_cons]
    omega
  simp only [cadenceAction, found]
  refine (if_pos ⟨on, used⟩).trans ((if_neg within).trans ?_)
  simp only [State.modRecog_recog, if_pos short]
  exact s.modRecog_modRecog r _ _

/-- The eighth interval in a row switches on a cadence whose regularity lies within its band (R170). -/
theorem cadenceAction_on (many : 7 ≤ s.runs[r].recog.ivls.length) (idle : s.runs[r].recog.cadOn = false)
    (even : regularity ((x :: s.runs[r].recog.ivls).take 8) ≤ 10 * pnat s (rp r 0x514)) :
    let xs := (x :: s.runs[r].recog.ivls).take 8
    let p := (roundDiv (xs.sum : Nat) 8).toNat
    cadenceAction r s = raiseEvent (0x18 + r.val) (r.val + 1) p (regularity xs) 1 0 (s.modRecog r fun c => { c with
      beats := rest, ivls := xs, cadence := some (p, regularity xs), cadOn := true }) := by
  intro xs p
  have within : ¬(x < 1000 * pnat s (rp r 0x512) ∨ 1000 * pnat s (rp r 0x513) < x) := by omega
  have full : ¬((x :: s.runs[r].recog.ivls).take 8).length < 8 := by
    simp only [List.length_take, List.length_cons]
    omega
  simp only [cadenceAction, found]
  refine (if_pos ⟨on, used⟩).trans ((if_neg within).trans ?_)
  simp only [State.modRecog_modRecog, State.modRecog_recog, if_neg full, Function.comp_apply]
  exact if_pos ⟨idle, even⟩

end Interval

end Cadence

/-! ## RELEASE_FALL, TURN_ROT -/

theorem releaseFall_raises {s : State} {below lowest : Nat} {rest : List (Nat × Nat)}
    (found : s.ev.falls = (below, lowest) :: rest) (on : measuring s = true) :
    releaseFall s = raiseEvent 0x20 0 below lowest 2 0 { s with ev := { s.ev with falls := rest, fallAt := s.ck.mono } } := by
  simp only [releaseFall, found, on, if_true]

theorem releaseFall_drops {s : State} {f : Nat × Nat} {rest : List (Nat × Nat)} (found : s.ev.falls = f :: rest)
    (off : measuring s = false) : releaseFall s = { s with ev := { s.ev with falls := rest } } := by
  simp only [releaseFall, found, off, Bool.false_eq_true, if_false]

theorem turnRot_raises {s : State} {a : Nat} {rest : List Nat} (found : s.ev.turns = a :: rest) (on : measuring s = true) :
    turnRot s = raiseEvent 0x28 0 a 0 3 0 { s with ev := { s.ev with turns := rest } } := by
  simp only [turnRot, found, on, if_true]

theorem turnRot_drops {s : State} {a : Nat} {rest : List Nat} (found : s.ev.turns = a :: rest) (off : measuring s = false) :
    turnRot s = { s with ev := { s.ev with turns := rest } } := by
  simp only [turnRot, found, off, Bool.false_eq_true, if_false]

/-! ## RELEASE -/

section Release
variable {s : State} {r : Run} {rms : Nat} {rest : List (Nat × Bool)}

/-- A second that is not judged is only taken (R172). -/
theorem releaseAction_unjudged {judged : Bool} (found : s.runs[r].recog.windows = (rms, judged) :: rest)
    (h : measuring s = false ∨ judged = false) :
    releaseAction r s = s.modRecog r fun c => { c with windows := rest } := by
  simp only [releaseAction, found]
  refine if_neg fun works => ?_
  obtain ⟨on, taken⟩ := works
  rcases h with off | cut
  · exact Bool.false_ne_true (off.symm.trans on)
  · exact Bool.false_ne_true (cut.symm.trans taken)

/-- The vibration falls below its share of a reference above the floor, after a high second; a low second leaves the
reference (R172). -/
theorem releaseAction_fires (found : s.runs[r].recog.windows = (rms, true) :: rest) (on : measuring s = true)
    (fallen : 100 * rms < pnat s (rp r 0x520) * s.runs[r].recog.relRef) (before : s.runs[r].recog.relHigh = true)
    (floor : releaseFloor s r < s.runs[r].recog.relRef) (low : 2 * rms < s.runs[r].recog.relRef) :
    releaseAction r s = raiseEvent (0x24 + r.val) (r.val + 1)
      (roundDiv (rms * 1000 : Nat) s.runs[r].recog.relRef) (roundDiv s.runs[r].recog.relRef 1000) 2 0
      (s.modRecog r fun c => { c with windows := rest, relHigh := false }) := by
  simp only [releaseAction, found]
  refine (if_pos ⟨on, rfl⟩).trans ?_
  have fires : (decide (100 * rms < pnat s (rp r 0x520) * s.runs[r].recog.relRef) && s.runs[r].recog.relHigh
      && decide (releaseFloor s r < s.runs[r].recog.relRef)) = true := by
    simp only [fallen, before, floor, decide_true, Bool.and_self]
  simp only [State.modRecog_modRecog, State.modRecog_recog, low.not_ge, decide_false, Bool.false_eq_true, if_false]
  exact (if_pos fires).trans (congrArg (raiseEvent _ _ _ _ _ _) (State.modRecog_congr rfl))

end Release

/-! ## TURN_TILT -/

theorem tiltTakes_off {s : State} (off : measuring s = false) (a : Nat) : tiltTakes a s = s :=
  if_neg fun on => Bool.false_ne_true (off.symm.trans on)

/-- Outside RUN and SAFE, without both vectors, or while the axis paths carry no gravity there is no test (R174). -/
theorem turnTilt_untested {s : State} (due : s.ev.tiltDue = true)
    (h : measuring s = false ∨ s.ev.tiltVec = none ∨ s.ev.tiltRef = none ∨ pget s 0x6F01 ≠ 0) :
    turnTilt s = { s with ev := { s.ev with tiltDue := false } } := by
  refine (if_pos due).trans ?_
  rcases h with off | none | none | blind
  · split
    · extract_lets _ taken
      exact (ite_congr rfl (fun _ => tiltTakes_off (s := taken) off _) fun _ => rfl).trans (ite_self taken)
    · rfl
  · rw [none]
  · rw [none]
    cases s.ev.tiltVec
    all_goals rfl
  · split
    · exact if_neg blind
    · rfl

theorem turnTilt_tested {s : State} {v w : Vector Int 3} (due : s.ev.tiltDue = true) (vec : s.ev.tiltVec = some v)
    (ref : s.ev.tiltRef = some w) (gravity : pget s 0x6F01 = 0) :
    turnTilt s = tiltTakes (tiltTenths v w) { s with ev := { s.ev with tiltDue := false } } := by
  refine (if_pos due).trans ?_
  rw [vec, ref]
  exact if_pos gravity

section Angle
variable {s : State} {a : Nat} (on : measuring s = true)
include on

/-- Above the threshold, armed: the event is raised and the test disarmed (R174). -/
theorem tiltTakes_above (armed : s.ev.tiltArmed = true) (above : pnat s 0x6030 < a) :
    tiltTakes a s = raiseEvent 0x29 0 a 0 3 0 { s with ev := { s.ev with tilt := some a, tiltArmed := false } } := by
  have far : ¬10 * a < 8 * pnat s 0x6030 := by omega
  simp only [tiltTakes, on, armed, above, far, and_self, if_true, if_false]

/-- Up to the threshold the angle is reported; below 0.8 of it the test is armed (R174). -/
theorem tiltTakes_within (within : a ≤ pnat s 0x6030) :
    tiltTakes a s = { s with ev := { s.ev with
      tilt := some a, tiltArmed := s.ev.tiltArmed || decide (10 * a < 8 * pnat s 0x6030) } } := by
  simp only [tiltTakes, on, within.not_gt, and_false, if_true, if_false]
  by_cases near : 10 * a < 8 * pnat s 0x6030
  all_goals simp [near]

end Angle

/-- Settles O40: a row without a find changes nothing, and with one it is the outcome of its oldest. -/
theorem recognisersRaiseTheirEvents : Obligations.RecognisersRaiseTheirEvents := by
  unfold Obligations.RecognisersRaiseTheirEvents
  intro s raised
  refine ⟨fun r => ⟨fun none => ?_, fun none => ?_, fun none => ?_, fun none => ?_, fun none => ?_, fun idle => ?_⟩,
    fun r began peak us rest found => ⟨fun on free => ?_, fun h => ?_⟩,
    fun r e rest found => ?_,
    fun b l rest found => ⟨fun on => ?_, fun off => ?_⟩,
    fun r rms judged rest found => ?_,
    fun a rest found => ⟨fun on => ?_, fun off => ?_⟩,
    fun v w due vec ref gravity on => ⟨fun armed above => ?_, fun within => ?_⟩,
    fun h due => congrArg Host.Outcome.next (turnTilt_untested due h)⟩
  · exact congrArg Host.Outcome.next (by simp only [hammerAction, none])
  · exact congrArg Host.Outcome.next (by simp only [cadenceAction, none])
  · exact congrArg Host.Outcome.next (by simp only [releaseAction, none])
  · exact congrArg Host.Outcome.next (by simp only [releaseFall, none])
  · exact congrArg Host.Outcome.next (by simp only [turnRot, none])
  · exact congrArg Host.Outcome.next (if_neg (by simp [idle]))
  · exact congrArg Host.Outcome.next (hammerAction_raises found on free)
  · exact congrArg Host.Outcome.next (hammerAction_drops found h)
  · refine ⟨fun off => congrArg Host.Outcome.next (cadenceAction_off found off), fun on used => ⟨?_, ?_, ?_⟩⟩
    · rintro x rfl
      exact congrArg Host.Outcome.next (cadenceAction_discarded on used found)
    · rintro x rfl least most xs p
      exact ⟨fun few => congrArg Host.Outcome.next (cadenceAction_few on used found least most few),
        fun many idle even => congrArg Host.Outcome.next (cadenceAction_on on used found least most many idle even)⟩
    · rintro p g rfl running last
      exact congrArg Host.Outcome.next (cadenceAction_missing on used found running last)
  · exact congrArg Host.Outcome.next (releaseFall_raises found on)
  · exact congrArg Host.Outcome.next (releaseFall_drops found off)
  · intro c
    refine ⟨fun off => congrArg Host.Outcome.next (releaseAction_unjudged found off), ?_⟩
    rintro on rfl fallen before floor low
    exact congrArg Host.Outcome.next (releaseAction_fires found on fallen before floor low)
  · exact congrArg Host.Outcome.next (turnRot_raises found on)
  · exact congrArg Host.Outcome.next (turnRot_drops found off)
  · exact congrArg Host.Outcome.next ((turnTilt_tested due vec ref gravity).trans
      (tiltTakes_above (s := { s with ev := { s.ev with tiltDue := false } }) on armed above))
  · exact congrArg Host.Outcome.next ((turnTilt_tested due vec ref gravity).trans
      (tiltTakes_within (s := { s with ev := { s.ev with tiltDue := false } }) on within))

end Sys2Proof.Machine
end

section
/-! PROOFS. The tick of the event engine (R164, R176 ... R183): what the steps of a tick can change, and the states of the
machines behind it. -/

namespace Sys2Proof.Machine

/-! ## What a tick can change -/

/-- `t` is `s` but for the event engine, the pulse outputs, the channels, the pattern, the wakefulness of the fast domain,
and booking (R180, R181, R183). -/
def Ticked (s t : State) : Prop := Booked { s with
  ev := t.ev, io := { s.io with po := t.io.po }, ga := { s.ga with chans := t.ga.chans }
  mx := { s.mx with beep := t.mx.beep }, pw := { s.pw with pass := t.pw.pass } } t

theorem Ticked.refl (s : State) : Ticked s s := ⟨rfl, rfl, rfl⟩

theorem Ticked.trans {s t u : State} (a : Ticked s t) (b : Ticked t u) : Ticked s u := by
  obtain ⟨a1, a2, a3⟩ := a
  obtain ⟨b1, b2, b3⟩ := b
  refine ⟨?_, LineSt.talks_trans a2 b2, LineSt.talks_trans a3 b3⟩
  rw [b1, a1]

theorem Ticked.foldl {α : Type} (g : State → α → State) (hg : ∀ s a, Ticked s (g s a)) (xs : List α) (s : State) :
    Ticked s (xs.foldl g s) :=
  List.foldlRecOn xs g (Ticked.refl s) fun _ h x _ => h.trans (hg _ x)

theorem Booked.ticked {s t : State} (h : Booked s t) : Ticked s t := by
  obtain ⟨h1, h2, h3⟩ := h
  refine ⟨?_, h2, h3⟩
  rw [h1]

theorem Booked.ev {s t : State} (h : Booked s t) : t.ev = s.ev := by rw [h.1]

/-- A plain update of what a tick can change. -/
theorem ticked_plain (s : State) (e : Events) (po : Vector Po 4) (chans : Vector Chan 8) (beep : Option (Nat × Bool × Nat))
    (pass : Pass) : Ticked s { s with
      ev := e, io := { s.io with po := po }, ga := { s.ga with chans := chans }, mx := { s.mx with beep := beep }
      pw := { s.pw with pass := pass } } := ⟨rfl, rfl, rfl⟩

theorem ticked_ev (s : State) (e : Events) : Ticked s { s with ev := e } :=
  ticked_plain s e s.io.po s.ga.chans s.mx.beep s.pw.pass

/-! ## Where events go -/

/-- `t` is `s` but for the counts of events by code, the count of lost events, and booking (R183). -/
def Published (s t : State) : Prop := Booked { s with ev := { s.ev with
  rateSec := t.ev.rateSec, rates := t.ev.rates, lost := t.ev.lost } } t

theorem Published.refl (s : State) : Published s s := ⟨rfl, rfl, rfl⟩

theorem Published.trans {s t u : State} (a : Published s t) (b : Published t u) : Published s u := by
  obtain ⟨a1, a2, a3⟩ := a
  obtain ⟨b1, b2, b3⟩ := b
  refine ⟨?_, LineSt.talks_trans a2 b2, LineSt.talks_trans a3 b3⟩
  rw [b1, a1]

theorem Published.foldl {α : Type} (g : State → α → State) (hg : ∀ s a, Published s (g s a)) (xs : List α) (s : State) :
    Published s (xs.foldl g s) :=
  List.foldlRecOn xs g (Published.refl s) fun _ h x _ => h.trans (hg _ x)

theorem Published.ticked {s t : State} (h : Published s t) : Ticked s t := (ticked_ev s _).trans (Booked.ticked h)

theorem Booked.published {s t : State} (h : Booked s t) : Published s t := by
  obtain ⟨h1, h2, h3⟩ := h
  refine ⟨?_, h2, h3⟩
  rw [h1]

/-- Publishing leaves the machines, the events and posts that wait, the LEVELs, and what conditions read. -/
structure Published.Stands (s t : State) : Prop where
  machines : t.ev.machines = s.ev.machines
  raised : t.ev.raised = s.ev.raised
  posts : t.ev.posts = s.ev.posts
  levels : t.ev.levels = s.ev.levels
  cm : t.cm = s.cm
  io : t.io = s.io
  pw : t.pw = s.pw

theorem Published.stands {s t : State} (h : Published s t) : Stands s t := by
  constructor
  all_goals rw [h.1]

theorem published_counts (s : State) (sec : Nat) (rates : List (Nat × Nat)) (lost : Word) :
    Published s { s with ev := { s.ev with rateSec := sec, rates := rates, lost := lost } } := ⟨rfl, rfl, rfl⟩

theorem eventPacket_published (e : Event) (s : State) : Published s (eventPacket e s) :=
  iteInduction (fun _ => published_counts s s.ev.rateSec s.ev.rates (s.ev.lost + 1)) fun _ => (packet_booked ..).published

theorem eventNote_booked (e : Event) (s : State) : Booked s (eventNote e s) :=
  Booked.trans (ite_booked (noteTo_talked .host _ s).booked (Booked.refl s))
    (ite_booked (noteTo_talked .service _ _).booked (Booked.refl _))

theorem publish_published (s : State) (e : Event) : Published s (publish s e) :=
  (published_counts s s.ev.rateSec _ s.ev.lost).trans (iteInduction
    (fun _ => ((appendRing_booked ..).published.trans (eventPacket_published e _)).trans (eventNote_booked e _).published)
    fun _ => Published.refl _)

theorem flushRates_published (s : State) : Published s (flushRates s) :=
  (Published.foldl _ (fun _ _ => (ite_booked (appendRing_booked ..) (Booked.refl _)).published) _ s).trans
    (published_counts _ (nowSec s) [] _)

theorem closeRates_published (s : State) : Published s (closeRates s) :=
  iteInduction (fun _ => Published.refl s) fun _ => flushRates_published s

/-! ## Actions -/

theorem State.modMachine_other (s : State) (i j : Fin 8) (f : StMachine → StMachine) (h : j ≠ i) :
    (s.modMachine i f).ev.machines[j] = s.ev.machines[j] := by
  have apart : i.val ≠ j.val := fun e => h (Fin.ext e.symm)
  simp [State.modMachine, apart]

/-- A step within a tick that leaves the events raised, and the live programs. -/
structure Ran (s t : State) : Prop where
  frame : Ticked s t
  raised : t.ev.raised = s.ev.raised
  live : ∀ i : Fin 8, t.ev.machines[i].live = s.ev.machines[i].live

/-- A step within a tick that moves no machine either. -/
structure Acted (s t : State) : Prop extends Ran s t where
  st : ∀ i : Fin 8, t.ev.machines[i].st = s.ev.machines[i].st

theorem Ran.refl (s : State) : Ran s s := ⟨Ticked.refl s, rfl, fun _ => rfl⟩

theorem Ran.trans {s t u : State} (a : Ran s t) (b : Ran t u) : Ran s u :=
  ⟨a.frame.trans b.frame, b.raised.trans a.raised, fun i => (b.live i).trans (a.live i)⟩

theorem Ran.foldl {α : Type} (g : State → α → State) (hg : ∀ s a, Ran s (g s a)) (xs : List α) (s : State) :
    Ran s (xs.foldl g s) :=
  List.foldlRecOn xs g (Ran.refl s) fun _ h x _ => h.trans (hg _ x)

theorem Acted.refl (s : State) : Acted s s := ⟨Ran.refl s, fun _ => rfl⟩

theorem Acted.trans {s t u : State} (a : Acted s t) (b : Acted t u) : Acted s u :=
  ⟨a.toRan.trans b.toRan, fun i => (b.st i).trans (a.st i)⟩

theorem Acted.foldl {α : Type} (g : State → α → State) (hg : ∀ s a, Acted s (g s a)) (xs : List α) (s : State) :
    Acted s (xs.foldl g s) :=
  List.foldlRecOn xs g (Acted.refl s) fun _ h x _ => h.trans (hg _ x)

theorem Acted.ite {s a b : State} {c : Prop} [Decidable c] (ha : Acted s a) (hb : Acted s b) : Acted s (if c then a else b) :=
  iteInduction (fun _ => ha) fun _ => hb

/-- What leaves the event engine alone moves no machine. -/
theorem Ticked.acted {s t : State} (h : Ticked s t) (ev : t.ev = s.ev) : Acted s t :=
  ⟨⟨h, by rw [ev], fun i => by rw [ev]⟩, fun i => by rw [ev]⟩

theorem modMachine_ran (s : State) (i : Fin 8) (f : StMachine → StMachine) (live : ∀ m, (f m).live = m.live) :
    Ran s (s.modMachine i f) := by
  refine ⟨ticked_ev s _, rfl, fun j => ?_⟩
  by_cases h : j = i
  · rw [h, State.modMachine_machine, live]
  · rw [s.modMachine_other i j f h]

theorem modMachine_acted (s : State) (i : Fin 8) (f : StMachine → StMachine) (live : ∀ m, (f m).live = m.live)
    (st : ∀ m, (f m).st = m.st) : Acted s (s.modMachine i f) := by
  refine ⟨modMachine_ran s i f live, fun j => ?_⟩
  by_cases h : j = i
  · rw [h, State.modMachine_machine, st]
  · rw [s.modMachine_other i j f h]

theorem beep_acted (s : State) (b : Option (Nat × Bool × Nat)) : Acted s { s with mx := { s.mx with beep := b } } :=
  (ticked_plain s s.ev s.io.po s.ga.chans b s.pw.pass).acted rfl

theorem requestBeep_acted (code : Nat) (fromLine : Bool) (s : State) : Acted s (requestBeep code fromLine s).1 := by
  unfold requestBeep
  extract_lets wins
  split
  · exact beep_acted s _
  · exact Acted.refl s

theorem eventPulse_acted (x : Fin 4) (width : Nat) (s : State) : Acted s (eventPulse x width s) :=
  Acted.ite ((ticked_plain s s.ev _ s.ga.chans s.mx.beep s.pw.pass).acted rfl) (Acted.refl s)

theorem setFlag_acted (g : Channel) (flag : Nat) (s : State) : Acted s (setFlag g flag s) :=
  (ticked_plain s s.ev s.io.po _ s.mx.beep s.pw.pass).acted rfl

/-- Of the machines, an action word reaches timers, counter and demand line alone (Table 8.4). -/
theorem doAction_acted (i : Fin 8) (s : State) (w : Word) : Acted s (doAction i s w) := by
  unfold doAction
  extract_lets m timer
  split
  · exact ⟨⟨ticked_ev s _, rfl, fun _ => rfl⟩, fun _ => rfl⟩
  · exact (appendRing_booked ..).ticked.acted (appendRing_booked ..).ev
  · exact eventPulse_acted _ _ s
  · exact Acted.ite (modMachine_acted s i _ (fun _ => rfl) fun _ => rfl) (Acted.refl s)
  · exact setFlag_acted _ _ s
  · refine Acted.ite (requestBeep_acted _ _ s) ?_
    split
    · exact Acted.ite (beep_acted s none) (Acted.refl s)
    · exact Acted.refl s
  · exact modMachine_acted s i _ (fun _ => rfl) fun _ => rfl
  · exact modMachine_acted s i _ (fun _ => rfl) fun _ => rfl
  · exact modMachine_acted s i _ (fun _ => rfl) fun _ => rfl
  · exact Acted.refl s

/-! ## Transitions -/

/-- The machine moved by a transition word: it forgets the expiries, and a demand line set in a state that it leaves (R177,
R179). -/
def StMachine.move (w : Word) (m : StMachine) : StMachine :=
  { m with st := bits w 26 5, expired := Vector.replicate 2 false
           demand := if m.demand = some m.st ∧ bits w 26 5 ≠ m.st then none else m.demand }

/-- A transition is a move, then action words. -/
theorem takeTransition_acted (s : State) (i : Fin 8) (w : Word) :
    Acted (s.modMachine i (StMachine.move w)) (takeTransition s (i, w)) :=
  Acted.foldl (doAction i) (doAction_acted i) _ _

theorem takeTransition_ran (s : State) (q : Fin 8 × Word) : Ran s (takeTransition s q) :=
  (modMachine_ran s q.1 (StMachine.move q.2) fun _ => rfl).trans (takeTransition_acted s q.1 q.2).toRan

/-- A transition takes its machine to the state its word names (R177). -/
theorem takeTransition_same (s : State) (i : Fin 8) (w : Word) :
    (takeTransition s (i, w)).ev.machines[i].st = bits w 26 5 :=
  ((takeTransition_acted s i w).st i).trans (congrArg StMachine.st (s.modMachine_machine i _))

theorem takeTransition_other (s : State) {i j : Fin 8} (w : Word) (h : j ≠ i) :
    (takeTransition s (i, w)).ev.machines[j].st = s.ev.machines[j].st :=
  ((takeTransition_acted s i w).st j).trans (congrArg StMachine.st (s.modMachine_other i j _ h))

/-- The state of a machine after the transition that it takes, if any. -/
def stateAfter (st : Nat) : Option Word → Nat
  | some w => bits w 26 5
  | none => st

/-- Each machine takes the transition chosen for it (R164). -/
theorem transitions_st (choice : Fin 8 → Option Word) (i : Fin 8) (xs : List (Fin 8)) (s : State) :
    ((xs.filterMap fun j => (choice j).map fun w => (j, w)).foldl takeTransition s).ev.machines[i].st =
      if i ∈ xs then stateAfter s.ev.machines[i].st (choice i) else s.ev.machines[i].st := by
  induction xs generalizing s with
  | nil => rfl
  | cons j xs ih =>
    cases chosen : choice j with
    | none =>
      rw [List.filterMap_cons_none (by rw [chosen]; rfl), ih]
      by_cases h : i = j
      · simp only [h, chosen, stateAfter, ite_self]
      · simp only [List.mem_cons, h, false_or]
    | some w =>
      rw [List.filterMap_cons_some (by rw [chosen]; rfl), List.foldl_cons, ih]
      by_cases h : i = j
      · subst h
        simp only [takeTransition_same, chosen, stateAfter, ite_self, List.mem_cons_self, if_true]
      · simp only [takeTransition_other s w h, List.mem_cons, h, false_or]

/-! ## The tick -/

theorem adoptMachine_ticked (s : State) (i : Fin 8) : Ticked s (adoptMachine s i) :=
  iteInduction (fun _ => ticked_ev s _) fun _ => iteInduction (fun _ => ticked_ev s _) fun _ => Ticked.refl s

/-- Neither adopted nor reset, a machine stands (R182). -/
theorem adoptMachine_stands {s : State} {i : Fin 8} (adopt : s.ev.machines[i].adoptNext = false)
    (reset : s.ev.machines[i].resetNext = false) : adoptMachine s i = s := by
  simp only [adoptMachine, adopt, reset, Bool.false_eq_true, if_false]

/-- A LEVEL whose direction is off is off, and raises nothing (R175). -/
theorem levelStep_off {s : State} {i : Fin 8} (off : pget s (0x6101 + 0x10 * i.val) = 0) :
    levelStep s i = (⟨false, 0⟩, none) := by
  have direction : 0x6100 + 0x10 * i.val + 1 = 0x6101 + 0x10 * i.val := by omega
  simp only [levelStep, direction, off, if_true]

theorem auditResets_booked (s t : State) : Booked t (auditResets s t) :=
  Booked.foldl _ (fun _ _ => audit_booked ..) _ t

theorem passTick_eq (idle : Bool) (s : State) : passTick idle s = { s with
    pw := { s.pw with pass := (passTick idle s).pw.pass }
    ev := { s.ev with passRun := (passTick idle s).ev.passRun } } := by
  cases run : s.ev.passRun
  simp only [passTick, run]
  split_ifs
  all_goals rfl

theorem passTick_ticked (idle : Bool) (s : State) : Ticked s (passTick idle s) := by
  rw [passTick_eq]
  exact ticked_plain s _ s.io.po s.ga.chans s.mx.beep _

theorem passTick_raised (idle : Bool) (s : State) : (passTick idle s).ev.raised = s.ev.raised := by rw [passTick_eq]
theorem passTick_machines (idle : Bool) (s : State) : (passTick idle s).ev.machines = s.ev.machines := by rw [passTick_eq]

/-- The state behind the rates, adoptions and resets of a tick (R182, R183). -/
def State.adopted (s : State) : State := (List.finRange 8).foldl adoptMachine (closeRates s)

/-- The LEVELs over a tick, with their events (R175). -/
def State.leveled (s : State) : Vector (LevelSt × Option Event) 8 := Vector.ofFn fun i => levelStep s.adopted i

/-- The event set of a tick (R164). -/
def State.eventSet (s : State) : List Event :=
  s.adopted.ev.raised ++ s.leveled.toList.filterMap (·.2) ++ s.adopted.ev.posts

/-- The state in which a tick judges its conditions (R164). -/
def State.tickBegun (s : State) : State := { s.adopted with ev := { s.adopted.ev with
  raised := [], posts := [], levels := s.leveled.map (·.1), tickAt := some s.ck.mono } }

/-- The transitions of a tick (R164, R177). -/
def State.chosen (s : State) : List (Fin 8 × Word) :=
  (List.finRange 8).filterMap fun i => (chooseSlot s.tickBegun s.eventSet i).map fun w => (i, w)

/-- The state behind the events and transitions of a tick (R164). -/
def State.moved (s : State) : State := s.chosen.foldl takeTransition (s.eventSet.foldl publish s.tickBegun)

theorem eventTick_ticking {s : State} (h : ticking s = true) :
    ∃ idle, eventTick s = passTick idle (auditResets s s.moved) := by
  simp only [eventTick, if_pos h, State.moved, State.chosen, State.eventSet, State.tickBegun, State.leveled, State.adopted]
  exact ⟨_, rfl⟩

theorem tickBegun_ticked (s : State) : Ticked s s.tickBegun :=
  ((closeRates_published s).ticked.trans (Ticked.foldl _ adoptMachine_ticked _ _)).trans (ticked_ev _ _)

theorem published_begun (s : State) : Published s.tickBegun (s.eventSet.foldl publish s.tickBegun) :=
  Published.foldl _ publish_published _ _

theorem moved_ran (s : State) : Ran (s.eventSet.foldl publish s.tickBegun) s.moved :=
  Ran.foldl _ takeTransition_ran _ _

theorem eventTick_ticked {s : State} (h : ticking s = true) : Ticked s (eventTick s) := by
  obtain ⟨idle, steps⟩ := eventTick_ticking h
  rw [steps]
  exact (((tickBegun_ticked s).trans (published_begun s).ticked).trans (moved_ran s).frame).trans
    ((auditResets_booked s _).ticked.trans (passTick_ticked _ _))

theorem eventTick_raised {s : State} (h : ticking s = true) : (eventTick s).ev.raised = [] := by
  obtain ⟨idle, steps⟩ := eventTick_ticking h
  rw [steps, passTick_raised, (auditResets_booked s _).ev, (moved_ran s).raised,
    (published_begun s).stands.raised]
  rfl

theorem eventTick_machines {s : State} (h : ticking s = true) : (eventTick s).ev.machines = s.moved.ev.machines := by
  obtain ⟨idle, steps⟩ := eventTick_ticking h
  rw [steps, passTick_machines, (auditResets_booked s _).ev]

/-! ## A tick without adoption, reset or LEVEL -/

theorem condition_congr {s t : State} (levels : t.ev.levels = s.ev.levels) (io : t.io = s.io) (pw : t.pw = s.pw)
    (set : List Event) (m : StMachine) (cond op : Nat) : condition t set m cond op = condition s set m cond op := by
  simp only [condition, levels, io, pw]

/-- What a slot is chosen by: the machine, its switch, and what conditions read (Table 8.3). -/
theorem chooseSlot_congr {s t : State} (machines : t.ev.machines = s.ev.machines) (levels : t.ev.levels = s.ev.levels)
    (cm : t.cm = s.cm) (io : t.io = s.io) (pw : t.pw = s.pw) (set : List Event) (i : Fin 8) :
    chooseSlot t set i = chooseSlot s set i := by
  simp only [chooseSlot, pget, machines, cm, condition_congr levels io pw]
  rfl

section Plain
variable {s : State} (plain : ∀ i : Fin 8, s.ev.machines[i].adoptNext = false ∧ s.ev.machines[i].resetNext = false
  ∧ pget s (0x6101 + 0x10 * i.val) = 0 ∧ s.ev.levels[i] = ⟨false, 0⟩)
include plain

theorem adopted_plain : s.adopted = closeRates s := by
  have stands := (closeRates_published s).stands
  refine List.foldl_fixed' (fun i => ?_) (List.finRange 8)
  obtain ⟨adopt, reset, -, -⟩ := plain i
  exact adoptMachine_stands (by rw [stands.machines]; exact adopt) (by rw [stands.machines]; exact reset)

theorem leveled_plain (i : Nat) (hi : i < 8) : s.leveled[i] = (⟨false, 0⟩, none) := by
  obtain ⟨-, -, off, -⟩ := plain ⟨i, hi⟩
  rw [State.leveled, Vector.getElem_ofFn, adopted_plain plain]
  refine levelStep_off ?_
  rw [pget, (closeRates_published s).stands.cm]
  exact off

theorem levels_plain : s.tickBegun.ev.levels = s.ev.levels := by
  refine Vector.ext fun i hi => ?_
  obtain ⟨-, -, -, level⟩ := plain ⟨i, hi⟩
  calc (s.leveled.map (·.1))[i] = ⟨false, 0⟩ := by rw [Vector.getElem_map, leveled_plain plain i hi]
    _ = s.ev.levels[i] := level.symm

theorem eventSet_plain : s.eventSet = s.ev.raised ++ s.ev.posts := by
  have stands := (closeRates_published s).stands
  have silent : s.leveled.toList.filterMap (·.2) = [] := by
    refine List.filterMap_eq_nil_iff.mpr fun a ha => ?_
    obtain ⟨i, hi, rfl⟩ := List.getElem_of_mem ha
    rw [Vector.getElem_toList, leveled_plain plain]
  rw [State.eventSet, silent, List.append_nil, adopted_plain plain, stands.raised, stands.posts]

theorem chooseSlot_plain (set : List Event) (i : Fin 8) : chooseSlot s.tickBegun set i = chooseSlot s set i := by
  have stands := (closeRates_published s).stands
  refine chooseSlot_congr ?_ (levels_plain plain) ?_ ?_ ?_ set i
  all_goals simp only [State.tickBegun, adopted_plain plain]
  · exact stands.machines
  · exact stands.cm
  · exact stands.io
  · exact stands.pw

theorem begun_machines : (s.eventSet.foldl publish s.tickBegun).ev.machines = s.ev.machines := by
  rw [(published_begun s).stands.machines, State.tickBegun, adopted_plain plain]
  exact (closeRates_published s).stands.machines

theorem moved_st (i : Fin 8) :
    s.moved.ev.machines[i].st = stateAfter s.ev.machines[i].st (chooseSlot s (s.ev.raised ++ s.ev.posts) i) := by
  rw [State.moved, State.chosen, transitions_st, if_pos (List.mem_finRange i), begun_machines plain,
    chooseSlot_plain plain, eventSet_plain plain]

theorem moved_live (i : Fin 8) : s.moved.ev.machines[i].live = s.ev.machines[i].live := by
  rw [(moved_ran s).live, begun_machines plain]

end Plain

/-! ## The expiry of a timer -/

theorem smTimerExpiry_due {s : State} {i : Fin 8} {k : Fin 2} {e : Nat} (runs : s.ev.machines[i].timers[k] = some e)
    (due : e ≤ s.ck.mono) : smTimerExpiry i k s = wakeEvent (s.modMachine i fun m => { m with
      timers := m.timers.set k.val none k.isLt, expired := m.expired.set k.val true k.isLt }) := by
  simp only [smTimerExpiry, runs, if_pos due]

theorem smTimerExpiry_early {s : State} {i : Fin 8} {k : Fin 2}
    (early : ∀ e, s.ev.machines[i].timers[k] = some e → s.ck.mono < e) : smTimerExpiry i k s = s := by
  cases runs : s.ev.machines[i].timers[k] with
  | none => simp only [smTimerExpiry, runs]
  | some e => simp only [smTimerExpiry, runs, if_neg (early e runs).not_ge]

/-- Settles O37: a tick is its steps in order, each with what it can change; of the machines only transitions move any. -/
theorem eventTickRunsTheMachines : Obligations.EventTickRunsTheMachines := by
  unfold Obligations.EventTickRunsTheMachines
  refine fun s => ⟨fun idle => gives_of_done (congrArg done (if_neg (by simp [idle]))), fun h =>
    ⟨flushNotes (eventTick s), rfl, ?_, fun plain i => ?_, ?_⟩,
    fun i k e runs due => congrArg Host.Outcome.next (smTimerExpiry_due runs due),
    fun i k early => congrArg Host.Outcome.next (smTimerExpiry_early early)⟩
  · rw [(flushNotes_talked _).booked.ev]
    exact eventTick_raised h
  · rw [(flushNotes_talked _).booked.ev, eventTick_machines h]
    exact ⟨moved_live plain i, moved_st plain i⟩
  · exact (eventTick_ticked h).trans (flushNotes_talked _).booked.ticked

end Sys2Proof.Machine
end

section
/-! PROOFS. DROP (R197): the end of the open packet for the channel that holds it, and what it leaves of the queue. -/

namespace Sys2Proof.Machine

/-! ## One channel's business -/

/-- The channels other than `g` stand. -/
def OthersStand (g : Channel) (s t : State) : Prop := ∀ h : Channel, h ≠ g → t.ga.chans[h] = s.ga.chans[h]

theorem OthersStand.of_eq {g : Channel} {s t : State} (h : t.ga.chans = s.ga.chans) : OthersStand g s t :=
  fun k _ => congrArg (·[k]) h

theorem OthersStand.trans {g : Channel} {s t u : State} (a : OthersStand g s t) (b : OthersStand g t u) :
    OthersStand g s u := fun k hk => (b k hk).trans (a k hk)

theorem modChan_othersStand (s : State) (g : Channel) (f : Chan → Chan) : OthersStand g s (s.modChan g f) :=
  fun k hk => State.modChan_other s g k f hk

theorem setProg_chans (a : Nat) (w : Word) (s : State) : (setProg a w s).ga.chans = s.ga.chans := by
  unfold setProg
  split
  all_goals rfl

theorem setProg_line (a : Nat) (w : Word) (s : State) (l : Line) : (setProg a w s).line l = s.line l := by
  unfold setProg
  split
  all_goals rfl

theorem pushRing_chans (s : State) (ws : List Word) : (pushRing s ws).ga.chans = s.ga.chans := by
  unfold pushRing
  rfl

theorem pushRing_line (s : State) (ws : List Word) (l : Line) : (pushRing s ws).line l = s.line l := by
  cases l
  all_goals simp only [pushRing, State.line]

theorem modChan_line (s : State) (g : Channel) (f : Chan → Chan) (l : Line) : (s.modChan g f).line l = s.line l := by
  cases l
  all_goals rfl

/-- A record goes to the ring, or holds its channel until there is room (R217). -/
theorem post_cases (g : Channel) (kind status low : Nat) (w3 : Word) (s : State) :
    (∃ ws, post g kind status low w3 s = pushRing s ws)
    ∨ ∃ q, post g kind status low w3 s = s.modChan g fun c => { c with ringWait := some q } := by
  unfold post
  dsimp only
  split
  · exact .inl ⟨_, rfl⟩
  · exact .inr ⟨_, rfl⟩

theorem post_othersStand (g : Channel) (kind status low : Nat) (w3 : Word) (s : State) :
    OthersStand g s (post g kind status low w3 s) := by
  obtain ⟨ws, h⟩ | ⟨q, h⟩ := post_cases g kind status low w3 s
  · exact .of_eq (by rw [h, pushRing_chans])
  · rw [h]
    exact modChan_othersStand s g _

theorem post_pc (g : Channel) (kind status low : Nat) (w3 : Word) (s : State) :
    (post g kind status low w3 s).ga.chans[g].pc = s.ga.chans[g].pc := by
  obtain ⟨ws, h⟩ | ⟨q, h⟩ := post_cases g kind status low w3 s
  · rw [h, pushRing_chans]
  · rw [h, State.modChan_chan]

theorem post_line (g : Channel) (kind status low : Nat) (w3 : Word) (s : State) (l : Line) :
    (post g kind status low w3 s).line l = s.line l := by
  obtain ⟨ws, h⟩ | ⟨q, h⟩ := post_cases g kind status low w3 s
  · rw [h, pushRing_line]
  · rw [h, modChan_line]

/-! ## The end of a MOVE -/

/-- What the end of a MOVE writes or posts, ahead of the step behind its descriptor (R206, R216). -/
def State.moveReported (g : Channel) (status : Nat) (bad : Bool) (s : State) : State :=
  let c := s.ga.chans[g]
  let w0 := progWord s c.pc
  let st := if status = 0 ∧ c.shedMove then 2 else status
  if pget s (chanBase g + 6) = 1 then
    setProg c.pc (w0 &&& 0xF7FFFFFF)
      (setProg (c.pc + 3) (BitVec.ofNat 32 (2 ^ 31 + (if bad then 2 ^ 30 else 0) + st * 2 ^ 24 + c.moved % 65536)) s)
  else if bits w0 20 1 = 1 ∧ bad = false then post g 1 st c.moved 0 s else s

/-- A channel behind the descriptor of its MOVE. -/
def Chan.moveOver (c : Chan) : Chan := { c with pc := c.pc + 4, moved := 0, burst := 0, shedMove := false, st := .run }

theorem finishMove_eq (g : Channel) (status : Nat) (bad : Bool) (s : State) :
    finishMove g status bad s = (s.moveReported g status bad).modChan g Chan.moveOver := rfl

theorem moveReported_cases (g : Channel) (status : Nat) (bad : Bool) (s : State) :
    (∃ a b v w, s.moveReported g status bad = setProg a v (setProg b w s))
    ∨ (∃ st, s.moveReported g status bad = post g 1 st s.ga.chans[g].moved 0 s)
    ∨ s.moveReported g status bad = s := by
  unfold State.moveReported
  dsimp only
  split
  · exact .inl ⟨_, _, _, _, rfl⟩
  · split
    · exact .inr (.inl ⟨_, rfl⟩)
    · exact .inr (.inr rfl)

theorem finishMove_pc (g : Channel) (status : Nat) (bad : Bool) (s : State) :
    (finishMove g status bad s).ga.chans[g].pc = s.ga.chans[g].pc + 4 := by
  rw [finishMove_eq, State.modChan_chan]
  refine congrArg (· + 4) ?_
  obtain ⟨a, b, v, w, h⟩ | ⟨st, h⟩ | h := moveReported_cases g status bad s
  · rw [h, setProg_chans, setProg_chans]
  · rw [h, post_pc]
  · rw [h]

theorem finishMove_line (g : Channel) (status : Nat) (bad : Bool) (s : State) (l : Line) :
    (finishMove g status bad s).line l = s.line l := by
  rw [finishMove_eq, modChan_line]
  obtain ⟨a, b, v, w, h⟩ | ⟨st, h⟩ | h := moveReported_cases g status bad s
  · rw [h, setProg_line, setProg_line]
  · rw [h, post_line]
  · rw [h]

theorem finishMove_moved (g : Channel) (status : Nat) (bad : Bool) (s : State) :
    (finishMove g status bad s).ga.chans[g].moved = 0 := by
  rw [finishMove_eq, State.modChan_chan]
  rfl

theorem finishMove_othersStand (g : Channel) (status : Nat) (bad : Bool) (s : State) :
    OthersStand g s (finishMove g status bad s) := by
  rw [finishMove_eq]
  refine OthersStand.trans ?_ (modChan_othersStand _ g _)
  obtain ⟨a, b, v, w, h⟩ | ⟨st, h⟩ | h := moveReported_cases g status bad s
  · exact .of_eq (by rw [h, setProg_chans, setProg_chans])
  · rw [h]
    exact post_othersStand g _ _ _ _ s
  · exact .of_eq (by rw [h])

/-! ## The end of the open packet -/

/-- The queue without its open packet. -/
def State.portFreed (s : State) (p : ReadPort) : State :=
  State.settle p.left.length (s.modQueue fun q => { q with port := none })

theorem portFreed_queued (s : State) (p : ReadPort) : Queued s (s.portFreed p) :=
  (modQueue_queued s _).trans (settle_queued _ _)

section Open

variable {s : State} {p : ReadPort} (h : s.qu.port = some p)

include h

theorem endPacket_holding (moved : s.ga.chans[p.holder].moved ≠ 0) (port : fromPort s p.holder = true)
    (runs : s.ga.chans[p.holder].st ≠ .halt) : endPacket s = finishMove p.holder 1 false (s.portFreed p) := by
  simp only [endPacket, h]
  exact if_pos ⟨moved, port, runs⟩

/-- The packet's end is the port's, and where the holder is in the middle of a MOVE from it, that MOVE's (R197). -/
theorem endPacket_cases :
    endPacket s = s.portFreed p ∨ endPacket s = finishMove p.holder 1 false (s.portFreed p) := by
  simp only [endPacket, h]
  split
  · exact .inr rfl
  · exact .inl rfl

theorem endPacket_qu : (endPacket s).qu = (s.portFreed p).qu := by
  obtain e | e := endPacket_cases h
  · rw [e]
  · rw [e, finishMove_qu]

theorem endPacket_othersStand : OthersStand p.holder s (endPacket s) := by
  obtain e | e := endPacket_cases h
  · exact .of_eq (by rw [e, (portFreed_queued s p).ga])
  · rw [e]
    exact (OthersStand.of_eq (by rw [(portFreed_queued s p).ga])).trans (finishMove_othersStand _ _ _ _)

theorem endPacket_line (l : Line) : (endPacket s).line l = s.line l := by
  obtain e | e := endPacket_cases h
  · rw [e, (portFreed_queued s p).line]
  · rw [e, finishMove_line, (portFreed_queued s p).line]

theorem openWords_some : openWords s = p.left.length := by rw [openWords, h]

end Open

theorem endPacket_none {s : State} (h : s.qu.port = none) : endPacket s = s := by rw [endPacket, h]

theorem openWords_none {s : State} (h : s.qu.port = none) : openWords s = 0 := by rw [openWords, h]

/-! ## DROP -/

/-- The state that DROP leaves, the lines' talk apart. -/
def State.dropped (s : State) : State :=
  (endPacket s).modQueue fun q => { q with dropWords := q.dropWords + BitVec.ofNat 32 (openWords s) }

theorem bodyDrop_ok {rq : Req} {s : State} (hv : s.serving = true) :
    bodyDrop rq [] s = .ok (s.dropped, ["ok drop " ++ natText (openWords s)]) := by
  simp only [bodyDrop, decide_true, need_true, ok_bind, served_serving hv]
  rfl

theorem dropped_gathered (s : State) : Gathered s s.dropped :=
  (endPacket_freed s).1.trans (modQueue_queued _ _).gathered

theorem dropped_none {s : State} (h : s.qu.port = none) : s.dropped = s := by
  rw [State.dropped, endPacket_none h, openWords_none h]
  simp [State.modQueue]

theorem Talked.gathered {s t : State} (h : Talked s t) : Gathered s t := by
  obtain ⟨h1, host, service⟩ := h
  refine ⟨?_, ?_, host, service⟩
  all_goals rw [h1]

/-- Settles O56: DROP is the end of the open packet with its words counted, and a held MOVE ends as `finishMove` does. -/
theorem dropDiscardsTheOpenPacket : Obligations.DropDiscardsTheOpenPacket := by
  unfold Obligations.DropDiscardsTheOpenPacket
  refine fun rq s hs hv => ⟨fun p hp => ?_, fun none => ?_⟩
  · obtain ⟨t, ran, talked, more, sent⟩ := runLine_ok (rq := rq) (verb := "drop") hs (bodyDrop_ok hv)
    have qu : t.qu = { (s.portFreed p).qu with dropWords := s.qu.dropWords + BitVec.ofNat 32 p.left.length } := by
      rw [talked.qu, State.dropped, State.modQueue_qu, endPacket_qu hp, openWords_some hp]
      rfl
    have chans : t.ga.chans = (endPacket s).ga.chans := congrArg Gather.chans talked.ga
    have line : s.dropped.line rq.line = s.line rq.line :=
      ((modQueue_queued _ _).line _).trans (endPacket_line hp rq.line)
    rw [line, openWords_some hp] at sent
    refine ⟨t, ran, ⟨more, sent⟩, by rw [qu]; rfl, by rw [qu], by rw [qu]; rfl, by rw [qu]; rfl,
      fun moved port runs => ?_, (endPacket_othersStand hp).trans (.of_eq chans), (dropped_gathered s).trans talked.gathered⟩
    rw [chans, endPacket_holding hp moved port runs, finishMove_pc, finishMove_moved, (portFreed_queued s p).ga]
    exact ⟨rfl, rfl⟩
  · rw [← openWords_none none]
    exact answers_of_body rfl hs ((bodyDrop_ok hv).trans (by rw [dropped_none none])) rfl

end Sys2Proof.Machine
end

section
/-! PROOFS. What a MOVE can do (R191, R199, R203, R204, R206, R212, R218): each of its parts is the gather engine's business
alone, but for the queue reset behind an uncorrectable header word, which is booked. -/

namespace Sys2Proof.Machine

/-! ## The relation -/

/-- `Gathered`, and what the ledger writer did beside it. -/
def Engaged (s t : State) : Prop :=
  t = { s with
    host := t.host, service := t.service, ga := t.ga, qu := t.qu, mem := t.mem
    lg := { s.lg with gen := t.lg.gen, chains := t.lg.chains }
    sp := { s.sp with rowErrors := t.sp.rowErrors, framWrites := t.sp.framWrites } }
  ∧ t.ga.hostCopy = s.ga.hostCopy ∧ s.host.talks t.host ∧ s.service.talks t.service

theorem Engaged.trans {s t u : State} (a : Engaged s t) (b : Engaged t u) : Engaged s u := by
  obtain ⟨a1, a2, a3, a4⟩ := a
  obtain ⟨b1, b2, b3, b4⟩ := b
  refine ⟨?_, b2.trans a2, LineSt.talks_trans a3 b3, LineSt.talks_trans a4 b4⟩
  rw [b1, a1]

theorem Gathered.engaged {s t : State} (h : Gathered s t) : Engaged s t := by
  obtain ⟨h1, h2⟩ := h
  refine ⟨?_, h2⟩
  rw [h1]

theorem Booked.engaged {s t : State} (h : Booked s t) : Engaged s t := by
  obtain ⟨h1, h2⟩ := h
  refine ⟨?_, ?_, h2⟩
  all_goals rw [h1]

/-- The engine's business can be told apart from what was booked. -/
theorem Engaged.split {s t : State} (h : Engaged s t) : ∃ u, Gathered s u ∧ Booked u t := by
  obtain ⟨h1, h2, h3, h4⟩ := h
  refine ⟨{ s with
    host := t.host, service := t.service, ga := t.ga, qu := t.qu
    mem := { s.mem with sram := t.mem.sram, cellar := t.mem.cellar }
    sp := { s.sp with rowErrors := t.sp.rowErrors } }, ⟨rfl, h2, h3, h4⟩, ?_, rfl, rfl⟩
  rw [h1]

/-- What a transfer with a memory error `e` does: the ledger is written only where an uncorrectable word can reset the
queue. -/
structure Moves (e : Option (Nat × TransferError)) (s t : State) : Prop where
  engaged : Engaged s t
  gathered : (∀ n, e ≠ some (n, .uncorrectable)) → Gathered s t

variable {e : Option (Nat × TransferError)}

theorem Gathered.moves {s t : State} (h : Gathered s t) : Moves e s t := ⟨h.engaged, fun _ => h⟩

theorem Moves.trans {s t u : State} (a : Moves e s t) (b : Moves e t u) : Moves e s u :=
  ⟨a.engaged.trans b.engaged, fun h => (a.gathered h).trans (b.gathered h)⟩

theorem Gathered.ite {s a b : State} {c : Prop} [Decidable c] (ha : Gathered s a) (hb : Gathered s b) :
    Gathered s (if c then a else b) :=
  iteInduction (fun _ => ha) fun _ => hb

/-! ## Reservations and the port -/

theorem abandonMark_gathered (g : Channel) (s : State) : Gathered s (abandonMark g s) := by
  unfold abandonMark
  exact ((spoil_queued _ s).trans (modQueue_queued _ _)).gathered.trans (modChan_gathered _ g _)

theorem fillRegion_gathered (g : Channel) (w : Word) (s : State) : Gathered s (fillRegion g w s) := by
  unfold fillRegion
  exact ((modQueue_queued s _).trans (settle_queued 0 _)).gathered.trans (modChan_gathered _ g _)

theorem releasePort_queued (g : Channel) (s : State) : Queued s (releasePort g s) := by
  unfold releasePort
  split
  · exact (modQueue_queued s _).trans (settle_queued _ _)
  · exact Queued.refl s

theorem readMade_queued (s : State) : Queued s (readMade s) := modQueue_queued s _

theorem readPort_queued {g : Channel} {s t : State} {w : Word} {ends : Bool} (h : readPort g s = some (w, ends, t)) :
    Queued s t := by
  have read {n : Nat} {f : Queue → Queue} : Queued s (readMade (State.settle n (s.modQueue f))) :=
    ((modQueue_queued s f).trans (settle_queued n _)).trans (readMade_queued _)
  unfold readPort at h
  split at h
  case h_1 =>
    split at h
    · split at h
      · obtain ⟨-, -, rfl⟩ := h
        exact read
      · cases h
    · cases h
  case h_2 =>
    split at h
    · cases h
    · split at h
      · split at h
        · obtain ⟨-, -, rfl⟩ := h
          exact read
        · cases h
      · cases h

/-! ## One word -/

theorem readWord_gathered {g : Channel} {fixed ends : Bool} {a : Nat} {s t : State} {w : Word}
    (h : readWord g fixed a s = .moved w ends t) : Gathered s t := by
  unfold readWord at h
  split at h
  case isTrue =>
    split at h
    · split at h
      case h_1 read =>
        obtain ⟨-, -, rfl⟩ := h
        exact (readPort_queued read).gathered
      case h_2 => cases h
    · cases h
  case isFalse =>
  split at h
  case isTrue =>
    split at h
    · split at h
      · obtain ⟨-, -, rfl⟩ := h
        exact ⟨rfl, rfl, rfl, rfl⟩
      · cases h
    · cases h
  case isFalse =>
  split at h
  · cases h
  · split at h
    · obtain ⟨-, -, rfl⟩ := h
      exact .refl s
    · cases h

theorem writeWord_gathered (g : Channel) (a : Nat) (w : Word) (s : State) : Gathered s (writeWord g a w s) :=
  .ite (.ite (fillRegion_gathered g w s) (modChan_gathered s g _)) <|
    .ite ⟨rfl, rfl, rfl, rfl⟩ <| .ite ⟨rfl, rfl, rfl, rfl⟩ <| .ite ⟨rfl, rfl, rfl, rfl⟩ ⟨rfl, rfl, rfl, rfl⟩

theorem uncorrectable_gathered (s : State) : Gathered s (uncorrectable s) := (modQueue_queued s _).gathered

theorem correctedError_gathered (a : Nat) (s : State) : Gathered s (correctedError a s) :=
  .ite ⟨rfl, rfl, rfl, rfl⟩ (modQueue_queued s _).gathered

theorem memoryError_gathered (a : Nat) (here : Option TransferError) (s : State) : Gathered s (memoryError a here s).1 := by
  unfold memoryError
  repeat' split
  · exact uncorrectable_gathered s
  · exact .refl s
  · exact .refl s
  · exact .refl s
  · exact correctedError_gathered a s
  · exact .refl s
  · exact .refl s

/-- A word that cannot be read for bus error kind 1 is one with an uncorrectable error. -/
theorem memoryError_kind {a : Nat} {here : Option TransferError} {s : State} (h : (memoryError a here s).2 = some 1) :
    here = some .uncorrectable := by
  unfold memoryError at h
  split at h
  case h_1 => rfl
  case h_4 => cases h
  all_goals split at h
  all_goals cases h

theorem landingError_gathered (g : Channel) (a : Nat) (here : Option TransferError) (s : State) :
    Gathered s (landingError g a here s) :=
  .ite ((((modQueue_queued s _).trans (spoil_queued _ _)).gathered).trans (modChan_gathered _ g _)) (.refl s)

theorem advance_gathered (g : Channel) (sf df : Bool) (w : Word) (s : State) : Gathered s (advance g sf df w s) :=
  modChan_gathered s g _

theorem takeBus_gathered (g : Channel) (s : State) : Gathered s (takeBus g s) := ⟨rfl, rfl, rfl, rfl⟩

theorem deliverBad_gathered (g : Channel) (sf df : Bool) (s : State) : Gathered s (deliverBad g sf df s) := by
  unfold deliverBad
  dsimp only
  split
  · exact .refl s
  · split
    case h_1 read =>
      have written := fun a w => (readWord_gathered read).trans (writeWord_gathered g a w _)
      exact .ite ((written _ _).trans (advance_gathered g sf df _ _)) (written _ _)
    case h_2 => exact .refl s

/-! ## Failed transfers -/

theorem busError_gathered (g : Channel) (kind a : Nat) (write : Bool) (s : State) :
    Gathered s (busError g kind a write s) := by
  have posted (status low : Nat) (w : Word) := (abandonMark_gathered g s).trans (post_gathered g 5 status low w _)
  unfold busError
  dsimp only
  split
  · exact ((posted _ _ _).trans (modChan_gathered _ g _)).trans
      ((releasePort_queued g _).gathered.trans (noteAll_talked _ _).gathered)
  · exact (posted _ _ _).trans (finishMove_gathered g _ _ _)

theorem queueReset_engaged (cause : QueueFault) (s : State) : Engaged s (queueReset cause s) := by
  cases on : fastOn s
  · rw [show queueReset cause s = s from if_neg (by simp [on])]
    exact (Gathered.refl s).engaged
  · exact (queueEmptied_gathered s).engaged.trans (queueReset_on cause on).1.engaged

theorem readFails_moves {g : Channel} {kind a : Nat} {sf df : Bool} {s : State}
    (bad : kind = 1 → ∃ n, e = some (n, .uncorrectable)) : Moves e s (readFails g kind a sf df s) := by
  unfold readFails
  split
  case isTrue one =>
    have failed := (deliverBad_gathered g sf df s).trans (busError_gathered g kind a false _)
    refine ⟨?_, fun clean => ?_⟩
    · dsimp only
      split
      · exact failed.engaged.trans (queueReset_engaged _ _)
      · exact failed.engaged
    · obtain ⟨n, h⟩ := bad one
      exact absurd h (clean n)
  case isFalse => exact (busError_gathered g kind a false s).moves

/-! ## The loop -/

/-- The error that the memories raise at the word to be moved. -/
def errorHere (e : Option (Nat × TransferError)) (moved : Nat) : Option TransferError :=
  match e with
  | some q => if q.1 = moved then some q.2 else none
  | none => none

theorem errorHere_uncorrectable {moved : Nat} (h : errorHere e moved = some .uncorrectable) :
    ∃ n, e = some (n, .uncorrectable) := by
  unfold errorHere at h
  split at h
  case h_1 q =>
    split at h
    · exact ⟨q.1, by rw [← Option.some.inj h]⟩
    · cases h
  case h_2 => cases h

/-- The state behind a word that a channel has read, leaving `t`, and written. -/
def State.carried (g : Channel) (here : Option TransferError) (w : Word) (s t : State) : State :=
  let c := s.ga.chans[g]
  let w0 := progWord s c.pc
  (takeBus g (advance g (bits w0 26 1 = 1) (bits w0 25 1 = 1) w
    (landingError g c.dst.toNat here (writeWord g c.dst.toNat w t)))).modChan g fun d =>
      { d with burst := (c.burst + 1) % (bits w0 21 4 + 1) }

theorem carried_gathered {g : Channel} {here : Option TransferError} {w : Word} {s t : State} (h : Gathered s t) :
    Gathered s (s.carried g here w t) := by
  unfold State.carried
  exact ((((h.trans (writeWord_gathered g _ w t)).trans (landingError_gathered g _ _ _)).trans
    (advance_gathered g _ _ w _)).trans (takeBus_gathered g _)).trans (modChan_gathered _ g _)

theorem moveLoop_succ (n : Nat) (g : Channel) (e : Option (Nat × TransferError)) (s : State) :
    moveLoop (n + 1) g e s =
      let c := s.ga.chans[g]
      let w0 := progWord s c.pc
      let here := errorHere e c.moved
      if max 1 (bits w0 0 16) ≤ c.moved then finishMove g 0 false s
      else if c.burst = 0 ∧ pauseDue s g then s.modChan g fun d => { d with st := .paused }
      else if c.burst = 0 ∧ hasBus s g = false then s
      else match writeError g (bits w0 25 1 = 1) c.dst.toNat s with
        | some k => busError g k c.dst.toNat true s
        | none => match (memoryError c.src.toNat here s).2 with
          | some k => readFails g k c.src.toNat (bits w0 26 1 = 1) (bits w0 25 1 = 1) (memoryError c.src.toNat here s).1
          | none =>
            if writeTimesOut c.dst.toNat here s then busError g 4 c.dst.toNat true s
            else if writeStalls c.dst.toNat s then stallChan g s
            else match readWord g (bits w0 26 1 = 1) c.src.toNat (memoryError c.src.toNat here s).1 with
              | .err k => busError g k c.src.toNat false s
              | .stall => stallChan g s
              | .moved w ends t =>
                if ends then finishMove g 1 false (s.carried g here w t) else moveLoop n g e (s.carried g here w t) := rfl

theorem moveLoop_moves (g : Channel) : ∀ (n : Nat) (s : State), Moves e s (moveLoop n g e s)
  | 0, s => (Gathered.refl s).moves
  | n + 1, s => by
    rw [moveLoop_succ]
    dsimp only
    split
    · exact (finishMove_gathered g _ _ s).moves
    split
    · exact (modChan_gathered s g _).moves
    split
    · exact (Gathered.refl s).moves
    split
    · exact (busError_gathered g _ _ _ s).moves
    split
    case h_1 k failed =>
      refine (memoryError_gathered _ _ s).moves.trans (readFails_moves fun one => ?_)
      exact errorHere_uncorrectable (memoryError_kind (one ▸ failed))
    split
    · exact (busError_gathered g _ _ _ s).moves
    split
    · exact (modChan_gathered s g _).moves
    split
    · exact (busError_gathered g _ _ _ s).moves
    · exact (modChan_gathered s g _).moves
    case h_3 w ends t read =>
      have carried := carried_gathered (g := g) (here := errorHere e s.ga.chans[g].moved) (w := w)
        ((memoryError_gathered _ _ s).trans (readWord_gathered read))
      split
      · exact (carried.trans (finishMove_gathered g _ _ _)).moves
      · exact carried.moves.trans (moveLoop_moves g n _)

/-! ## The whole row -/

theorem moveStart_gathered (g : Channel) (s : State) : Gathered s (moveStart g s) :=
  .ite ⟨rfl, rfl, rfl, rfl⟩ (modChan_gathered s g _)

theorem formatHost_gathered : ∀ (n : Nat) (s : State), Gathered s (formatHost n s)
  | 0, s => .refl s
  | n + 1, s => by
    unfold formatHost
    split
    · exact .refl s
    · dsimp only
      have taken (k : Nat) : Gathered s { s with ga := { s.ga with hostFifo := s.ga.hostFifo.drop k } } :=
        ⟨rfl, rfl, rfl, rfl⟩
      split
      · exact .refl s
      · refine Gathered.trans ?_ (formatHost_gathered n _)
        exact .ite ((taken _).trans (noteSeries_talked _ _ _).gathered) (taken _)

theorem formatPorts_gathered (s : State) : Gathered s (formatPorts s) :=
  (formatHost_gathered _ s).trans ⟨rfl, rfl, rfl, rfl⟩

theorem settlePace_gathered (g : Channel) (s : State) : Gathered s (settlePace g s) :=
  .ite (modChan_gathered s g _) (.refl s)

/-- The channel of an owned MOVE with its working addresses as the descriptor gives them at its start. -/
def State.moveBegun (s : State) (g : Channel) : State := if s.ga.chans[g].moved = 0 then moveStart g s else s

theorem moveStep_owned {g : Channel} {s : State} (ready : chanReady s g = true) (stands : standsAt s g 1 = true)
    (own : bits (wordAt s g) 27 1 = 1) (e : Option (Nat × TransferError)) :
    moveStep g e s
      = settlePace g (formatPorts (moveLoop (max 1 (bits (wordAt s g) 0 16) + 1) g e (s.moveBegun g))) := by
  rw [moveStep, if_pos ⟨ready, stands⟩]
  refine if_neg fun free => ?_
  rw [own] at free
  exact absurd free.1 (by decide)

theorem moveStep_moves {g : Channel} {s : State} (ready : chanReady s g = true) (stands : standsAt s g 1 = true)
    (own : bits (wordAt s g) 27 1 = 1) : Moves e s (moveStep g e s) := by
  rw [moveStep_owned ready stands own]
  have begun : Gathered s (s.moveBegun g) := .ite (moveStart_gathered g s) (.refl s)
  exact (begun.moves.trans (moveLoop_moves g _ _)).trans
    ((formatPorts_gathered _).trans (settlePace_gathered g _)).moves

theorem moveStep_still {g : Channel} {s : State} (h : chanReady s g = false ∨ standsAt s g 1 = false)
    (e : Option (Nat × TransferError)) : moveStep g e s = s := by
  refine if_neg fun c => ?_
  obtain ⟨ready, stands⟩ := c
  rcases h with h | h
  · simp [h] at ready
  · simp [h] at stands

end Sys2Proof.Machine
end

section
/-! PROOFS. A MOVE of one word (R203, R206, R211, R212, R218): what its start leaves of what it reads, and its three ends:
the bus is another's, the word is carried to SRAM, the destination does not exist. -/

namespace Sys2Proof.Machine

/-! ## Changes of a channel that nothing read by a MOVE sees -/

theorem memWord_modChan (s : State) (g : Channel) (f : Chan → Chan) (a : Nat) :
    memWord (s.modChan g f) a = memWord s a := by
  unfold memWord
  rfl

theorem modChan_modChan (s : State) (g : Channel) (f k : Chan → Chan) :
    (s.modChan g f).modChan g k = s.modChan g fun c => k (f c) := by
  simp [State.modChan]

/-- What the arbiter looks at in a channel (R212). -/
structure Chan.SameTurn (c d : Chan) : Prop where
  st : d.st = c.st
  pc : d.pc = c.pc
  ringWait : d.ringWait = c.ringWait
  stopReq : d.stopReq = c.stopReq
  moved : d.moved = c.moved

section SameTurn

variable {s : State} {g : Channel} {f : Chan → Chan} (h : s.ga.chans[g].SameTurn (f s.ga.chans[g]))

include h

theorem sameTurn_modChan (k : Channel) : s.ga.chans[k].SameTurn (s.modChan g f).ga.chans[k] := by
  by_cases e : k = g
  · rw [e, State.modChan_chan]
    exact h
  · rw [State.modChan_other s g k f e]
    exact ⟨rfl, rfl, rfl, rfl, rfl⟩

theorem wordAt_modChan (k : Channel) : wordAt (s.modChan g f) k = wordAt s k := by
  rw [wordAt, (sameTurn_modChan h k).pc]
  rfl

theorem busReady_modChan (k : Channel) : busReady (s.modChan g f) k = busReady s k := by
  have same := sameTurn_modChan h k
  simp only [busReady, chanReady, standsAt, wordAt_modChan h, same.st, same.pc, same.ringWait, same.stopReq, same.moved]
  rfl

theorem hasBus_modChan (k : Channel) : hasBus (s.modChan g f) k = hasBus s k := by
  unfold hasBus
  rw [funext (busReady_modChan h)]
  rfl

end SameTurn

theorem takeBus_modChan (s : State) (g k : Channel) (f : Chan → Chan) :
    takeBus k (s.modChan g f) = (takeBus k s).modChan g f := rfl

theorem modChan_congr {s : State} {g : Channel} {f k : Chan → Chan} (h : f s.ga.chans[g] = k s.ga.chans[g]) :
    s.modChan g f = s.modChan g k := by
  rw [State.modChan, h]
  rfl

/-! ## Channels without a pace -/

theorem pget_congr {s t : State} (h : t.cm = s.cm) : pget t = pget s :=
  funext fun n => congrArg (fun c : Commits => pLook c.params n) h

theorem pauseDue_unpaced {s : State} {g : Channel} (h : pget s (chanBase g + 2) = 0) : pauseDue s g = false := by
  simp [pauseDue, paceLevel, h]

theorem settlePace_unpaced {s : State} {g : Channel} (h : pget s (chanBase g + 2) = 0) : settlePace g s = s := by
  refine if_neg fun c => ?_
  rw [pauseDue_unpaced h] at c
  exact absurd c.2 (by decide)

/-- The partner's formatter has taken what stood in its port (log 26). -/
def State.portsTaken (s : State) : State := { s with ga := { s.ga with partnerFifo := [] } }

theorem formatPorts_empty {s : State} (h : s.ga.hostFifo = []) : formatPorts s = s.portsTaken := by
  rw [formatPorts, h]
  rfl

/-! ## Words of SRAM, and addresses that do not exist -/

section Sram

variable {a : Nat} (sram : a < 0x80000)

include sram

theorem writeError_sram {g : Channel} (owns : g.val < 5 ∨ (0x60000 ≤ a ∧ a < 0x7C000)) (fixed : Bool) (s : State) :
    writeError g fixed a s = none := by
  rw [writeError, if_neg (by omega), if_neg (by omega), if_pos sram, if_neg (by omega)]

theorem writeStalls_sram (s : State) : writeStalls a s = false := by
  have host : a ≠ 0x20000020 := by omega
  have partner : a ≠ 0x20000024 := by omega
  simp [writeStalls, host, partner]

theorem writeWord_sram (g : Channel) (w : Word) (s : State) :
    writeWord g a w s = { s with mem := { s.mem with sram := store 0 s.mem.sram (a / 4) w } } := by
  rw [writeWord, if_neg (by omega), if_neg (by omega), if_neg (by omega), if_pos sram]

end Sram

theorem writeError_unmapped {a : Nat} (low : 0x80000 ≤ a) (high : a < 0x10000000) (g : Channel) (fixed : Bool) (s : State) :
    writeError g fixed a s = some 3 := by
  have outside : inCapture s a = false := by
    have below : ¬ captureBase s ≤ a := by
      unfold captureBase
      omega
    simp [inCapture, below]
  rw [writeError, if_neg (by omega), if_neg (by omega), if_neg (by omega), outside]
  rfl

theorem landingError_none (g : Channel) (a : Nat) (s : State) : landingError g a none s = s :=
  if_neg fun c => nomatch c.1

theorem readWord_mapped {g : Channel} {a : Nat} {s : State} {w : Word} (mapped : memWord s a = some w)
    (port : a ≠ 0x20000000) (raw : a ≠ 0x20000010)
    (owns : g.val < 5 ∨ 0x80000 ≤ a ∨ (0x60000 ≤ a ∧ a < 0x7C000)) (fixed : Bool) :
    readWord g fixed a s = .moved w false s := by
  rw [readWord, if_neg port, if_neg raw, if_neg (by omega), mapped]

/-! ## The start of the MOVE -/

/-- A working address as a descriptor word gives it: FFFFFFFFh takes the one that stands (R206). -/
def pickAddress (w old : Word) : Word := if w = 0xFFFFFFFF then old else w &&& 0xFFFFFFFC

/-- The working addresses of the MOVE that a channel stands at, at its start (R206). -/
def moveSrc (s : State) (g : Channel) : Word := pickAddress (progWord s (s.ga.chans[g].pc + 1)) s.ga.chans[g].src
def moveDst (s : State) (g : Channel) : Word := pickAddress (progWord s (s.ga.chans[g].pc + 2)) s.ga.chans[g].dst

/-- The state behind the start of a MOVE that does not read the raw port. -/
def State.addressed (s : State) (g : Channel) : State :=
  s.modChan g fun c => { c with src := moveSrc s g, dst := moveDst s g }

theorem addressed_chan (s : State) (g : Channel) :
    (s.addressed g).ga.chans[g] = { s.ga.chans[g] with src := moveSrc s g, dst := moveDst s g } := State.modChan_chan s g _

theorem addressed_pc (s : State) (g : Channel) : (s.addressed g).ga.chans[g].pc = s.ga.chans[g].pc := by
  rw [addressed_chan]

theorem addressed_moved (s : State) (g : Channel) : (s.addressed g).ga.chans[g].moved = s.ga.chans[g].moved := by
  rw [addressed_chan]

theorem addressed_sameTurn (s : State) (g : Channel) :
    s.ga.chans[g].SameTurn { s.ga.chans[g] with src := moveSrc s g, dst := moveDst s g } := ⟨rfl, rfl, rfl, rfl, rfl⟩

theorem progWord_addressed (s : State) (g : Channel) : progWord (s.addressed g) = progWord s := rfl

theorem hasBus_addressed (s : State) (g : Channel) : hasBus (s.addressed g) g = hasBus s g :=
  hasBus_modChan (addressed_sameTurn s g) g

/-- A channel stands at the start of an owned MOVE of one word without a pace, away from the raw port, and the host's
formatter has nothing to take. -/
structure OneWord (s : State) (g : Channel) : Prop where
  ready : chanReady s g = true
  stands : standsAt s g 1 = true
  own : bits (wordAt s g) 27 1 = 1
  moved : s.ga.chans[g].moved = 0
  count : max 1 (bits (wordAt s g) 0 16) = 1
  unpaced : pget s (chanBase g + 2) = 0
  notRaw : moveSrc s g ≠ 0x20000010
  host : s.ga.hostFifo = []

section OneWord

variable {s : State} {g : Channel} (one : OneWord s g)

include one

theorem OneWord.begun : s.moveBegun g = s.addressed g := by
  rw [State.moveBegun, if_pos one.moved]
  exact if_neg one.notRaw

theorem OneWord.step (left : (moveLoop 2 g none (s.addressed g)).ga.hostFifo = []) :
    moveStep g none s = (moveLoop 2 g none (s.addressed g)).portsTaken := by
  have cm : (moveLoop 2 g none (s.addressed g)).cm = s.cm := by
    rw [(moveLoop_moves (e := none) g 2 (s.addressed g)).engaged.1]
    rfl
  rw [moveStep_owned one.ready one.stands one.own, one.count, one.begun, formatPorts_empty left, settlePace_unpaced]
  exact (congrFun (pget_congr cm) _).trans one.unpaced

/-- The word is not yet moved, and no pace pauses the channel. -/
theorem OneWord.due : ¬ max 1 (bits (progWord s s.ga.chans[g].pc) 0 16) ≤ 0 := by
  have count := one.count
  unfold wordAt at count
  omega

theorem OneWord.unpaused : pauseDue (s.addressed g) g = false := pauseDue_unpaced one.unpaced

/-- At a burst boundary without the bus the channel waits (R212). -/
theorem OneWord.waits (bus : hasBus s g = false) (boundary : s.ga.chans[g].burst = 0) :
    moveStep g none s = (s.addressed g).portsTaken := by
  have stays : moveLoop 2 g none (s.addressed g) = s.addressed g := by
    rw [moveLoop_succ, addressed_chan, progWord_addressed]
    simp only [one.moved, one.unpaused, hasBus_addressed, bus, boundary, if_neg one.due]
    simp
  rw [one.step (by rw [stays]; exact one.host), stays]

section Granted

variable (bus : hasBus s g = true)

include bus

/-- A destination that cannot be written fails the transfer (R204). -/
theorem OneWord.fails {k : Nat}
    (bad : writeError g (bits (wordAt s g) 25 1 = 1) (moveDst s g).toNat (s.addressed g) = some k) (n : Nat) :
    moveLoop (n + 1) g none (s.addressed g) = busError g k (moveDst s g).toNat true (s.addressed g) := by
  rw [wordAt] at bad
  rw [moveLoop_succ, addressed_chan, progWord_addressed]
  simp only [one.moved, one.unpaused, hasBus_addressed, bus, if_neg one.due, bad]
  simp

/-- A word that can be read and written is carried (R206). -/
theorem OneWord.carries {w : Word} {t : State}
    (good : writeError g (bits (wordAt s g) 25 1 = 1) (moveDst s g).toNat (s.addressed g) = none)
    (room : writeStalls (moveDst s g).toNat (s.addressed g) = false)
    (read : readWord g (bits (wordAt s g) 26 1 = 1) (moveSrc s g).toNat (s.addressed g) = .moved w false t) (n : Nat) :
    moveLoop (n + 1) g none (s.addressed g) = moveLoop n g none ((s.addressed g).carried g none w t) := by
  rw [wordAt] at good read
  rw [moveLoop_succ, addressed_chan, progWord_addressed]
  simp only [one.moved, one.unpaused, hasBus_addressed, bus, if_neg one.due, errorHere, memoryError, writeTimesOut, good,
    room, read]
  simp

end Granted

end OneWord

/-! ### The word is carried -/

/-- The channel behind its MOVE of one word `w` (R206, R211). -/
def Chan.wordMoved (src dst w w0 : Word) (c : Chan) : Chan :=
  { c with
    src := if bits w0 26 1 = 1 then src else src + 4, dst := if bits w0 25 1 = 1 then dst else dst + 4
    crc := crc32Word c.crc w, pc := c.pc + 4, burst := 0, shedMove := false, st := .run }

/-- The state behind the MOVE, with the word in SRAM and the bus taken (R212). -/
def State.wordMoved (s : State) (g : Channel) (w : Word) : State :=
  { s.modChan g (Chan.wordMoved (moveSrc s g) (moveDst s g) w (wordAt s g)) with
    mem := { s.mem with sram := store 0 s.mem.sram ((moveDst s g).toNat / 4) w }
    ga := { (s.modChan g (Chan.wordMoved (moveSrc s g) (moveDst s g) w (wordAt s g))).ga with
      partnerFifo := [], served := (takeBus g s).ga.served } }

/-- The word is in SRAM and the bus taken. -/
def State.wordStored (s : State) (g : Channel) (w : Word) : State :=
  takeBus g { s with mem := { s.mem with sram := store 0 s.mem.sram ((moveDst s g).toNat / 4) w } }

/-- A channel that counts a word it has carried, with the words of its burst as given (R206, R211). -/
def Chan.stepped (sf df : Bool) (w : Word) (burst : Nat) (c : Chan) : Chan :=
  { c with
    src := if sf then c.src else c.src + 4, dst := if df then c.dst else c.dst + 4
    moved := c.moved + 1, crc := crc32Word c.crc w, burst := burst }

theorem carried_sram {s t : State} {g : Channel} (sram : s.ga.chans[g].dst.toNat < 0x80000) (w : Word) :
    s.carried g none w t
      = (takeBus g { t with mem := { t.mem with sram := store 0 t.mem.sram (s.ga.chans[g].dst.toNat / 4) w } }).modChan g
        (Chan.stepped (bits (wordAt s g) 26 1 = 1) (bits (wordAt s g) 25 1 = 1) w
          ((s.ga.chans[g].burst + 1) % (bits (wordAt s g) 21 4 + 1))) := by
  unfold State.carried
  dsimp only
  rw [writeWord_sram sram, landingError_none, advance, takeBus_modChan, modChan_modChan]
  rfl

theorem finishMove_silent {s : State} {g : Channel} (mode : pget s (chanBase g + 6) = 0)
    (record : bits (wordAt s g) 20 1 = 0) : finishMove g 0 false s = s.modChan g Chan.moveOver := by
  have silent : s.moveReported g 0 false = s := by
    unfold State.moveReported
    dsimp only
    rw [← wordAt, mode, record]
    rfl
  rw [finishMove_eq, silent]

/-- The channel of a MOVE of one word, from its start to its end. -/
theorem stepped_moveOver {c : Chan} (start : c.moved = 0) (src dst w w0 : Word) (burst : Nat) :
    Chan.moveOver (Chan.stepped (bits w0 26 1 = 1) (bits w0 25 1 = 1) w burst { c with src := src, dst := dst })
      = Chan.wordMoved src dst w w0 c := by
  simp [Chan.moveOver, Chan.stepped, Chan.wordMoved, start]

/-- The word is in SRAM, and the channel has counted it. -/
def State.wordCarried (s : State) (g : Channel) (w : Word) : State :=
  (s.wordStored g w).modChan g fun c =>
    Chan.stepped (bits (wordAt s g) 26 1 = 1) (bits (wordAt s g) 25 1 = 1) w
      ((s.ga.chans[g].burst + 1) % (bits (wordAt s g) 21 4 + 1)) { c with src := moveSrc s g, dst := moveDst s g }

theorem carried_addressed {s : State} {g : Channel} (sram : (moveDst s g).toNat < 0x80000) (w : Word) :
    (s.addressed g).carried g none w (s.addressed g) = s.wordCarried g w := by
  have dst : (s.addressed g).ga.chans[g].dst = moveDst s g := by rw [addressed_chan]
  have burst : (s.addressed g).ga.chans[g].burst = s.ga.chans[g].burst := by rw [addressed_chan]
  rw [carried_sram (dst.symm ▸ sram), dst, burst, show wordAt (s.addressed g) g = wordAt s g from
    wordAt_modChan (addressed_sameTurn s g) g]
  exact modChan_modChan (s.wordStored g w) g (fun c => { c with src := moveSrc s g, dst := moveDst s g }) _

theorem wordCarried_chan (s : State) (g : Channel) (w : Word) :
    (s.wordCarried g w).ga.chans[g]
      = Chan.stepped (bits (wordAt s g) 26 1 = 1) (bits (wordAt s g) 25 1 = 1) w
        ((s.ga.chans[g].burst + 1) % (bits (wordAt s g) 21 4 + 1))
        { s.ga.chans[g] with src := moveSrc s g, dst := moveDst s g } := State.modChan_chan _ g _

theorem wordAt_wordCarried (s : State) (g : Channel) (w : Word) : wordAt (s.wordCarried g w) g = wordAt s g := by
  rw [wordAt, wordCarried_chan]
  rfl

/-- The MOVE of one word ends behind it (R206). -/
theorem OneWord.ends {s : State} {g : Channel} (one : OneWord s g) (w : Word) (record : bits (wordAt s g) 20 1 = 0)
    (mode : pget s (chanBase g + 6) = 0) :
    moveLoop 1 g none (s.wordCarried g w)
      = (s.wordStored g w).modChan g (Chan.wordMoved (moveSrc s g) (moveDst s g) w (wordAt s g)) := by
  have whole : moveLoop 1 g none (s.wordCarried g w) = finishMove g 0 false (s.wordCarried g w) := by
    rw [moveLoop_succ]
    refine if_pos ?_
    rw [← wordAt, wordAt_wordCarried, one.count, wordCarried_chan]
    exact Nat.le_add_left 1 _
  rw [whole, finishMove_silent (s := s.wordCarried g w) mode (by rw [wordAt_wordCarried, record]),
    State.wordCarried, modChan_modChan]
  exact modChan_congr (stepped_moveOver one.moved _ _ w _ _)

/-- A word that the address map holds is carried to a word of SRAM (R203, R206, R211). -/
theorem OneWord.carriesToSram {s : State} {g : Channel} (one : OneWord s g) (bus : hasBus s g = true) {w : Word}
    (mapped : memWord s (moveSrc s g).toNat = some w) (port : moveSrc s g ≠ 0x20000000)
    (reads : g.val < 5 ∨ 0x80000 ≤ (moveSrc s g).toNat ∨ (0x60000 ≤ (moveSrc s g).toNat ∧ (moveSrc s g).toNat < 0x7C000))
    (sram : (moveDst s g).toNat < 0x80000)
    (writes : g.val < 5 ∨ (0x60000 ≤ (moveDst s g).toNat ∧ (moveDst s g).toNat < 0x7C000))
    (record : bits (wordAt s g) 20 1 = 0) (mode : pget s (chanBase g + 6) = 0) :
    moveStep g none s = s.wordMoved g w := by
  have read := readWord_mapped (g := g) (s := s.addressed g) ((memWord_modChan s g _ _).trans mapped)
    (fun h => port (BitVec.eq_of_toNat_eq h)) (fun h => one.notRaw (BitVec.eq_of_toNat_eq h)) reads
    (bits (wordAt s g) 26 1 = 1)
  have carried := one.carries bus (writeError_sram sram writes _ _) (writeStalls_sram sram _) read 1
  rw [carried_addressed sram, one.ends w record mode] at carried
  rw [one.step (by rw [carried]; exact one.host), carried]
  rfl

/-! ### The destination does not exist -/

/-- The other channels, the host packet port and the cellar hold what they held, and channel `g` stands where it stood. -/
structure StandsBeside (g : Channel) (s t : State) : Prop where
  others : OthersStand g s t
  pc : t.ga.chans[g].pc = s.ga.chans[g].pc
  host : t.ga.hostFifo = s.ga.hostFifo
  cellar : t.mem.cellar = s.mem.cellar

theorem StandsBeside.trans {g : Channel} {s t u : State} (a : StandsBeside g s t) (b : StandsBeside g t u) :
    StandsBeside g s u where
  others := a.others.trans b.others
  pc := b.pc.trans a.pc
  host := b.host.trans a.host
  cellar := b.cellar.trans a.cellar

theorem Booked.standsBeside {s t : State} (h : Booked s t) (g : Channel) : StandsBeside g s t := by
  obtain ⟨h1, -⟩ := h
  refine ⟨.of_eq ?_, ?_, ?_, ?_⟩
  all_goals rw [h1]

theorem Queued.standsBeside {s t : State} (h : Queued s t) (g : Channel) : StandsBeside g s t := h.booked.standsBeside g

theorem modChan_standsBeside (s : State) (g : Channel) {f : Chan → Chan} (h : (f s.ga.chans[g]).pc = s.ga.chans[g].pc) :
    StandsBeside g s (s.modChan g f) where
  others := modChan_othersStand s g f
  pc := by rw [State.modChan_chan, h]
  host := rfl
  cellar := rfl

theorem post_standsBeside (g : Channel) (kind status low : Nat) (w3 : Word) (s : State) :
    StandsBeside g s (post g kind status low w3 s) where
  others := post_othersStand g kind status low w3 s
  pc := post_pc g kind status low w3 s
  host := by
    obtain ⟨ws, h⟩ | ⟨q, h⟩ := post_cases g kind status low w3 s
    · rw [h, pushRing]
    · rw [h]
      rfl
  cellar := by
    obtain ⟨ws, h⟩ | ⟨q, h⟩ := post_cases g kind status low w3 s
    · rw [h, pushRing]
    · rw [h]
      rfl

theorem abandonMark_standsBeside (g : Channel) (s : State) : StandsBeside g s (abandonMark g s) := by
  unfold abandonMark
  exact (((spoil_queued _ s).trans (modQueue_queued _ _)).standsBeside g).trans (modChan_standsBeside _ g rfl)

/-- A failed transfer in HALT mode: the channel halts where it stands, with the fault latched (R218). -/
theorem busError_halts {g : Channel} {s : State} (halt : pget s (chanBase g + 5) = 0) (kind a : Nat) (write : Bool) :
    StandsBeside g s (busError g kind a write s)
    ∧ (busError g kind a write s).ga.chans[g].st = .halt
    ∧ (busError g kind a write s).ga.chans[g].fault = some ⟨BitVec.ofNat 32 a, write, kind⟩ := by
  have posted := fun low w => (abandonMark_standsBeside g s).trans (post_standsBeside g 5 (8 + kind) low w _)
  have told := fun text u => (releasePort_queued g u).booked.trans (noteAll_talked text (releasePort g u)).booked
  unfold busError
  dsimp only
  rw [if_pos halt]
  refine ⟨((posted _ _).trans (modChan_standsBeside _ g rfl)).trans ((told _ _).standsBeside g), ?_⟩
  rw [(noteAll_talked _ _).ga, (releasePort_queued g _).ga, State.modChan_chan]
  exact ⟨rfl, rfl⟩

/-- A destination outside the map halts the channel at its descriptor (R204, R218). -/
theorem OneWord.halts {s : State} {g : Channel} (one : OneWord s g) (bus : hasBus s g = true)
    (low : 0x80000 ≤ (moveDst s g).toNat) (high : (moveDst s g).toNat < 0x10000000)
    (halt : pget s (chanBase g + 5) = 0) :
    moveStep g none s = (busError g 3 (moveDst s g).toNat true (s.addressed g)).portsTaken
    ∧ StandsBeside g s (busError g 3 (moveDst s g).toNat true (s.addressed g)) := by
  have stands := (modChan_standsBeside s g (f := fun c => { c with src := moveSrc s g, dst := moveDst s g }) rfl).trans
    (busError_halts (s := s.addressed g) halt 3 (moveDst s g).toNat true).1
  have failed := one.fails bus (writeError_unmapped low high g _ _) 1
  refine ⟨?_, stands⟩
  rw [one.step (by rw [failed, stands.host, one.host]), failed]

theorem Talked.mem {s t : State} (h : Talked s t) : t.mem = s.mem := by rw [h.1]

/-- Settles O52: what any MOVE can do is `moveStep_moves`; one of one word has one outcome for each of its three ends. -/
theorem moveCarriesAWord : Obligations.MoveCarriesAWord := by
  unfold Obligations.MoveCarriesAWord
  refine fun g s => ⟨fun e still => gives_of_done (congrArg done (moveStep_still still e)), fun e ready stands own => ?_,
    fun ready stands own moved count unpaced port notRaw host => ?_⟩
  · have moves := (moveStep_moves (e := e) ready stands own).trans (flushNotes_talked _).gathered.moves
    exact ⟨_, rfl, moves.gathered, moves.engaged.split⟩
  · have one : OneWord s g := ⟨ready, stands, own, moved, count, unpaced, notRaw, host⟩
    have gathered : Gathered s (flushNotes (moveStep g none s)) :=
      ((moveStep_moves (e := none) ready stands own).trans (flushNotes_talked _).gathered.moves).gathered (by simp)
    refine ⟨fun bus boundary => ?_, fun w bus mapped reads sram writes record mode => ?_, fun bus low high halt => ?_⟩
    · have step := one.waits bus boundary
      have talked := flushNotes_talked (s.addressed g).portsTaken
      rw [step] at gathered
      refine ⟨_, congrArg done step, ?_, ?_, talked.mem, talked.qu, gathered⟩
      · rw [talked.ga]
        exact addressed_pc s g
      · rw [talked.ga]
        exact (addressed_moved s g).trans moved
    · exact gives_of_done (congrArg done (one.carriesToSram bus mapped port reads sram writes record mode))
    · have talked := flushNotes_talked (moveStep g none s)
      obtain ⟨step, stands⟩ := one.halts bus low high halt
      obtain ⟨-, st, fault⟩ := busError_halts (s := s.addressed g) halt 3 (moveDst s g).toNat true
      have chans : (flushNotes (moveStep g none s)).ga.chans
          = (busError g 3 (moveDst s g).toNat true (s.addressed g)).ga.chans := by
        rw [talked.ga, step]
        rfl
      refine ⟨_, rfl, ?_, ?_, ?_, stands.others.trans (.of_eq chans), ?_, gathered⟩
      · rw [chans, st]
      · rw [chans, fault, BitVec.ofNat_toNat, BitVec.setWidth_eq]
        rfl
      · rw [chans, stands.pc]
      · rw [talked.mem, step]
        exact stands.cellar

end Sys2Proof.Machine
end

section
/-! PROOFS. The self-test on command (R200, R326, R328 ... R330): what TEST begins, and what TEST_COMPLETE records. -/

namespace Sys2Proof.Machine

/-! ## TEST -/

/-- Items of a test of the item with code `i`, or of all with code 8 (Table 16.1, R326). -/
def testMask (s : State) (i : Nat) : Nat := if i = 8 then allItems s else if inMask (allItems s) i then 2 ^ i else 0

/-- A test is marked as running (R329). -/
def State.testing (s : State) (b : TestBusy) : State := { s with sp := { s.sp with test := some b } }

/-- With the cellar among the items the queue is filled with zeros (R200). -/
def State.zeroFilled (s : State) (mask : Nat) : State := if inMask mask 4 then s.modQueue Queue.emptied else s

theorem zeroFilled_eq (s : State) (mask : Nat) :
    s.zeroFilled mask = { s with qu := if inMask mask 4 then s.qu.emptied else s.qu } := by
  unfold State.zeroFilled
  split
  all_goals rfl

/-- The cellar is not an item of a test of leads, cells or ref. -/
theorem testMask_noCellar {s : State} {i : Nat} (h : i < 3) : inMask (testMask s i) 4 = false := by
  have sizes : ∀ j < 3, inMask (2 ^ j) 4 = false := by decide
  have whole : i ≠ 8 := by omega
  rw [testMask, if_neg whole]
  split
  · exact sizes i h
  · rfl

section Test

variable {rq : Req} {s : State} {item : String} {i : Nat} (free : s.sp.test = none)
  (role : 1 ≤ roleCode (s.line rq.line).role) (hi : wordField rq.tag.isSome (itemNames ++ ["all"]) item = .ok i)

include free role hi

/-- In HELD a test of an item or of all begins, and with the cellar the queue is filled with zeros (R200, R329). -/
theorem bodyTest_held (held : s.pw.ms = .held) :
    bodyTest rq [item] s = .ok ((s.testing ⟨item, testMask s i, none, rq.line⟩).zeroFilled (testMask s i),
      ["ok test " ++ (itemNames ++ ["all"]).getD i ""]) := by
  have serving : s.serving = true := by simp [State.serving, held]
  simp only [bodyTest, List.head?_cons, want_some, hi, ok_bind, served_serving serving, needRole_operate role, free,
    Option.isNone_none, need_true, held]
  simp only [List.length_singleton, decide_true, Bool.true_or, List.getElem?_cons_succ, List.getElem?_nil, ok_bind,
    need_true, Bool.or_true, ite_self, Nat.one_le_ofNat]
  rfl

/-- A test of one run's leads, cells or ref restarts its front end (R329). -/
theorem bodyTest_run {rt : String} {r : Run} (hv : s.serving = true) (one : i < 3) (hr : runField rt = .ok r)
    (off : armedRun s r = false) :
    bodyTest rq [item, rt] s = .ok (restartFe r (s.testing ⟨item, testMask s i, some r, rq.line⟩),
      ["ok test " ++ (itemNames ++ ["all"]).getD i ""]) := by
  have active : (measuring s || decide (s.pw.ms = .held)) = true := hv
  have noCellar := testMask_noCellar (s := s) one
  rw [testMask] at noCellar
  simp only [bodyTest, List.head?_cons, want_some, hi, ok_bind, served_serving hv, needRole_operate role, free,
    Option.isNone_none, need_true, active, noCellar]
  simp [one, hr, off]
  rfl

end Test

/-! ## The restart of a front end -/

/-- What a restart leaves: the run restarts with its fast inputs idle, and of the rest the lines' talk and the vibration
fits alone may differ (R86, R91, R113). -/
structure Restarted (r : Run) (s t : State) : Prop where
  talked : Talked { s with runs := t.runs, mx := { s.mx with fits := t.mx.fits } } t
  others : ∀ q : Run, q ≠ r → t.runs[q] = s.runs[q]
  restarting : t.runs[r].fe.restarting = true
  lift : t.runs[r].fe.lift = .idle
  vib : t.runs[r].fe.vib = .idle

theorem Talked.thenFits {s t u : State} (a : Talked { s with runs := t.runs } t)
    (b : Talked { t with mx := { t.mx with fits := u.mx.fits } } u) :
    Talked { s with runs := u.runs, mx := { s.mx with fits := u.mx.fits } } u := by
  obtain ⟨a1, ah, av⟩ := a
  obtain ⟨b1, bh, bv⟩ := b
  refine ⟨?_, LineSt.talks_trans ah bh, LineSt.talks_trans av bv⟩
  rw [b1, a1]

theorem restartFe_restarted (r : Run) (s : State) : Restarted r s (restartFe r s) := by
  unfold restartFe
  extract_lets nt np s1
  have changed : RunTalked r s s1 := modRun_runTalked r s _
  obtain ⟨dropped, avg, run⟩ := failAvg_eq r "idle" s1
  have fits := failFit_fitsTalked r "restart" (failAvg r "idle" s1)
  have fe : (failFit r "restart" (failAvg r "idle" s1)).runs[r].fe = s1.runs[r].fe :=
    (congrArg (fun v : Vector RunSt 4 => v[r].fe) fits.runs).trans (congrArg RunSt.fe run :)
  rw [State.modRun_run] at fe
  refine ⟨(changed.trans dropped).talked.thenFits fits, fun q hq => ?_, ?_, ?_, ?_⟩
  · rw [fits.runs]
    exact (changed.trans dropped).others q hq
  all_goals rw [fe]; rfl

theorem Restarted.of_talked {r : Run} {s t u : State} (h : Restarted r s t) (talked : Talked t u) : Restarted r s u := by
  have mx : u.mx = t.mx := talked.stands.2.1
  constructor
  · rw [talked.runs, mx]
    exact h.talked.trans talked
  all_goals rw [talked.runs]
  · exact h.others
  · exact h.restarting
  · exact h.lift
  · exact h.vib

theorem Restarted.sp {r : Run} {s t : State} (h : Restarted r s t) : t.sp = s.sp := by rw [h.talked.1]

/-! ## What is recorded -/

theorem Booked.results {s t : State} (h : Booked s t) : t.lg.results = s.lg.results := by rw [h.1]

/-- The result record of judged failures `xs` (Table 16.3). -/
def resultOf (s : State) (occasion verdict mask millis : Nat) (xs : List (Failure × Nat × Nat)) : TestResult :=
  { occasion := occasion, verdict := verdict, count := xs.length, time := nowSec s, itemsRun := mask
    itemsFailed := failedMask xs, millis := millis, failures := xs }

theorem recordTest_worked (occasion verdict mask millis : Nat) (xs : List (Failure × Nat × Nat)) (s : State) :
    Worked s (recordTest occasion verdict mask millis xs s) :=
  (works_lg s _).1.trans ((ledgerPacket_booked _ _ _).trans (moduleNote_booked _ _ _)).worked

theorem recordTest_results (occasion verdict mask millis : Nat) (xs : List (Failure × Nat × Nat)) (s : State) :
    (recordTest occasion verdict mask millis xs s).lg.results
      = (resultOf s occasion verdict mask millis xs :: s.lg.results).take 16 :=
  ((ledgerPacket_booked _ _ _).trans (moduleNote_booked _ _ _)).results

/-- The judgement of the copies changes their state and contents alone, with its note (R242). -/
theorem judgeCopies_cases (mask : Nat) (fs : List Failure) (s : State) :
    judgeCopies mask fs s = s ∨ ∃ copy degraded a b st, judgeCopies mask fs s = copyNote copy degraded
      { s with mem := { s.mem with a := a, b := b }, lg := { s.lg with state := st } } := by
  unfold judgeCopies
  extract_lets bad
  split
  · exact .inl rfl
  · split
    · split
      · exact .inr ⟨_, _, s.mem.a, s.mem.b, _, rfl⟩
      · split
        · exact .inr ⟨_, _, s.mem.a, s.mem.b, _, rfl⟩
        · exact .inl rfl
    · split
      · exact .inl rfl
      · exact .inr ⟨_, _, s.mem.b, s.mem.b, _, rfl⟩
    · split
      · exact .inl rfl
      · exact .inr ⟨_, _, s.mem.a, s.mem.a, _, rfl⟩

theorem judgeCopies_worked (mask : Nat) (fs : List Failure) (s : State) : Worked s (judgeCopies mask fs s) := by
  obtain h | ⟨copy, degraded, a, b, st, h⟩ := judgeCopies_cases mask fs s
  · rw [h]
    exact .refl s
  · have plain : Worked s { s with mem := { s.mem with a := a, b := b }, lg := { s.lg with state := st } } :=
      ⟨rfl, rfl, rfl⟩
    rw [h]
    exact plain.trans (moduleNote_booked _ _ _).worked

theorem judgeCopies_results (mask : Nat) (fs : List Failure) (s : State) :
    (judgeCopies mask fs s).lg.results = s.lg.results := by
  obtain h | ⟨copy, degraded, a, b, st, h⟩ := judgeCopies_cases mask fs s
  · rw [h]
  · rw [h]
    exact (moduleNote_booked _ _ _).results

theorem classed_length (s : State) (fs : List Failure) : (classed s fs).length = fs.length := List.length_map _

/-! ## TEST_COMPLETE -/

theorem Worked.sp {s t : State} (h : Worked s t) : t.sp = { s.sp with framWrites := t.sp.framWrites } := by
  rw [h.1]

/-- The test is over, and the units that failed it are noted where it was a whole item's (R329). -/
def State.testEnded (s : State) (b : TestBusy) (fs : List Failure) : State :=
  if b.run.isNone then noteFailed b.items fs { s with sp := { s.sp with test := none } }
  else { s with sp := { s.sp with test := none } }

theorem testEnded_eq (s : State) (b : TestBusy) (fs : List Failure) :
    s.testEnded b fs = { s with sp := { s.sp with
      test := none
      failedCells := (s.testEnded b fs).sp.failedCells, failedRows := (s.testEnded b fs).sp.failedRows } } := by
  unfold State.testEnded
  split
  all_goals rfl

section Complete

variable {s : State} {b : TestBusy} (r : TestRun) (busy : s.sp.test = some b)

include busy

/-- The ended test recorded, ahead of its notices. -/
theorem testComplete_busy : ∃ texts, testComplete r s = noteSeries b.line texts
    (recordTest 4 (verdictOf (classed s (foundIn s b.items r.failures))) b.items r.millis
      (classed s (foundIn s b.items r.failures))
      (judgeCopies b.items (foundIn s b.items r.failures) (s.testEnded b (foundIn s b.items r.failures)))) :=
  ⟨_, by simp only [testComplete, busy]; rfl⟩

theorem testComplete_worked : Worked (s.testEnded b (foundIn s b.items r.failures)) (testComplete r s) := by
  obtain ⟨texts, h⟩ := testComplete_busy r busy
  rw [h]
  exact ((judgeCopies_worked _ _ _).trans (recordTest_worked _ _ _ _ _ _)).trans
    (noteSeries_talked _ _ _).booked.worked

theorem testComplete_results : ∃ time, (testComplete r s).lg.results
    = ({ resultOf s 4 (verdictOf (classed s (foundIn s b.items r.failures))) b.items r.millis
        (classed s (foundIn s b.items r.failures)) with time := time } :: s.lg.results).take 16 := by
  obtain ⟨texts, h⟩ := testComplete_busy r busy
  rw [h, (noteSeries_talked _ _ _).booked.results, recordTest_results, judgeCopies_results, testEnded_eq]
  exact ⟨_, rfl⟩

end Complete

theorem testComplete_idle {s : State} (r : TestRun) (idle : s.sp.test = none) : testComplete r s = s := by
  rw [testComplete, idle]

/-- Settles O47: TEST marks its test beside the queue or the restart of its run, and TEST_COMPLETE is the end of the test
with the judgement of the copies and the record behind it. -/
theorem selfTestsRunOnCommand : Obligations.SelfTestsRunOnCommand := by
  unfold Obligations.SelfTestsRunOnCommand
  refine fun s => ⟨fun rq item i hs free role hi => ⟨fun held => ?_, fun rt r hv one hr off => ?_⟩, fun r b busy => ?_,
    fun r idle => gives_of_done (congrArg done (testComplete_idle r idle))⟩
  · have body := bodyTest_held free role hi held
    rw [zeroFilled_eq] at body
    exact answers_of_body rfl hs body (by cases rq.line <;> rfl)
  · obtain ⟨t, ran, talked, more, sent⟩ := runLine_ok (rq := rq) (verb := "test") hs
      (bodyTest_run free role hi hv one hr off)
    have restarted := (restartFe_restarted r (s.testing ⟨item, testMask s i, some r, rq.line⟩)).of_talked talked
    have test : t.sp.test = some ⟨item, testMask s i, some r, rq.line⟩ := congrArg Spares.test restarted.sp
    have stands : ((s.testing ⟨item, testMask s i, some r, rq.line⟩).line rq.line).sent = (s.line rq.line).sent := by
      cases rq.line
      all_goals rfl
    rw [(restartFe_effected r _).sent rq.line, stands] at sent
    refine ⟨t, ran, ⟨more, sent⟩, test, restarted.restarting, restarted.lift, restarted.vib, restarted.others, ?_⟩
    rw [test]
    exact restarted.talked
  · have talked := flushNotes_talked (testComplete r s)
    have worked := (testComplete_worked r busy).trans talked.booked.worked
    obtain ⟨time, results⟩ := testComplete_results r busy
    have ended := testEnded_eq s b (foundIn s b.items r.failures)
    have sp := worked.sp
    rw [ended] at worked sp
    refine ⟨_, rfl, by rw [sp], ⟨_, talked.booked.results.trans results, rfl, rfl, rfl, classed_length s _,
      fun sound => ?_⟩, ?_⟩
    · rw [sound]
      exact ⟨rfl, rfl⟩
    · rw [sp]
      exact worked

end Sys2Proof.Machine
end

section
/-! PROOFS. How the memories' form is composed: the relation read as the operations are nested, an update that leaves
the memories, the bodies of the command lines, and the operations that lemmas of before say (R203, R224, R227). -/

namespace Sys2Proof.Machine

theorem Kept.rfl {s : State} : Kept s s := id

/-- The form is kept by `t → u` after it was by `s → t`: written as the operations are nested. -/
theorem Kept.after {s t u : State} (b : Kept t u) (a : Kept s t) : Kept s u := a.trans b

theorem Kept.ite {s a b : State} {c : Prop} {_ : Decidable c} (ha : Kept s a) (hb : Kept s b) :
    Kept s (if c then a else b) := by
  split
  · exact ha
  · exact hb

/-- An update of any fields but the memories. -/
theorem update_kept {s : State} {pending : List Instr} {ident : Ident} {pw : Power} {ck : Clock} {host service : LineSt}
    {cm : Commits} {runs : Vector RunSt 4} {mx : Matrix} {en : Engine} {ev : Events} {qu : Queue} {ga : Gather}
    {lg : Ledger} {pair : Pair} {se : Settle} {io : Io} {sf : Safe} {sp : Spares} :
    Kept s { pending, ident, pw, ck, host, service, cm, runs, mx, en, ev, qu, ga, mem := s.mem, lg, pair, se, io, sf,
             sp } :=
  id

/-- Where a body answers, the memories' form is kept. -/
def Yields (s : State) (x : Except Reason (State × List String)) : Prop := ∀ t ls, x = .ok (t, ls) → Kept s t

theorem Yields.error {s : State} {r : Reason} : Yields s (.error r) :=
  fun _ _ h => by simp at h

theorem Yields.ok {s t : State} {ls : List String} (h : Kept s t) : Yields s (.ok (t, ls)) := by
  rintro _ _ ⟨⟩
  exact h

theorem Yields.bind {α : Type} {s : State} {x : Except Reason α} {k : α → Except Reason (State × List String)}
    (h : ∀ a, Yields s (k a)) : Yields s (x >>= k) := by
  cases x with
  | error r => exact .error
  | ok a => exact h a

/-- A body whose ways meet again. -/
theorem Yields.join {α : Type} {s : State} {k : α → Except Reason (State × List String)}
    {b : (α → Except Reason (State × List String)) → Except Reason (State × List String)} (hk : ∀ a, Yields s (k a))
    (hb : ∀ j, (∀ a, Yields s (j a)) → Yields s (b j)) : Yields s (have j := k; b j) :=
  hb k hk

theorem Yields.ite {s : State} {c : Prop} [Decidable c] {x y : Except Reason (State × List String)} (hx : Yields s x)
    (hy : Yields s y) : Yields s (if c then x else y) := by
  split
  · exact hx
  · exact hy

theorem Yields.bindWant {α : Type} {s : State} {x : Option α} {r : Reason}
    {k : α → Except Reason (State × List String)} (h : ∀ a, x = some a → Yields s (k a)) :
    Yields s (want x r >>= k) := by
  cases x with
  | none => exact .error
  | some a => exact h a rfl

theorem foldl_fst_kept {α β : Type} {f : State × β → α → State × β} (hf : ∀ q a, Kept q.1 (f q a).1) {xs : List α}
    {s : State} {b : β} : Kept s (xs.foldl f (s, b)).1 := by
  induction xs generalizing s b with
  | nil => exact .rfl
  | cons a xs ih => exact ih.after (hf (s, b) a)

/-- One copy of the ledger taken over by the other (R348). -/
theorem copyOver_kept {s : State} {lg : Ledger} :
    Kept s { s with mem := { s.mem with a := s.mem.b }, lg }
      ∧ Kept s { s with mem := { s.mem with b := s.mem.a }, lg } := by
  simp only [Kept, Memories.wf, Bool.and_eq_true]
  grind

theorem CurrentsOnly.kept {s t : State} (h : CurrentsOnly s t) : Kept s t := .of_eq (by rw [h])

theorem Sampled.kept {s t : State} (h : Sampled s t) : Kept s t := by
  unfold Sampled at h
  exact h.kept

theorem Converted.kept {s t : State} (h : Converted s t) : Kept s t := h.talked.kept

theorem BurstEnded.kept {s t : State} (h : BurstEnded s t) : Kept s t := by
  unfold BurstEnded at h
  exact h.kept

theorem Queued.kept {s t : State} (h : Queued s t) : Kept s t := .of_eq h.mem

variable {s before : State} {g : Channel} {r : Run} {l : Line} {rq _rq : Req} {args : List String}
  {line role kind : Nat} {f : LineSt → LineSt}

theorem refreshOutputs_kept : Kept s (refreshOutputs s) := (refreshOutputs_works _).2
theorem noteCommit_kept {note : Option Line} {n : Nat} : Kept s (noteCommit note n s) := (noteCommit_talked _ _ _).kept
theorem blockBoundary_kept : Kept s (blockBoundary s) := (blockBoundary_works _).2
theorem flushURuns_kept : Kept s (flushURuns s) := (flushURuns_works _).2
theorem quantityPass_kept : Kept s (quantityPass s) := (quantityPass_works _).2
theorem checkInputs_kept : Kept s (checkInputs r s) := (checkInputs_pathed _ _).kept
theorem keepSets_kept : Kept s (keepSets s) := (keepSets_works _).2
theorem priceClosed_kept {stops : Bool} : Kept s (priceClosed stops s) := (priceClosed_works _ _).2
theorem spoil_kept {bad : Region → Bool} : Kept s (spoil bad s) := (spoil_queued _ _).kept
theorem closeInterval_kept {start : Nat} : Kept s (closeInterval start s) := (closeInterval_works _ _).2
theorem State.settle_kept {n : Nat} : Kept s (State.settle n s) := (settle_queued _ _).kept
theorem failAvg_kept {cause : String} : Kept s (failAvg r cause s) := (failAvg_pathed _ _ _).kept
theorem losePair_kept {c : Nat} : Kept s (losePair c s) := (losePair_works _ _).2
theorem noteTo_kept {text : String} : Kept s (noteTo l text s) := (noteTo_works _ _ _).2
theorem refreshCo_kept {x : Fin 4} : Kept s (refreshCo x s) := (refreshCo_works _ _).2
theorem sendPlain_kept {verb fields : String} : Kept s (sendPlain verb fields s) := (sendPlain_works _ _ _).2
theorem offer_kept {body : String} : Kept s (offer kind body s) := (offer_works _ _ _).2
theorem noteAll_kept {text : String} : Kept s (noteAll text s) := (noteAll_works _ _).2

theorem failFit_kept {cause : String} : Kept s (failFit r cause s) := by
  unfold failFit
  split
  · exact noteAll_kept.after update_kept
  · exact .rfl

theorem moduleNote_kept {code : Nat} {payload : List Byte} : Kept s (moduleNote s code payload) :=
  (moduleNote_works _ _ _).2
theorem ledgerPacket_kept {bytes : List Byte} : Kept s (ledgerPacket s kind bytes) := (ledgerPacket_works _ _ _).2
theorem wakeLine_kept : Kept s (wakeLine s) := (wakeLine_works _).2
theorem audit_kept {detail subject : Nat} {old new : Int} : Kept s (audit kind line role detail subject old new s) :=
  (audit_works _ _ _ _ _ _ _ _).2

theorem sendAck_kept : Kept s (sendAck s) := (sendAck_works _).2
theorem pump_kept : Kept s (pump l s) := (pump_talked _ _).kept
theorem sendReplies_kept {tag : Option Nat} {ls : List String} : Kept s (sendReplies l tag ls s) :=
  (sendReplies_talked _ _ _ _).kept

end Sys2Proof.Machine
end

section
/-! PROOFS. The shared operations, the command lines and the changes of parameters keep the memories' form (R203, R224,
R227). -/

namespace Sys2Proof.Machine

variable {s before : State} {g : Channel} {r : Run} {l : Line} {rq _rq : Req} {args : List String}
  {line role kind : Nat} {f : LineSt → LineSt}

/-! ## Shared operations -/

theorem State.modLine_kept : Kept s (State.modLine s l f) := by
  unfold State.modLine
  split
  · exact update_kept
  · exact update_kept

theorem autoChannels_kept : Kept s (autoChannels s) :=
  .foldl _ (fun _ _ => .ite update_kept .rfl) _ _

theorem shed_kept {cls : Nat} : Kept s (shed s cls) :=
  .after (.ite noteAll_kept .rfl) update_kept

theorem pushRing_kept {rec_ : List Word} : Kept s (pushRing s rec_) := fun h => pushRing_wf h rec_

theorem freeRing_kept : Kept s (freeRing s) := by
  unfold freeRing
  refine .ite .rfl (.after (.foldl _ (fun t g => ?_) _ _) update_kept)
  split
  · exact pushRing_kept.after update_kept
  · exact .rfl

theorem appendRing_kept {type code : Nat} {payload : List Byte} : Kept s (appendRing s type code payload) :=
  appendSmall_kept _ _ _

theorem auditLine_kept {detail subject : Nat} {old new : Int} : Kept s (auditLine l kind detail subject old new s) :=
  audit_kept

theorem auditTransition_kept {old new : ModState} {c : Cause} : Kept s (auditTransition old new line role c s) :=
  .ite update_kept audit_kept

theorem enter_kept {new : ModState} {c : Cause} : Kept s (enter new line role c s) :=
  noteAll_kept.after <| auditTransition_kept.after update_kept

/-! ## Command lines -/

theorem runLine_kept {verb : String} {body : Body} (hb : Yields s (body s)) : Kept s (runLine rq verb body s) := by
  unfold runLine
  refine .ite (pump_kept.after <| State.modLine_kept.after ?_) .rfl
  split
  next t lines answered => exact sendReplies_kept.after (hb t lines answered)
  next => exact sendReplies_kept

theorem startBit_kept : Kept s (startBit l s) :=
  wakeLine_kept.after State.modLine_kept

theorem characterReceived_kept {c : RxChar} : Kept s (characterReceived l c s) := by
  unfold characterReceived
  split
  · split
    · exact startBit_kept
    · exact .after (.ite State.modLine_kept .rfl) startBit_kept
    · exact .after (.ite .rfl (.ite (.ite State.modLine_kept (.ite .rfl State.modLine_kept)) (.ite (.ite
        State.modLine_kept State.modLine_kept) .rfl))) <| State.modLine_kept.after startBit_kept
  · exact .rfl

theorem lineEndReceived_kept {e : LineEnd} : Kept s (lineEndReceived l e s) :=
  .ite (.after (.ite State.modLine_kept (.ite State.modLine_kept (.after (.ite .rfl (.after (.ite State.modLine_kept
      (pump_kept.after State.modLine_kept)) State.modLine_kept)) State.modLine_kept))) startBit_kept) .rfl

theorem linePassEnd_kept : Kept s (linePassEnd s) :=
  .after (.ite update_kept .rfl) (flushNotes_talked _).kept

theorem emptyAttic_kept : Kept s (emptyAttic line role s) :=
  .ite update_kept (audit_kept.after update_kept)

theorem setRole_kept {new : Role} : Kept s (setRole l new s) :=
  .after (.ite (.ite emptyAttic_kept .rfl) audit_kept) <| State.modLine_kept.after <| .ite audit_kept .rfl

theorem wrongCode_kept : Kept s (wrongCode l s) :=
  .after (.ite (auditLine_kept.after State.modLine_kept) State.modLine_kept) auditLine_kept

theorem State.setCode_kept {r : Role} {c : Nat} : Kept s (State.setCode s r c) := by
  unfold State.setCode
  split
  · exact .rfl
  · exact update_kept
  · exact update_kept
  · exact update_kept

theorem bodyRole_yields : Yields s (bodyRole rq args s) := by
  unfold bodyRole
  refine .bind fun _ => .bind fun _ => ?_
  split
  · exact .bind fun _ => .bind fun _ => .bind fun _ => .bind fun _ => .ok setRole_kept
  · exact .bind fun _ => .bind fun _ => .bind fun _ => .bind fun _ => .bind fun _ => .ite (.ok setRole_kept) (.ok
      wrongCode_kept)

theorem bodyRoleCode_yields : Yields s (bodyRoleCode rq args s) := by
  unfold bodyRoleCode
  split
  · exact .bind fun _ => .bind fun _ => .bind fun _ => .bind fun _ => .bind fun _ => .bind fun _ => .bind fun _ =>
      .ite (.ok (auditLine_kept.after State.setCode_kept)) (.ok wrongCode_kept)
  · exact .error

theorem roleIdleTimeout_kept : Kept s (roleIdleTimeout l s) :=
  .ite (noteTo_kept.after setRole_kept) .rfl

theorem roleWarnDue_kept : Kept s (roleWarnDue l s) :=
  .ite (noteTo_kept.after State.modLine_kept) .rfl

theorem roleLockoutEnd_kept : Kept s (roleLockoutEnd l s) := by
  unfold roleLockoutEnd
  split
  · exact .ite State.modLine_kept .rfl
  · exact .rfl

theorem bodyGet_yields : Yields s (bodyGet rq args s) :=
  .bind fun _ => .bind fun _ => .bind fun _ => .ok .rfl

theorem bodyWatch_yields : Yields s (bodyWatch rq args s) := by
  unfold bodyWatch
  split
  · exact .bind fun _ => .ite (.bind fun _ => .bind fun _ => .ite (.bind fun _ => .bind fun _ => .bind fun _ => .ok
      State.modLine_kept) (.bind fun _ => .bind fun _ => .bind fun _ => .ok State.modLine_kept)) (.bind fun _ => .bind
      fun _ => .ite (.bind fun _ => .bind fun _ => .bind fun _ => .ok State.modLine_kept) (.bind fun _ => .bind fun _
      => .bind fun _ => .ok State.modLine_kept))
  · exact .error

theorem bodyQuiet_yields : Yields s (bodyQuiet rq args s) := by
  unfold bodyQuiet
  split
  · exact .bind fun _ => .ite (.bind fun _ => .ok State.modLine_kept) (.bind fun _ => .bind fun _ => .ok
      State.modLine_kept)
  · exact .error

theorem bodyHelp_yields : Yields s (bodyHelp rq args s) := by
  unfold bodyHelp
  split
  · exact .bind fun _ => .ok .rfl
  · exact .bind fun _ => .bind fun _ => .ok .rfl
  · exact .error

theorem watchNote_kept {w : Watch} {v : String} : Kept s (watchNote l w v s) :=
  State.modLine_kept

theorem watchPeriodDue_kept {param : Nat} : Kept s (watchPeriodDue l param s) := by
  unfold watchPeriodDue
  split
  · split
    · exact .ite watchNote_kept .rfl
    · exact .rfl
  · exact .rfl

theorem changeWatches_kept : Kept s (changeWatches l s) :=
  .ite (.foldl _ (fun _ _ => .ite (.ite .rfl watchNote_kept) .rfl) _ _) .rfl

/-! ## Outputs and inputs -/

theorem openPulses_kept : Kept s (openPulses s) :=
  .foldl _ (fun _ _ => update_kept) _ _

theorem endForce_kept {x : Fin 4} : Kept s (endForce line role x s) := by
  unfold endForce
  split
  · exact refreshCo_kept.after <| audit_kept.after update_kept
  · exact .rfl

theorem endForces_kept : Kept s (endForces s) :=
  .foldl _ (fun _ _ => endForce_kept) _ _

theorem takeOverAll_kept : Kept s (takeOverAll s) :=
  .foldl _ (fun _ _ => update_kept) _ _

/-! ## A run's measurement -/

theorem disturb_kept {vib : Bool} : Kept s (disturb r vib s) :=
  failAvg_kept.after update_kept

theorem disturbPilot_kept : Kept s (disturbPilot r s) :=
  failAvg_kept.after update_kept

theorem restartFe_kept : Kept s (restartFe r s) :=
  failFit_kept.after <| failAvg_kept.after update_kept

theorem auditReset_kept {m : Fin 8} : Kept s (auditReset m s) :=
  audit_kept

theorem resetMachine_kept {m : Fin 8} : Kept s (resetMachine m s) :=
  auditReset_kept.after update_kept

theorem safetySetNote_kept {outcome count : Nat} : Kept s (safetySetNote outcome count s) :=
  moduleNote_kept

theorem dropWait_kept {outcome : Nat} : Kept s (dropWait outcome s) := by
  unfold dropWait
  split
  · exact audit_kept.after <| safetySetNote_kept.after <| noteTo_kept.after update_kept
  · exact .rfl

theorem moveTo_kept {new : ModState} {c : Cause} : Kept s (moveTo new line role c s) := by
  unfold moveTo
  refine .after refreshOutputs_kept ?_
  split
  · exact update_kept.after <| update_kept.after <| update_kept.after <| takeOverAll_kept.after <| update_kept.after
      <| enter_kept.after <| .ite endForces_kept .rfl
  · exact update_kept.after <| update_kept.after <| update_kept.after <| update_kept.after <| enter_kept.after <| .ite
      endForces_kept .rfl
  · exact openPulses_kept.after <| update_kept.after <| enter_kept.after <| .ite endForces_kept .rfl

theorem resetLine_kept : Kept s (resetLine l s) :=
  State.modLine_kept.after setRole_kept

theorem keepRecord_kept {final : Bool} : Kept s (keepRecord final s) :=
  update_kept.after <| putBytes_kept _ _ _

/-! ## Changes of parameters -/

theorem storeMember_kept {m : Member} : Kept s (storeMember m s) :=
  audit_kept.after update_kept

theorem moveGains_kept : Kept s (moveGains before s) :=
  .ite .rfl (.foldl _ (fun _ _ => .foldl _ (fun _ _ => .ite .rfl storeMember_kept) _ _) _ _)

theorem effectRun_kept : Kept s (effectRun before s r) :=
  update_kept.after <| .after (.ite disturbPilot_kept .rfl) <| update_kept.after <| .after (.ite disturb_kept .rfl) <|
      .after (.ite disturb_kept .rfl) <| .after (.ite restartFe_kept .rfl) update_kept

theorem effectMachine_kept {m : Fin 8} : Kept s (effectMachine before s m) :=
  .after (.ite update_kept .rfl) <| .ite update_kept .rfl

theorem effectCo_kept {x : Fin 4} : Kept s (effectCo before s x) :=
  refreshCo_kept.after <| .after (.ite update_kept .rfl) <| .after (.ite update_kept .rfl) <| .ite update_kept .rfl

theorem effectPo_kept {x : Fin 4} : Kept s (effectPo before s x) :=
  .ite update_kept .rfl

theorem effectDi_kept : Kept s (effectDi before s) :=
  .ite .rfl (.after (.ite .rfl storeMember_kept) <| .ite .rfl storeMember_kept)

theorem effectAxes_kept : Kept s (effectAxes before s) :=
  .ite update_kept .rfl

theorem effects_kept : Kept s (effects before s) :=
  update_kept.after <| effectDi_kept.after <| .after (.foldl _ (fun _ _ => effectCo_kept) _ _) <| .after (.foldl _
      (fun _ _ => effectPo_kept) _ _) <| .after (.foldl _ (fun _ _ => effectMachine_kept) _ _) <| .after (.foldl _
      (fun _ _ => effectRun_kept) _ _) <| effectAxes_kept.after <| .ite .rfl update_kept

theorem applyMembers_kept {members : List Member} : Kept s (applyMembers members s) :=
  effects_kept.after <| .after (.foldl _ (fun _ _ => storeMember_kept) _ _) <| moveGains_kept.after <| .foldl _ (fun _
      _ => storeMember_kept) _ _

theorem schedule_kept {ms : List Member} {note : Option Line} : Kept s (schedule ms note s) := by
  unfold schedule
  dsimp only
  split
  · exact applyMembers_kept
  · exact update_kept
  · exact update_kept
  · exact update_kept

theorem applyDue_kept {d : DueSet} : Kept s (applyDue d s) :=
  .after (.ite noteCommit_kept (.ite (.ite noteCommit_kept update_kept) .rfl)) applyMembers_kept

theorem bodySet_yields : Yields s (bodySet rq args s) := by
  unfold bodySet
  refine .bind fun _ => ?_
  split
  · refine .bind fun _ => .bind fun _ => .bind fun _ => ?_
    split
    · exact .error
    · exact .ite (.ok (awaitConfirm_talked _ _ _).kept) (.ok schedule_kept)

theorem bodyStage_yields : Yields s (bodyStage rq args s) :=
  .bind fun (_, _) => .bind fun _ => .bind fun _ => .bind fun _ => .bind fun _ => .ok update_kept

theorem bodyCommit_yields : Yields s (bodyCommit rq args s) := by
  unfold bodyCommit
  refine .bind fun _ => .bind fun _ => .bind fun _ => .bind fun _ => .bind fun _ => ?_
  split
  · exact .error
  · exact .ite (.ok ((awaitConfirm_talked _ _ _).kept.after update_kept)) (.ok (schedule_kept.after update_kept))

theorem bodyDiscard_yields : Yields s (bodyDiscard rq args s) :=
  .bind fun _ => .bind fun _ => .bind fun _ => .bind fun _ => .ok emptyAttic_kept

theorem bodyDiscardPending_yields : Yields s (bodyDiscardPending rq args s) :=
  .bind fun _ => .bind fun _ => .bind fun _ => .ok update_kept

end Sys2Proof.Machine
end

section
/-! PROOFS. Blocks, records and the clock keep the memories' form (R203, R224, R227). -/

namespace Sys2Proof.Machine

variable {s before : State} {g : Channel} {r : Run} {l : Line} {rq _rq : Req} {args : List String}
  {line role kind : Nat} {f : LineSt → LineSt}

/-! ## Slow inputs -/

theorem bodyFePoint_yields : Yields s (bodyFePoint rq args s) := by
  unfold bodyFePoint
  split
  · exact .bind fun _ => .bind fun _ => .bind fun _ => .ite (.bind fun (_, _) => .bind fun _ => .bind fun _ => .bind
      fun _ => .ok update_kept) (.bind fun (_, _) => .bind fun _ => .bind fun _ => .bind fun _ => .ok update_kept)
  · exact .error

theorem bodyFeLeadcal_yields : Yields s (bodyFeLeadcal rq args s) := by
  unfold bodyFeLeadcal
  split
  · exact .bind fun _ => .bind fun _ => .bind fun _ => .ok update_kept
  · exact .error

theorem feLeadcalDone_kept : Kept s (feLeadcalDone r s) := by
  unfold feLeadcalDone
  dsimp only
  split
  · exact .ite (schedule_kept.after update_kept) .rfl
  · exact .rfl

theorem feRestartDone_kept : Kept s (feRestartDone r s) :=
  .ite ((noteRestarts_talked _).kept.after <| disturb_kept.after <| disturb_kept.after update_kept) .rfl

/-! ## Blocks -/

theorem tallyCrossing_kept {low millivolts atMicros : Nat} : Kept s (tallyCrossing r low millivolts atMicros s) :=
  .ite .rfl update_kept

theorem bodyKPoint_yields : Yields s (bodyKPoint rq args s) := by
  unfold bodyKPoint
  split
  · exact .bind fun _ => .bind fun _ => .bind fun (_, _) => .bind fun _ => .bind fun _ => .bind fun _ => .ok
      update_kept
  · exact .error

theorem bodyQPoint_yields : Yields s (bodyQPoint rq args s) := by
  unfold bodyQPoint
  split
  · exact .bind fun _ => .bind fun _ => .bind fun _ => .ite (.bind fun (_, _) => .bind fun _ => .bind fun _ => .bind
      fun _ => .ok update_kept) (.ite (.bind fun (_, _) => .bind fun _ => .bind fun _ => .bind fun _ => .ok
      update_kept) (.bind fun (_, _) => .bind fun _ => .bind fun _ => .bind fun _ => .ok update_kept))
  · exact .error

/-! ## Reconciliation -/

theorem equivocal_kept {t : Entry} {tag : List Byte} : Kept s (equivocal t tag s) := by
  unfold equivocal
  extract_lets s1 day mark se pair s2 s3
  have noted : Kept s s3 := noteAll_kept.after <| update_kept.after moduleNote_kept
  split
  · exact .ite noted ((decideInt_works _ _ _ _ _ _ _).2.after noted)
  · exact noted

theorem acceptIvl_kept {bs : List Byte} : Kept s (acceptIvl bs s) := by
  unfold acceptIvl
  extract_lets r tag s1 own closed new room
  have counted : Kept s s1 := update_kept
  clear_value own closed room
  split
  · exact .ite .rfl equivocal_kept
  · refine .ite (update_kept.after counted) ?_
    split
    · exact update_kept.after counted
    · extract_lets s2
      have filed : Kept s s2 := update_kept.after counted
      split
      · exact (decidePair_works _ _ _ _).2.after filed
      · exact filed

theorem bodyPair_yields : Yields s (bodyPair rq args s) := by
  unfold bodyPair
  split
  · exact .bind fun _ => .bind fun _ => .bind fun _ => .bind fun _ => .ite (.ok .rfl) (.ok (auditLine_kept.after
      update_kept))
  · exact .error

/-! ## Checks of records -/

theorem putCopy_kept {copy off : Nat} {bs : List Byte} :
    Kept s (putCopy copy off bs s) :=
  fun h => putCopy_wf h copy off bs

theorem rewrite_kept {k : Fin 4} {i good : Nat} : Kept s (rewrite k i good s) :=
  putCopy_kept.after <| putCopy_kept.after <| .foldl _ (fun _ _ => putCopy_kept) _ _

theorem tellDamage_kept {k : Fin 4} {i kase : Nat} : Kept s (tellDamage k i kase s) :=
  .ite (offer_kept.after update_kept) .rfl

theorem checkRecord_kept {k : Fin 4} {i : Nat} : Kept s (checkRecord k i s) := by
  unfold checkRecord
  split
  · exact .rfl
  · split
    · exact .ite .rfl (.ite (.ite .rfl (tellDamage_kept.after <| moduleNote_kept.after <| update_kept.after
        (setStatus_works _ _ _ _).2)) (moduleNote_kept.after <| update_kept.after <| (setStatus_works _ _ _ _).2.after
        rewrite_kept))

theorem ledgerScrub_kept {k : Fin 4} {i : Nat} : Kept s (ledgerScrub k i s) :=
  .ite (.after (.ite update_kept .rfl) checkRecord_kept) .rfl

/-! ## Ageing -/

theorem storeAge_kept {i : Fin 16} {a : AgeRec} : Kept s (storeAge i a s) :=
  .after (.ite (moduleNote_kept.after noteAll_kept) .rfl) <| update_kept.after update_kept

theorem evaluateAge_kept {i : Fin 16} : Kept s (evaluateAge i s) := by
  unfold evaluateAge
  split
  · extract_lets ys sp s1
    have sampled : Kept s s1 := update_kept
    split
    · exact storeAge_kept.after sampled
    · exact sampled
  · exact storeAge_kept.after update_kept

theorem evaluateAges_kept : Kept s (evaluateAges s) :=
  update_kept.after <| .foldl _ (fun _ _ => evaluateAge_kept) _ _

theorem thermalAccumulate_kept {dieTenths : Int} : Kept s (thermalAccumulate dieTenths s) :=
  .ite .rfl update_kept

theorem bodyAgeBackup_yields : Yields s (bodyAgeBackup rq args s) :=
  .bind fun _ => .bind fun _ => .bind fun _ => .bind fun _ => .ok (auditLine_kept.after update_kept)

/-! ## Interval records and closes -/

theorem keepBacklogWrite_kept : Kept s (keepBacklogWrite s) :=
  .ite (backlogStep_works _).2 .rfl

theorem blockTick_kept : Kept s (blockTick s) := .after (.ite quantityPass_kept .rfl) blockBoundary_kept

theorem cadenceAfter_kept {ready : List DueSet} : Kept s (cadenceAfter ready s) :=
  .ite update_kept .rfl

theorem commitApply_kept : Kept s (commitApply s) :=
  cadenceAfter_kept.after <| .after (.foldl _ (fun _ _ => applyDue_kept) _ _) <| update_kept.after (priceBefore_works
      _ _).2

theorem intervalBoundary_kept : Kept s (intervalBoundary s) :=
  .ite .rfl (.ite (.ite ((storeTime_works _).2.after <| keepRecord_kept.after blockBoundary_kept) .rfl) (.ite
      (intervalEnd_works _).2 .rfl))

theorem dailyClose_kept : Kept s (dailyClose s) :=
  .ite ((declineWaiting_works _).2.after <| (aloneByWait_works _).2.after <| evaluateAges_kept.after <| .after (.ite
      (afterRecords_works _).2 flushURuns_kept) <| (closeDays_works _ _ _).2.after <| .ite (intervalRecords_works _).2
      ((drainBacklog_works _).2.after priceClosed_kept)) .rfl

/-! ## The clock -/

theorem auditClock_kept {old new : Nat} : Kept s (auditClock line role old new s) :=
  audit_kept

theorem startSlew_kept {d : Int} : Kept s (startSlew line role d s) :=
  auditClock_kept.after update_kept

theorem writeFromCold_kept : Kept s (writeFromCold s) :=
  .after (.foldl _ (fun _ _ => audit_kept) _ _) update_kept

theorem becomeSet_kept {t : Nat} : Kept s (becomeSet t s) := by
  unfold becomeSet
  extract_lets now dur s1 ck lg s2 lg2 s3 s4 s5 s6 lg6
  have set : Kept s s2 := (drainBacklog_works _).2.after <| update_kept.after <| update_kept.after priceClosed_kept
  have begun : Kept s2 s3 := .ite closeInterval_kept update_kept
  have noted : Kept s3 s4 := moduleNote_kept.after flushURuns_kept
  have told : Kept s4 s5 := .foldl _ (fun _ _ => (quantityNote_works _ _ _ _ _).2) _ _
  have entered : Kept s5 s6 := writeFromCold_kept.after update_kept
  exact .after (.ite update_kept .rfl) <| entered.after <| told.after <| noted.after <| begun.after set

theorem clockStep_kept : Kept s (clockStep s) := by
  unfold clockStep
  split
  · exact .rfl
  · exact .ite .rfl (auditClock_kept.after <| update_kept.after <| flushURuns_kept.after <| .after (.ite update_kept
      (.ite closeInterval_kept update_kept)) <| update_kept.after <| .ite blockBoundary_kept (.ite
      (keepSets_kept.after <| (storeTime_works _).2.after (intervalRecords_works _).2) (priceClosed_kept.after
      blockBoundary_kept)))

theorem stepBack_kept {t : Nat} : Kept s (stepBack line role t s) :=
  auditClock_kept.after <| update_kept.after <| update_kept.after <| .after (.foldl _ (fun _ _ => (quantityNote_works
      _ _ _ _ _).2) _ _) <| (foldKeeps_works _).2.after <| .after (.ite .rfl quantityPass_kept) blockBoundary_kept

theorem setTime_kept {t : Nat} : Kept s (setTime line role t s).1 := by
  simp only [setTime, apply_ite Prod.fst]
  exact .ite (auditClock_kept.after <| becomeSet_kept.after update_kept) <| .ite (startSlew_kept.after update_kept) <|
    .ite (update_kept.after update_kept) <| .ite (stepBack_kept.after update_kept) <|
    auditClock_kept.after <| update_kept.after update_kept

theorem bodyTime_yields : Yields s (bodyTime _rq args s) :=
  .bind fun _ => .bind fun _ => .ok .rfl

theorem bodyTimeSet_yields : Yields s (bodyTimeSet rq args s) := by
  unfold bodyTimeSet
  split
  · exact .bind fun _ => .bind fun _ => .bind fun _ => .bind fun _ => .ok setTime_kept
  · exact .error

theorem clockTrim_kept {dieTenths : Int} : Kept s (clockTrim dieTenths s) :=
  .ite .rfl update_kept

theorem slewComplete_kept : Kept s (slewComplete s) :=
  .ite update_kept .rfl

theorem idleTick_kept : Kept s (idleTick s) :=
  (flushNotes_talked _).kept.after <| changeWatches_kept.after <| changeWatches_kept.after <| freeRing_kept.after <|
      (turnDue_works _).2.after <| (wakePass_works _).2.after update_kept

end Sys2Proof.Machine
end

section
/-! PROOFS. The tally conversation and the bursts keep the memories' form (R203, R224, R227). -/

namespace Sys2Proof.Machine

variable {s before : State} {g : Channel} {r : Run} {l : Line} {rq _rq : Req} {args : List String}
  {line role kind : Nat} {f : LineSt → LineSt}

/-! ## The tally conversation -/

theorem heard_kept : Kept s (heard s) :=
  wakeLine_kept.after update_kept

theorem heardAck_kept {h : FrameHead} : Kept s (heardAck h s) :=
  .after (.ite (takeAck_works _ _).2 .rfl) heard_kept

theorem sendHello_kept : Kept s (sendHello s) :=
  sendPlain_kept.after update_kept

theorem sendProve_kept {up : Bool} : Kept s (sendProve up s) :=
  sendPlain_kept

theorem refusePair_kept {r : RefuseReason} {key : List Byte} {serial : Nat} : Kept s (refusePair r key serial s) :=
  moduleNote_kept.after <| noteAll_kept.after <| update_kept.after sendPlain_kept

theorem noteConflict_kept {f : HelloFields} {up : Bool} : Kept s (noteConflict f up s) :=
  .ite (moduleNote_kept.after noteAll_kept) .rfl

theorem helloIn_kept {head : FrameHead} {f : HelloFields} : Kept s (helloIn head f s) := by
  unfold helloIn
  extract_lets s0
  have known : Kept s s0 := heard_kept.after (.ite losePair_kept .rfl)
  refine .ite ?_ .rfl
  split
  · exact known
  · extract_lets s1
    have resolved : Kept s s1 := update_kept.after <| noteConflict_kept.after known
    split
    · exact refusePair_kept.after resolved
    · refine .after (.ite (.ite update_kept .rfl) (update_kept.after <| sendProve_kept.after sendHello_kept)) ?_
      exact update_kept.after resolved

theorem offerStored_kept {q : Bool × Nat} : Kept s (offerStored s q) :=
  .after (.ite .rfl (.ite (offer_kept.after (offerRecord_works _ _ _ _ _).2) (offerRecord_works _ _ _ _ _).2))
      checkRecord_kept

theorem openingBalance_kept : Kept s (openingBalance s) := by
  unfold openingBalance
  split
  · exact update_kept.after <| .foldl _ (fun _ _ => moduleNote_kept.after moduleNote_kept) _ _

theorem addKey_kept : Kept s (addKey s) :=
  .ite .rfl (openingBalance_kept.after <| audit_kept.after <| (writeDir_kept _).after update_kept)

theorem openPair_kept : Kept s (openPair s) :=
  .after (.foldl _ (fun _ _ => offerStored_kept) _ _) <| .after (.ite .rfl offer_kept) <| addKey_kept.after <|
      moduleNote_kept.after <| noteAll_kept.after update_kept

theorem proveIn_kept {_h : FrameHead} {sig : List Byte} : Kept s (proveIn _h sig s) :=
  .ite (.after (.ite (.ite (update_kept.after sendProve_kept) refusePair_kept) (.ite (.ite (openPair_kept.after
      sendPlain_kept) refusePair_kept) .rfl)) heard_kept) .rfl

theorem refuseIn_kept {_h : FrameHead} {r : RefuseReason} : Kept s (refuseIn _h r s) :=
  .ite (moduleNote_kept.after <| update_kept.after heard_kept) .rfl

theorem ackIn_kept {h : FrameHead} : Kept s (ackIn h s) :=
  .ite (.after (.ite openPair_kept (.ite update_kept .rfl)) heardAck_kept) .rfl

theorem sequenced_kept {h : FrameHead} {body : State → State} (hb : ∀ t, Kept t (body t)) :
    Kept s (sequenced h body s) :=
  .ite (.after (.ite (.after (.ite sendAck_kept .rfl) ((hb _).after update_kept)) (.ite (sendNak_works _ _ _).2 (.ite
      sendAck_kept losePair_kept))) heardAck_kept) (.ite heard_kept .rfl)

theorem protocolFault_kept : Kept s (protocolFault s) :=
  .after (.ite losePair_kept .rfl) update_kept

theorem answerClose_kept {w : PartnerClose} : Kept s (answerClose s w) := by
  unfold answerClose
  split
  · exact update_kept
  · exact offer_kept.after update_kept
  · exact offer_kept

theorem retryWaiting_kept : Kept s (retryWaiting s) :=
  .after (.foldl _ (fun _ _ => answerClose_kept) _ _) update_kept

theorem ivlIn_kept {h : FrameHead} {record : List Byte} : Kept s (ivlIn h record s) :=
  sequenced_kept fun _ => .ite (retryWaiting_kept.after acceptIvl_kept) protocolFault_kept

theorem closeIn_kept {h : FrameHead} {record : List Byte} : Kept s (closeIn h record s) :=
  sequenced_kept fun _ => .ite update_kept protocolFault_kept

theorem csigIn_kept {h : FrameHead} {number : Nat} {chain sig : List Byte} :
    Kept s (csigIn h number chain sig s) := by
  refine sequenced_kept fun t => ?_
  split
  · exact .after (.ite answerClose_kept .rfl) update_kept
  · exact .rfl

theorem noCosig_kept {number reason : Nat} : Kept s (noCosig number reason s) :=
  moduleNote_kept

theorem cosigIn_kept {h : FrameHead} {number : Nat} {sig : List Byte} : Kept s (cosigIn h number sig s) := by
  refine sequenced_kept fun t => ?_
  split
  · exact .ite ((putBytes_kept _ _ _).after <| (putBytes_kept _ _ _).after <| putBytes_kept _ _ _) noCosig_kept
  · exact noCosig_kept

theorem declineIn_kept {h : FrameHead} {number : Nat} {reason : DeclineReason} :
    Kept s (declineIn h number reason s) :=
  sequenced_kept fun _ => noCosig_kept

theorem damageIn_kept {h : FrameHead} {chain : Fin 4} {index kase : Nat} : Kept s (damageIn h chain index kase s) :=
  sequenced_kept fun _ => moduleNote_kept

theorem tqIn_kept {h : FrameHead} {t1 : Nat} : Kept s (tqIn h t1 s) :=
  sequenced_kept fun _ => .ite offer_kept .rfl

theorem actOnOffset_kept {theta2 : Int} : Kept s (actOnOffset theta2 s) :=
  .ite (auditClock_kept.after becomeSet_kept) (.ite (.ite .rfl (moduleNote_kept.after <| noteAll_kept.after
      update_kept)) (.ite startSlew_kept .rfl))

theorem trIn_kept {h : FrameHead} {t1 t2 t3 : Nat} : Kept s (trIn h t1 t2 t3 s) := by
  refine sequenced_kept fun t => .ite ?_ .rfl
  dsimp only
  split
  · exact actOnOffset_kept.after update_kept
  · exact .rfl

theorem nakIn_kept {h : FrameHead} {seq : Nat} {check : NakCheck} : Kept s (nakIn h seq check s) :=
  .ite (.after (.ite .rfl (.after (.ite .rfl (resendTurn_works _ _).2) update_kept)) heardAck_kept) .rfl

theorem byeIn_kept {h : FrameHead} : Kept s (byeIn h s) :=
  .ite (update_kept.after heardAck_kept) .rfl

theorem frameCheckFail_kept {tag : Option Nat} {computed : Option (BitVec 16)} :
    Kept s (frameCheckFail tag computed s) :=
  .ite .rfl (.after (.ite (sendNak_works _ _ _).2 .rfl) wakeLine_kept)

theorem protocolError_kept {_tag : Option Nat} : Kept s (protocolError _tag s) :=
  .ite (protocolFault_kept.after heard_kept) .rfl

theorem helloRetry_kept : Kept s (helloRetry s) :=
  .ite (update_kept.after sendHello_kept) .rfl

theorem openingTimeout_kept : Kept s (openingTimeout s) :=
  .ite (wakeLine_kept.after update_kept) .rfl

theorem rtoExpiry_kept : Kept s (rtoExpiry s) := by
  unfold rtoExpiry
  split
  · exact .ite (wakeLine_kept.after <| (resendTurn_works _ _).2.after update_kept) .rfl
  · exact .rfl

theorem ackDelay_kept : Kept s (ackDelay s) :=
  .ite sendAck_kept .rfl

theorem keepaliveDue_kept : Kept s (keepaliveDue s) :=
  .ite (.ite (.ite (update_kept.after sendPlain_kept) .rfl) sendPlain_kept) .rfl

theorem sessionSilence_kept : Kept s (sessionSilence s) :=
  .ite (losePair_kept.after wakeLine_kept) .rfl

theorem turnRetake_kept : Kept s (turnRetake s) :=
  .ite (.after (.ite (update_kept.after sendPlain_kept) .rfl) <| (flushPair_works _).2.after update_kept) .rfl

theorem silentTimeout_kept : Kept s (silentTimeout s) :=
  .ite (wakeLine_kept.after update_kept) .rfl

theorem tqDue_kept : Kept s (tqDue s) :=
  .ite offer_kept .rfl

/-! ## Engine frames -/

theorem engineFrame_kept {clock : Nat} {f : Frame} : Kept s (engineFrame clock f s) :=
  (engineFrame_outcome _ _ _).1.kept

/-! ## Bursts -/

theorem burstWake_kept {b : Burst} : Kept s (burstWake b s) :=
  .ite (refreshOutputs_kept.after <| .after (.foldl _ (fun _ _ => engineFrame_kept) _ _) <| .after (.foldl _ (fun _ _
      => .foldl _ (fun _ _ => (convertRun_converted _ _ _ _).kept) _ _) _ _) <| (leadSecond_converted
      _).kept.after <| quantityPass_kept.after <| .ite .rfl ((startBurst_sampled _).kept.after <|
      update_kept.after update_kept)) .rfl

theorem burstEnd_kept : Kept s (burstEnd s) := by
  unfold burstEnd
  extract_lets s1 s2
  have ended : Kept s s1 := update_kept
  have turned : Kept s1 s2 := .ite (turnSecond_burstEnded _).kept (closeBurst_burstEnded _).kept
  exact .ite (refreshOutputs_kept.after <| update_kept.after <| turned.after ended) .rfl

theorem pilotResult_kept : Kept s (pilotResult r s) := by
  unfold pilotResult
  dsimp only
  split
  · exact .rfl
  · exact .ite .rfl (.ite update_kept (checkInputs_kept.after <| .after (.ite update_kept .rfl) <| update_kept.after
      update_kept))

theorem bodyPilotRef_yields : Yields s (bodyPilotRef rq args s) := by
  unfold bodyPilotRef
  split
  · exact .bind fun _ => .bind fun _ => .bind fun _ => .ok update_kept
  · exact .error

theorem pilotRefDone_kept : Kept s (pilotRefDone r s) := by
  unfold pilotRefDone
  dsimp only
  split
  · exact .ite .rfl (noteAll_kept.after <| audit_kept.after update_kept)
  · exact .rfl

theorem bodyVibfit_yields : Yields s (bodyVibfit rq args s) := by
  unfold bodyVibfit
  split
  · exact .bind fun _ => .bind fun _ => .bind fun _ => .bind fun _ => .bind fun _ => .ok update_kept
  · exact .error

theorem vibfitDone_kept {o : VibfitOutcome} : Kept s (vibfitDone r o s) := by
  unfold vibfitDone
  split
  · exact .ite .rfl (noteAll_kept.after update_kept)
  · exact .ite checkInputs_kept failFit_kept
  · exact .rfl

theorem requestBeep_kept {code : Nat} {fromLine : Bool} : Kept s (requestBeep code fromLine s).1 := by
  simp only [requestBeep, apply_ite Prod.fst]
  exact .ite update_kept .rfl

theorem bodyBeep_yields : Yields s (bodyBeep rq args s) := by
  unfold bodyBeep
  split
  · exact .bind fun _ => .bind fun _ => .bind fun _ => .ok requestBeep_kept
  · exact .error

theorem bodyBeepStop_yields : Yields s (bodyBeepStop rq args s) :=
  .bind fun _ => .bind fun _ => .bind fun _ => .ok update_kept

theorem beepPatternEnd_kept : Kept s (beepPatternEnd s) := by
  unfold beepPatternEnd
  split
  · split
    · exact .ite update_kept .rfl
    · exact .rfl
  · exact .rfl

end Sys2Proof.Machine
end

section
/-! PROOFS. The event engine, the outputs and the safety function keep the memories' form (R203, R224, R227). -/

namespace Sys2Proof.Machine

variable {s before : State} {g : Channel} {r : Run} {l : Line} {rq _rq : Req} {args : List String}
  {line role kind : Nat} {f : LineSt → LineSt}

/-! ## The event engine -/

theorem eventRecord_kept {e : Event} : Kept s (eventRecord e s) :=
  appendRing_kept

theorem eventPacket_kept {e : Event} : Kept s (eventPacket e s) :=
  .ite update_kept (packet_queued _ _ _ _).kept

theorem eventNote_kept {e : Event} : Kept s (eventNote e s) :=
  .after (.ite noteTo_kept .rfl) <| .ite noteTo_kept .rfl

theorem flushRates_kept : Kept s (flushRates s) :=
  update_kept.after <| .foldl _ (fun _ _ => .ite appendRing_kept .rfl) _ _

theorem closeRates_kept : Kept s (closeRates s) :=
  .ite .rfl flushRates_kept

theorem publish_kept {e : Event} : Kept s (publish s e) :=
  .after (.ite (eventNote_kept.after <| eventPacket_kept.after eventRecord_kept) .rfl) update_kept

theorem eventPulse_kept {x : Fin 4} {width : Nat} : Kept s (eventPulse x width s) :=
  .ite update_kept .rfl

theorem doAction_kept {i : Fin 8} {w : Word} : Kept s (doAction i s w) := by
  unfold doAction
  dsimp only
  split
  · exact update_kept
  · exact appendRing_kept
  · exact eventPulse_kept
  · exact .ite update_kept .rfl
  · exact update_kept
  · refine .ite requestBeep_kept ?_
    split
    · exact .ite update_kept .rfl
    · exact .rfl
  · exact update_kept
  · exact update_kept
  · exact update_kept
  · exact .rfl

theorem takeTransition_kept {q : Fin 8 × Word} : Kept s (takeTransition s q) :=
  .after (.foldl _ (fun _ _ => doAction_kept) _ _) update_kept

theorem adoptMachine_kept {i : Fin 8} : Kept s (adoptMachine s i) :=
  .ite update_kept (.ite update_kept .rfl)

theorem passTick_kept {idle : Bool} : Kept s (passTick idle s) := by
  unfold passTick
  split
  · exact .ite .rfl (.ite update_kept update_kept)

theorem auditResets_kept {t : State} : Kept t (auditResets s t) :=
  .foldl _ (fun _ _ => auditReset_kept) _ _

theorem eventTick_kept : Kept s (eventTick s) :=
  .ite (passTick_kept.after <| auditResets_kept.after <| .after (.foldl _ (fun _ _ => takeTransition_kept) _ _) <|
      .after (.foldl _ (fun _ _ => publish_kept) _ _) <| update_kept.after <| .after (.foldl _ (fun _ _ =>
      adoptMachine_kept) _ _) closeRates_kept) .rfl

theorem wakeEvent_kept : Kept s (wakeEvent s) :=
  .ite update_kept .rfl

theorem smTimerExpiry_kept {i : Fin 8} {k : Fin 2} : Kept s (smTimerExpiry i k s) := by
  unfold smTimerExpiry
  split
  · exact .ite (wakeEvent_kept.after update_kept) .rfl
  · exact .rfl

theorem recogniseKnock_kept {peak : Nat} : Kept s (recogniseKnock peak s) := by
  unfold recogniseKnock
  extract_lets dead ev s1
  have knocked : Kept s s1 := wakeEvent_kept.after update_kept
  refine .ite (.ite .rfl ?_) .rfl
  split
  · exact .ite knocked (.ite (update_kept.after <| update_kept.after knocked) (update_kept.after <|
      update_kept.after knocked))
  · exact update_kept.after knocked

theorem knockAction_kept {peak : Nat} : Kept s (knockAction peak s) :=
  .ite .rfl (.after (.ite update_kept recogniseKnock_kept) update_kept)

theorem knockRunOut_kept : Kept s (knockRunOut s) := by
  unfold knockRunOut
  split
  · exact .ite (update_kept.after <| wakeEvent_kept.after update_kept) .rfl
  · exact .rfl

theorem hammerAction_kept : Kept s (hammerAction r s) := by
  unfold hammerAction
  split
  · exact .rfl
  · exact .ite (update_kept.after update_kept) update_kept

theorem cadenceOff_kept : Kept s (cadenceOff r s) :=
  .ite (update_kept.after update_kept) .rfl

theorem cadenceTakes_kept {e : CadenceInput} : Kept s (cadenceTakes r e s) := by
  unfold cadenceTakes
  split
  · split
    · exact update_kept
    · exact .ite (update_kept.after cadenceOff_kept) (.after (.ite .rfl (.after (.ite (update_kept.after update_kept)
        (.ite cadenceOff_kept .rfl)) update_kept)) update_kept)
    · exact update_kept.after cadenceOff_kept
  · exact .rfl

theorem cadenceAction_kept : Kept s (cadenceAction r s) := by
  unfold cadenceAction
  split
  · exact .rfl
  · exact cadenceTakes_kept.after update_kept

theorem releaseFall_kept : Kept s (releaseFall s) := by
  unfold releaseFall
  split
  · exact .rfl
  · exact .after (.ite (update_kept.after update_kept) .rfl) update_kept

theorem releaseTakes_kept {rms : Nat} {judged : Bool} : Kept s (releaseTakes r rms judged s) :=
  .ite (.after (.ite update_kept .rfl) update_kept) .rfl

theorem releaseAction_kept : Kept s (releaseAction r s) := by
  unfold releaseAction
  split
  · exact .rfl
  · exact releaseTakes_kept.after update_kept

theorem turnRot_kept : Kept s (turnRot s) := by
  unfold turnRot
  split
  · exact .rfl
  · exact .after (.ite update_kept .rfl) update_kept

theorem tiltTakes_kept {tenths : Nat} : Kept s (tiltTakes tenths s) :=
  .ite (.after (.ite update_kept .rfl) update_kept) .rfl

theorem turnTilt_kept : Kept s (turnTilt s) := by
  unfold turnTilt
  split
  · split
    · exact .after (.ite tiltTakes_kept .rfl) update_kept
    · exact update_kept
  · exact .rfl

theorem bodyTurnRef_yields : Yields s (bodyTurnRef rq args s) :=
  .bind fun _ => .bind fun _ => .bind fun _ => .ok (auditLine_kept.after update_kept)

theorem bodySmWord_yields : Yields s (bodySmWord rq args s) := by
  unfold bodySmWord
  split
  · exact .bind fun _ => .bind fun _ => .bind fun _ => .bind fun _ => .bind fun _ => .bind fun _ => .bind fun _ => .ok
      update_kept
  · exact .error

theorem bodySmAct_yields : Yields s (bodySmAct rq args s) := by
  unfold bodySmAct
  split
  · exact .bind fun _ => .bind fun _ => .bind fun _ => .bind fun _ => .bind fun _ => .bind fun _ => .ok update_kept
  · exact .error

theorem bodySmFactory_yields : Yields s (bodySmFactory rq args s) := by
  unfold bodySmFactory
  split
  · exact .bind fun _ => .bind fun _ => .bind fun _ => .ok update_kept
  · exact .error

theorem bodySmReset_yields : Yields s (bodySmReset rq args s) := by
  unfold bodySmReset
  split
  · exact .bind fun _ => .bind fun _ => .bind fun _ => .ok update_kept
  · exact .error

/-! ## Limiter, forces and valves -/

theorem valveCheck_kept {x : Fin 4} : Kept s (valveCheck x s) := by
  unfold valveCheck
  split
  · exact update_kept
  · exact .after (.ite (moduleNote_kept.after <| noteAll_kept.after update_kept) .rfl) update_kept

theorem valveChecks_kept : Kept s (valveChecks s) :=
  .foldl _ (fun _ _ => valveCheck_kept) _ _

theorem limiterUpdate_kept {x : Fin 4} : Kept s (limiterUpdate x s) := by
  unfold limiterUpdate
  extract_lets s1 energy c
  have marked : Kept s s1 := update_kept
  refine .ite ?_ .rfl
  split
  · exact valveCheck_kept.after <| refreshCo_kept.after <| update_kept.after marked
  · exact .ite (refreshCo_kept.after <| update_kept.after marked) (valveCheck_kept.after <| .after (.ite
      (moduleNote_kept.after noteAll_kept) .rfl) <| refreshCo_kept.after <| update_kept.after marked)

theorem bodyCoForce_yields : Yields s (bodyCoForce rq args s) := by
  unfold bodyCoForce
  split
  · exact .bind fun _ => .bind fun _ => .bind fun _ => .bind fun _ => .bind fun _ => .bind fun _ => .bind fun _ => .ok
      (refreshCo_kept.after <| auditLine_kept.after update_kept)
  · exact .error

theorem bodyCoForceEnd_yields : Yields s (bodyCoForceEnd rq args s) := by
  unfold bodyCoForceEnd
  split
  · exact .bind fun _ => .bind fun _ => .bind fun _ => .bind fun _ => .ok endForce_kept
  · exact .error

theorem forceExpiry_kept {x : Fin 4} : Kept s (forceExpiry x s) := by
  unfold forceExpiry
  split
  · exact .ite endForce_kept .rfl
  · exact .rfl

theorem coReadback_kept {x : Fin 4} {microAmp stood : Nat} : Kept s (coReadback x microAmp stood s) :=
  .ite (refreshCo_kept.after update_kept) .rfl

theorem noteBacklog_kept {x : Fin 4} : Kept s (noteBacklog x s) :=
  .ite (noteAll_kept.after update_kept) .rfl

theorem pulseIssue_kept {x : Fin 4} : Kept s (pulseIssue x s) :=
  .ite (update_kept.after noteBacklog_kept) .rfl

/-! ## The safety function -/

theorem judgeTap_kept {t : Tap} : Kept s (judgeTap s t).1 :=
  update_kept

theorem judgeTaps_kept : Kept s (judgeTaps s).1 := by
  refine .after (foldl_fst_kept fun q t => ?_) update_kept
  exact judgeTap_kept

theorem recordFired_kept {number : Nat} {f : Fired} : Kept s (recordFired number f s) :=
  moduleNote_kept

theorem sayFired_kept {fs : List Fired} : Kept s (sayFired fs s) :=
  .foldl _ (fun _ _ => noteAll_kept) _ _

theorem addCauses_kept {fs : List Fired} : Kept s (addCauses fs s).1 := by
  refine foldl_fst_kept fun q f => ?_
  simp only [apply_ite Prod.fst]
  exact .ite .rfl (recordFired_kept.after update_kept)

theorem furtherCauses_kept {fs : List Fired} : Kept s (furtherCauses fs s) :=
  sayFired_kept.after addCauses_kept

theorem enterSafe_kept {f : Fired} {rest : List Fired} : Kept s (enterSafe f rest s) :=
  sayFired_kept.after <| moveTo_kept.after <| addCauses_kept.after <| recordFired_kept.after update_kept

theorem latchAtLoss_kept {causes : List Nat} : Kept s (latchAtLoss causes s) :=
  .ite .rfl update_kept

theorem actOnCauses_kept {fs : List Fired} : Kept s (actOnCauses fs s) := by
  unfold actOnCauses
  split
  · exact .rfl
  · split
    · exact .ite update_kept enterSafe_kept
    · exact furtherCauses_kept
    · exact .foldl _ (fun _ _ => noteAll_kept) _ _
    · exact .foldl _ (fun _ _ => noteAll_kept) _ _
    · exact .foldl _ (fun _ _ => noteAll_kept) _ _
    · exact .ite latchAtLoss_kept .rfl
    · exact .ite latchAtLoss_kept .rfl

theorem safetyJudgement_kept {given : List Nat} : Kept s (safetyJudgement given s) :=
  actOnCauses_kept.after <| update_kept.after judgeTaps_kept

theorem weldedContact_kept {relay : Relay} : Kept s (weldedContact relay s) :=
  .ite (.after (.ite actOnCauses_kept .rfl) update_kept) .rfl

theorem evaluatorRestart_kept {passed : Bool} : Kept s (evaluatorRestart passed s) :=
  .ite .rfl (.after (.ite actOnCauses_kept .rfl) update_kept)

theorem resetRequest_kept {source : Nat} : Kept s (resetRequest source line role s).1 := by
  unfold resetRequest
  dsimp only
  split
  · exact noteAll_kept.after <| autoChannels_kept.after <| moveTo_kept.after <| update_kept.after <| .after (.ite
      resetMachine_kept .rfl) moduleNote_kept
  · exact noteAll_kept.after moduleNote_kept

theorem bodySafetyReset_yields : Yields s (bodySafetyReset rq args s) :=
  .bind fun _ => .bind fun _ => .bind fun _ => .bind fun _ => .bind fun _ => .ok resetRequest_kept

theorem confirmSet_kept {w : WaitSet} : Kept s (confirmSet w s) :=
  audit_kept.after <| moduleNote_kept.after <| .after (.ite noteCommit_kept .rfl) <| schedule_kept.after update_kept

theorem bodySafetyConfirm_yields : Yields s (bodySafetyConfirm rq args s) := by
  unfold bodySafetyConfirm
  split
  · refine .join (fun code => .bind fun _ => ?_) fun confirm answered => .ite (.bind answered) (.bind answered)
    split
    · exact .error
    · exact .bind fun _ => .ite (.ok dropWait_kept) (.ite (.ok (.ite dropWait_kept update_kept)) (.bind fun _ => .ok
        confirmSet_kept))
  · exact .error

theorem confirmTimeout_kept : Kept s (confirmTimeout s) := by
  unfold confirmTimeout
  split
  · exact .ite dropWait_kept .rfl
  · exact .rfl

theorem diEdge_kept {x : Fin 4} {high : Bool} : Kept s (diEdge x high s) :=
  .ite .rfl (.after (.ite valveChecks_kept .rfl) <| .after (.ite resetRequest_kept .rfl) update_kept)

theorem diChange_kept {pin : DigitalPin} {high : Bool} {stood : Nat} : Kept s (diChange pin high stood s) := by
  unfold diChange
  split
  · split
    · exact diEdge_kept
    · exact update_kept
  · exact .rfl

end Sys2Proof.Machine
end

section
/-! PROOFS. The self-test, the repairs and the queue keep the memories' form (R203, R224, R227). -/

namespace Sys2Proof.Machine

variable {s before : State} {g : Channel} {r : Run} {l : Line} {rq _rq : Req} {args : List String}
  {line role kind : Nat} {f : LineSt → LineSt}

/-! ## Self-test and repairs -/

theorem recordTest_kept {occasion verdict mask millis : Nat} {xs : List (Failure × Nat × Nat)} :
    Kept s (recordTest occasion verdict mask millis xs s) :=
  moduleNote_kept.after <| ledgerPacket_kept.after update_kept

theorem abandonTest_kept : Kept s (abandonTest s) := by
  unfold abandonTest
  split
  · exact recordTest_kept.after update_kept
  · exact .rfl

theorem abandonSequence_kept : Kept s (abandonSequence s) :=
  .ite recordTest_kept (.ite recordTest_kept .rfl)

theorem copyNote_kept {copy st : Nat} : Kept s (copyNote copy st s) :=
  moduleNote_kept

theorem judgeCopies_kept {mask : Nat} {fs : List Failure} : Kept s (judgeCopies mask fs s) := by
  unfold judgeCopies
  refine .ite .rfl ?_
  split
  · exact .ite (copyNote_kept.after update_kept) (.ite (copyNote_kept.after update_kept) .rfl)
  · exact .ite .rfl (copyNote_kept.after copyOver_kept.1)
  · exact .ite .rfl (copyNote_kept.after copyOver_kept.2)

theorem enterRepair_kept {entry failed spare : Nat} {t : State} (h : enterRepair entry failed spare s = some t) :
    Kept s t := by
  have put (table : List Repair) : Kept s { s with sp := { s.sp with table } } := update_kept
  unfold enterRepair at h
  dsimp only at h
  split at h
  · obtain rfl := Option.some.inj h
    exact put _
  · split at h
    · obtain rfl := Option.some.inj h
      exact put _
    · split at h
      · obtain rfl := Option.some.inj h
        exact put _
      · cases h

theorem remapRow_kept {row : Nat} {t : State} (h : remapRow row s = some t) : Kept s t := by
  unfold remapRow at h
  split at h
  · cases h
  · obtain ⟨u, entered, rfl⟩ := Option.map_eq_some_iff.mp h
    exact update_kept.after (enterRepair_kept entered)

theorem repairCell_kept {unit : Nat} : Kept s (repairCell unit s).1 := by
  unfold repairCell
  split
  · exact .rfl
  · split
    · split
      next t entered => exact enterRepair_kept entered
      next => exact .rfl
    · split
      · exact .rfl
      · split
        · exact .rfl
        · split
          next t entered => exact applyMembers_kept.after (enterRepair_kept entered)
          next => exact .rfl

theorem repairStep_kept {fs : List Failure} {fallback : Bool} {acc : State × List (Failure × Nat × Nat)} {f : Failure} :
    Kept acc.1 (repairStep fs fallback acc f).1 := by
  unfold repairStep
  dsimp only
  split
  · exact .rfl
  · split
    · exact .rfl
    · split
      · exact repairCell_kept
      · simp only [apply_ite Prod.fst]
        refine .ite .rfl <| .ite (.ite .rfl <| .ite ?_ <| .ite .rfl .rfl) <| .ite .rfl .rfl
        split
        next mapped => exact remapRow_kept mapped
        next => exact .rfl

theorem chuteWords_kept : Kept s (chuteWords s) :=
  .ite storeMember_kept .rfl

theorem startOutcome_kept {r : TestRun} : Kept s (startOutcome r s).1 :=
  recordTest_kept.after <| chuteWords_kept.after <| judgeCopies_kept.after <| update_kept.after <| .after
      (foldl_fst_kept fun _ _ => repairStep_kept) update_kept

theorem stopOutcome_kept {r : TestRun} : Kept s (stopOutcome r s).1 :=
  recordTest_kept.after <| judgeCopies_kept.after update_kept

theorem bodyTest_yields : Yields s (bodyTest rq args s) := by
  refine .bind fun item => .bind fun _ => .bind fun i => .bind fun _ => .join (b := fun start => match args[1]? with
    | some t => (runField t).map some >>= start
    | none => .ok none >>= start) (fun run => ?_) fun start started => ?_
  · refine .bind fun _ => .bind fun _ => .bind fun _ => .bind fun _ => .ok (.after (.ite update_kept .rfl) ?_)
    cases run with
    | some r => exact restartFe_kept.after update_kept
    | none => exact update_kept
  · split
    · exact .bind started
    · exact .bind started

theorem testComplete_kept {r : TestRun} : Kept s (testComplete r s) := by
  unfold testComplete
  split
  · exact .rfl
  · exact (noteSeries_talked _ _ _).kept.after <| recordTest_kept.after <| judgeCopies_kept.after <| .after (.ite
      update_kept .rfl) update_kept

theorem auditRepair_kept {unit : Nat} {old new : Int} : Kept s (auditRepair l unit old new s) :=
  auditLine_kept

theorem bodyRepairCell_yields : Yields s (bodyRepairCell rq args s) := by
  unfold bodyRepairCell
  split
  · refine .bind fun f => .bind fun k => .bind fun _ => .bind fun _ => .bind fun _ => .bind fun _ =>
      .bindWant fun t entered => .bind fun _ => .ok (auditRepair_kept.after (.after ?_ (enterRepair_kept entered)))
    split
    · exact schedule_kept
    · exact .rfl
  · exact .error

theorem bodyRepairRow_yields : Yields s (bodyRepairRow rq args s) := by
  unfold bodyRepairRow
  split
  · exact .bind fun _ => .bind fun _ => .bind fun _ => .bind fun _ => .bindWant fun _ mapped => .bind fun _ =>
      .ok (auditRepair_kept.after (remapRow_kept mapped))
  · exact .error

theorem bodyRepairClear_yields : Yields s (bodyRepairClear rq args s) := by
  unfold bodyRepairClear
  split
  · exact .bind fun _ => .bind fun _ => .bind fun _ => .bind fun _ => .bind fun _ => .bind fun _ => .ok
      (auditRepair_kept.after update_kept)
  · exact .error

theorem bodyRepairBurn_yields : Yields s (bodyRepairBurn rq args s) := by
  unfold bodyRepairBurn
  split
  · exact .bind fun _ => .bind fun _ => .bind fun _ => .bind fun _ => .bind fun _ => .bind fun _ => .bind fun _ =>
      .bind fun _ => .ite (.ok (auditRepair_kept.after update_kept)) (.ok (auditRepair_kept.after update_kept))
  · exact .error

/-! ## The journal queue -/

theorem setProg_kept {a : Nat} {w : Word} : Kept s (setProg a w s) :=
  .ite update_kept .rfl

theorem post_kept {status low : Nat} {w3 : Word} : Kept s (post g kind status low w3 s) :=
  .ite pushRing_kept update_kept

theorem abandonMark_kept : Kept s (abandonMark g s) :=
  update_kept.after <| update_kept.after spoil_kept

theorem grantWaiter_kept {w : Waiter} : Kept s (grantWaiter w s) := by
  unfold grantWaiter
  split
  · exact update_kept.after <| (grant_queued _ _).kept.after update_kept
  · exact (grant_queued _ _).kept.after update_kept

theorem reservationGrant_kept : Kept s (reservationGrant s) := by
  unfold reservationGrant
  split
  · split
    · exact grantWaiter_kept
    · exact .rfl
  · exact .rfl

theorem shedWaitTimeout_kept : Kept s (shedWaitTimeout g s) := by
  unfold shedWaitTimeout
  split
  · exact .ite (shed_kept.after <| update_kept.after <| update_kept.after (takeSeq_queued _ _).kept) .rfl
  · exact .rfl

theorem shedSpellEnd_kept : Kept s (shedSpellEnd s) := by
  unfold shedSpellEnd
  split
  · exact .ite ((appendSmall_kept _ _ _).after update_kept) .rfl
  · exact .rfl

theorem reservationTimeout_kept : Kept s (reservationTimeout s) :=
  .after (.foldl _ (fun _ _ => update_kept) _ _) spoil_kept

theorem finishMove_kept {status : Nat} {bad : Bool} : Kept s (finishMove g status bad s) :=
  update_kept.after <| .ite (setProg_kept.after setProg_kept) (.ite post_kept .rfl)

theorem endPacket_kept : Kept s (endPacket s) := by
  unfold endPacket
  split
  · exact .after (.ite finishMove_kept .rfl) <| State.settle_kept.after update_kept
  · exact .rfl

theorem bodyDrop_yields : Yields s (bodyDrop _rq args s) :=
  .bind fun _ => .bind fun _ => .ok (update_kept.after endPacket_kept)

theorem queueReset_kept {cause : QueueFault} : Kept s (queueReset cause s) :=
  .ite (moduleNote_kept.after <| noteAll_kept.after <| State.settle_kept.after <| update_kept.after endPacket_kept)
      .rfl

theorem lingerExpiry_kept : Kept s (lingerExpiry s) :=
  .ite (update_kept.after noteAll_kept) .rfl

theorem drainPassEnd_kept : Kept s (drainPassEnd s) :=
  .ite update_kept .rfl

end Sys2Proof.Machine
end

section
/-! PROOFS. The gather engine keeps the memories' form (R203, R218, R227). -/

namespace Sys2Proof.Machine

variable {s before : State} {g : Channel} {r : Run} {l : Line} {rq _rq : Req} {args : List String}
  {line role kind : Nat} {f : LineSt → LineSt}

/-! ## The gather engine -/

theorem readWord_kept {fixed ends : Bool} {a : Nat} {t : State} {w : Word}
    (h : readWord g fixed a s = .moved w ends t) : Kept s t := by
  unfold readWord at h
  split at h
  · split at h
    · split at h
      next read =>
        obtain ⟨-, -, rfl⟩ := h
        exact (readPort_queued read).kept
      next => cases h
    · cases h
  · split at h
    · split at h
      · split at h
        · obtain ⟨-, -, rfl⟩ := h
          exact update_kept
        · cases h
      · cases h
    · split at h
      · cases h
      · split at h
        · obtain ⟨-, -, rfl⟩ := h
          exact .rfl
        · cases h

theorem writeWord_kept {a : Nat} {w : Word} : Kept s (writeWord g a w s) := fun h => writeWord_wf h g a w

theorem formatHost_kept : ∀ {n : Nat} {s : State}, Kept s (formatHost n s)
  | 0, _ => .rfl
  | n + 1, s => by
    unfold formatHost
    split
    · exact .rfl
    · exact .ite .rfl (formatHost_kept.after (.ite ((noteSeries_talked _ _ _).kept.after update_kept) update_kept))

theorem formatPorts_kept : Kept s (formatPorts s) :=
  update_kept.after formatHost_kept

theorem settlePace_kept : Kept s (settlePace g s) :=
  .ite update_kept .rfl

theorem endProgram_kept {status : Nat} {restart : Bool} : Kept s (endProgram g status restart s) :=
  .after (.ite update_kept .rfl) <| update_kept.after <| post_kept.after <| setProg_kept.after abandonMark_kept

theorem busError_kept {a : Nat} {write : Bool} : Kept s (busError g kind a write s) :=
  .after (.ite (noteAll_kept.after <| (releasePort_queued _ _).kept.after update_kept) finishMove_kept) <|
      post_kept.after abandonMark_kept

theorem moveStart_kept : Kept s (moveStart g s) :=
  .after (.ite update_kept .rfl) update_kept

theorem correctedError_kept {a : Nat} : Kept s (correctedError a s) :=
  .after (.ite update_kept .rfl) update_kept

theorem memoryError_kept {a : Nat} {e : Option TransferError} : Kept s (memoryError a e s).1 := by
  unfold memoryError
  split
  · split
    · exact update_kept
    · exact .rfl
  · split
    · exact .rfl
    · exact .rfl
  · split
    · exact correctedError_kept
    · exact .rfl
  · exact .rfl

theorem landingError_kept {a : Nat} {e : Option TransferError} : Kept s (landingError g a e s) :=
  .ite (update_kept.after <| spoil_kept.after update_kept) .rfl

theorem deliverBad_kept {sf df : Bool} : Kept s (deliverBad g sf df s) := by
  unfold deliverBad
  refine .ite .rfl ?_
  split
  next w ends t read => exact .after (.ite update_kept .rfl) (writeWord_kept.after (readWord_kept read))
  next => exact .rfl

theorem readFails_kept {a : Nat} {sf df : Bool} : Kept s (readFails g kind a sf df s) :=
  .ite (.after (.ite queueReset_kept .rfl) <| busError_kept.after deliverBad_kept) busError_kept

theorem moveLoop_kept {err : Option (Nat × TransferError)} : ∀ {n : Nat} {s : State}, Kept s (moveLoop n g err s)
  | 0, _ => .rfl
  | n + 1, s => by
    rw [moveLoop_succ]
    refine .ite finishMove_kept <| .ite update_kept <| .ite .rfl ?_
    split
    · exact busError_kept
    · split
      · exact readFails_kept.after memoryError_kept
      · refine .ite busError_kept <| .ite update_kept ?_
        split
        · exact busError_kept
        · exact update_kept
        next w ends t read =>
          have carried : Kept s (s.carried g (errorHere err s.ga.chans[g].moved) w t) :=
            update_kept.after <| update_kept.after <| update_kept.after <| landingError_kept.after <|
              writeWord_kept.after <| (readWord_kept read).after memoryError_kept
          exact .ite (finishMove_kept.after carried) (moveLoop_kept.after carried)

theorem moveStep_kept {err : Option (Nat × TransferError)} : Kept s (moveStep g err s) :=
  .ite (.ite endProgram_kept (settlePace_kept.after <| formatPorts_kept.after <| moveLoop_kept.after <| .ite
      moveStart_kept .rfl)) .rfl

theorem nextInstr_kept : Kept s (nextInstr g s) :=
  settlePace_kept.after update_kept

theorem loopStep_kept : Kept s (loopStep g s) :=
  .ite (.ite (settlePace_kept.after update_kept) (nextInstr_kept.after update_kept)) .rfl

theorem expireWait_kept {status : Nat} : Kept s (expireWait g status s) :=
  .after (.ite (settlePace_kept.after <| update_kept.after <| .ite abandonMark_kept .rfl) (nextInstr_kept.after
      update_kept)) post_kept

theorem passWait_kept : Kept s (passWait g s) :=
  nextInstr_kept.after <| update_kept.after <| .ite update_kept .rfl

theorem breakRing_kept {h : Channel} : Kept s (breakRing g h s) :=
  .ite (.ite .rfl (expireWait_kept.after update_kept)) .rfl

theorem requestMark_kept {pc : Nat} : Kept s (requestMark g pc s).1 :=
  update_kept.after (ask_queued _ _).kept

theorem waitStep_kept : Kept s (waitStep g s) :=
  .ite (.after (.foldl _ (fun _ _ => breakRing_kept) _ _) <| .after (.ite (update_kept.after <| requestMark_kept.after
      abandonMark_kept) .rfl) update_kept) .rfl

theorem waitSatisfied_kept : Kept s (waitSatisfied g s) :=
  .ite passWait_kept .rfl

theorem waitTimeout_kept : Kept s (waitTimeout g s) := by
  unfold waitTimeout
  split
  · exact .ite (.ite passWait_kept expireWait_kept) .rfl
  · exact .rfl

theorem signalStep_kept : Kept s (signalStep g s) :=
  .ite (nextInstr_kept.after <| .ite update_kept post_kept) .rfl

theorem markStep_kept : Kept s (markStep g s) :=
  .ite (.ite (nextInstr_kept.after update_kept) (.ite update_kept (.after (.ite nextInstr_kept update_kept) <|
      requestMark_kept.after abandonMark_kept))) .rfl

theorem endStep_kept : Kept s (endStep g s) :=
  .ite (settlePace_kept.after endProgram_kept) .rfl

theorem opcodeFault_kept : Kept s (opcodeFault g s) :=
  .ite endProgram_kept .rfl

theorem portStallEnd_kept : Kept s (portStallEnd g s) :=
  .ite update_kept .rfl

theorem paceResume_kept : Kept s (paceResume g s) :=
  .ite update_kept .rfl

theorem channelStopped_kept : Kept s (channelStopped g s) :=
  .ite (noteAll_kept.after <| update_kept.after <| (releasePort_queued _ _).kept.after <| abandonMark_kept.after
      post_kept) .rfl

theorem ringPostTimeout_kept : Kept s (ringPostTimeout g s) := by
  unfold ringPostTimeout
  split
  · exact .ite (update_kept.after update_kept) .rfl
  · exact .rfl

theorem bodyGatherShow_yields : Yields s (bodyGatherShow rq args s) := by
  unfold bodyGatherShow
  refine .bind fun _ => ?_
  split
  · exact .bind fun _ => .bind fun _ => .bind fun _ => .ok .rfl
  · exact .bind fun _ => .bind fun _ => .bind fun _ => .ok .rfl

theorem bodyGatherRing_yields : Yields s (bodyGatherRing rq args s) := by
  unfold bodyGatherRing
  refine .bind fun _ => ?_
  split
  · exact .bind fun _ => .bind fun _ => .bind fun _ => .ok .rfl
  · exact .bind fun _ => .bind fun _ => .bind fun _ => .ok .rfl

theorem bodyGatherRead_yields : Yields s (bodyGatherRead rq args s) := by
  unfold bodyGatherRead
  split
  · exact .bind fun _ => .bind fun _ => .bind fun _ => .bind fun _ => .ok .rfl
  · exact .error

theorem bodyGatherWord_yields : Yields s (bodyGatherWord rq args s) := by
  unfold bodyGatherWord
  split
  · exact .bind fun _ => .bind fun _ => .bind fun _ => .bind fun _ => .bind fun _ => .bind fun _ => .bind fun _ => .ok
      (auditLine_kept.after <| .foldl _ (fun _ _ => update_kept.after setProg_kept) _ _)
  · exact .error

theorem bodyGatherStart_yields : Yields s (bodyGatherStart rq args s) :=
  .bind fun _ => .bind fun _ => .bind fun _ => .bind fun _ => .bind fun _ => .ok update_kept

theorem bodyGatherStop_yields : Yields s (bodyGatherStop rq args s) :=
  .bind fun _ => .bind fun _ => .bind fun _ => .bind fun _ => .ok update_kept

theorem haltedRequest_yields {word : String} {act : Channel → State → State} (hact : ∀ g, Kept s (act g s)) :
    Yields s (haltedRequest rq args word act s) :=
  .bind fun _ => .bind fun _ => .bind fun _ => .bind fun _ => .ok (hact _)

theorem skipChan_kept : Kept s (skipChan g s) := by
  unfold skipChan
  split
  · exact finishMove_kept.after update_kept
  · exact update_kept

theorem resetChan_kept : Kept s (resetChan g s) :=
  .after (.ite update_kept .rfl) update_kept

end Sys2Proof.Machine
end

section
/-! PROOFS. Supply, start and stop, and the readouts keep the memories' form (R203, R224, R227). -/

namespace Sys2Proof.Machine

variable {s before : State} {g : Channel} {r : Run} {l : Line} {rq _rq : Req} {args : List String}
  {line role kind : Nat} {f : LineSt → LineSt}

/-! ## Supply, start and stop -/

theorem volatileReset_kept : Kept s (volatileReset s) := volatileReset_wf

theorem resetLines_kept : Kept s (resetLines s) :=
  resetLine_kept.after resetLine_kept

theorem enterCold_kept {s0 : State} : Kept s0 (enterCold s0) :=
  update_kept.after (unsetCounts_works _).2

theorem keepCounts_kept : Kept s (keepCounts s) :=
  update_kept.after <| .after (.ite .rfl (update_kept.after audit_kept)) <| .ite .rfl (update_kept.after audit_kept)

theorem mendKeep_kept {i : Nat} : Kept s (mendKeep s i) :=
  .ite .rfl (moduleNote_kept.after <| update_kept.after putCopy_kept)

theorem beginStart_kept {c : Cause} : Kept s (beginStart line role c s) :=
  update_kept.after <| keepCounts_kept.after <| .after (.foldl _ (fun _ _ => mendKeep_kept) _ _) <| moveTo_kept.after
      <| resetLines_kept.after <| volatileReset_kept.after <| .after (.ite update_kept .rfl) <| .ite (leaveCold_works
      _).2 (.after (.ite (takeKeeps_works _).2 quantityPass_kept) blockBoundary_kept)

theorem bodyStart_yields : Yields s (bodyStart rq args s) :=
  .bind fun _ => .bind fun _ => .bind fun _ => .bind fun _ => .bind fun _ => .bind fun _ => .ok beginStart_kept

theorem echoOff_kept : Kept s (echoOff s) :=
  .ite storeMember_kept .rfl

theorem readForm_kept {f : HostForm} : Kept s (readForm f s) :=
  echoOff_kept.after update_kept

theorem newInterval_kept : Kept s (newInterval before s) :=
  .ite .rfl (update_kept.after <| flushURuns_kept.after <| .after (.ite closeInterval_kept .rfl) <| .ite
      (priceClosed_kept.after blockBoundary_kept) .rfl)

theorem applyPending_kept : Kept s (applyPending s) :=
  newInterval_kept.after <| applyMembers_kept.after update_kept

theorem loadEngines_kept : Kept s (loadEngines s) :=
  .after (.foldl _ (fun _ _ => update_kept) _ _) <| update_kept.after <| update_kept.after update_kept

theorem takeDir_kept {b : List Byte} : Kept s (takeDir b s) := by
  unfold takeDir
  exact update_kept

theorem readDirectory_kept : Kept s (readDirectory s) := by
  fun_cases readDirectory with
  | case1 => exact takeDir_kept
  | case2 => exact .rfl

theorem checkHeads_kept : Kept s (checkHeads s) :=
  .after (.foldl _ (fun _ _ => .ite .rfl checkRecord_kept) _ _) readDirectory_kept

theorem startTested_kept {r : TestRun} {c : Prop} {_ : Decidable c} :
    Kept s (if c then (s, false) else startOutcome r s).1 := by
  rw [apply_ite Prod.fst]
  exact .ite .rfl startOutcome_kept

theorem startComplete_kept {r : TestRun} {form : HostForm} : Kept s (startComplete r form s) :=
  .ite (.after (.ite moveTo_kept <| .ite moveTo_kept <| .ite (moveTo_kept.after update_kept) <|
    autoChannels_kept.after moveTo_kept) <| update_kept.after <| readForm_kept.after <| loadEngines_kept.after <|
    update_kept.after <| startTested_kept.after <| applyPending_kept.after checkHeads_kept) .rfl

theorem failAll_kept : Kept s (failAll s) :=
  .foldl _ (fun _ _ => failFit_kept.after failAvg_kept) _ _

theorem bodyStop_yields : Yields s (bodyStop rq args s) :=
  .bind fun _ => .bind fun _ => .bind fun _ => .bind fun _ => .bind fun _ => .ok (moveTo_kept.after <|
      update_kept.after <| update_kept.after <| (declineWaiting_works _).2.after <| failAll_kept.after <|
      emptyAttic_kept.after dropWait_kept)

theorem enterKeep_kept {c : Cause} : Kept s (enterKeep c s) :=
  update_kept.after <| keepRecord_kept.after <| moveTo_kept.after update_kept

theorem declineLeft_kept : Kept s (declineLeft s) :=
  .foldl _ (fun _ _ => .ite (sendOffer_works _ _).2 .rfl) _ _

theorem sayBye_kept {s0 : State} : Kept s0 (sayBye s0) :=
  .after (.ite (update_kept.after sendPlain_kept) .rfl) <| .ite declineLeft_kept .rfl

theorem stopComplete_kept {r : TestRun} : Kept s (stopComplete r s) :=
  .ite (enterKeep_kept.after <| update_kept.after <| stopOutcome_kept.after <| ledgerPacket_kept.after <|
      update_kept.after <| keepSets_kept.after <| sayBye_kept.after <| flushRates_kept.after <|
      quantityPass_kept.after blockBoundary_kept) .rfl

theorem abandonAll_kept : Kept s (abandonAll s) := by
  unfold abandonAll
  extract_lets s1
  have left : Kept s s1 := emptyAttic_kept.after <| dropWait_kept.after <| abandonSequence_kept.after <|
    abandonTest_kept.after <| failAll_kept.after (lastPass_works _).2
  clear_value s1
  exact .ite (audit_kept.after <| update_kept.after left) left

theorem losePower_kept : Kept s (losePower s) := by
  unfold losePower
  extract_lets s1 rec_ lg s2 pw s3 k s4 lg5 pw5 s5
  have left : Kept s s3 := update_kept.after <| ledgerPacket_kept.after <| update_kept.after <| keepSets_kept.after <|
    abandonAll_kept.after blockBoundary_kept
  clear_value s3
  have ended : Kept s3 s4 := .ite endForces_kept .rfl
  exact .ite (enterKeep_kept.after left) (refreshOutputs_kept.after <| enterCold_kept.after <| update_kept.after <|
    openPulses_kept.after <| update_kept.after <| update_kept.after <| ended.after left)

theorem supplyLoss_kept : Kept s (supplyLoss s) := by
  unfold supplyLoss
  extract_lets pw s1 pw2 s2
  have lost : Kept s s1 := update_kept
  have asleep : Kept s s2 := update_kept.after lost
  refine .ite ?_ .rfl
  split
  · exact lost
  · exact .ite (refreshOutputs_kept.after asleep) (enterCold_kept.after <| moveTo_kept.after asleep)
  · exact latchAtLoss_kept.after <| losePower_kept.after lost

theorem supplyReturn_kept {mv : Nat} : Kept s (supplyReturn mv s) :=
  .ite (.after (.ite refreshOutputs_kept beginStart_kept) update_kept) .rfl

theorem supplyApplied_kept {mv : Nat} : Kept s (supplyApplied mv s) :=
  .ite (beginStart_kept.after update_kept) .rfl

theorem cellFit_kept {mv : Nat} : Kept s (cellFit mv s) :=
  .after (.ite (enterKeep_kept.after <| update_kept.after (leaveCold_works _).2) .rfl) update_kept

theorem cellTest_kept {mv : Nat} : Kept s (cellTest mv s) :=
  .ite .rfl (.after (.ite (.after (.ite (audit_kept.after noteAll_kept) .rfl) <| .after (.ite noteAll_kept .rfl)
      update_kept) (.ite (.after (.ite (enterCold_kept.after <| moveTo_kept.after <| keepRecord_kept.after
      blockBoundary_kept) .rfl) update_kept) .rfl)) update_kept)

theorem nrstAsserted_kept : Kept s (nrstAsserted s) :=
  .ite (.after (.ite (resetLines_kept.after <| audit_kept.after update_kept) (resetLines_kept.after <|
      volatileReset_kept.after <| moveTo_kept.after <| update_kept.after <| audit_kept.after <| abandonAll_kept.after
      <| flushRates_kept.after blockBoundary_kept)) update_kept) .rfl

theorem nrstReleased_kept {form : HostForm} : Kept s (nrstReleased form s) :=
  .ite (.after (.ite update_kept .rfl) <| readForm_kept.after <| audit_kept.after update_kept) .rfl

theorem sealLoopChange_kept {isOpen : Bool} : Kept s (sealLoopChange isOpen s) :=
  .ite .rfl (.after (.ite (.ite update_kept .rfl) (.after (.ite (wakeEvent_kept.after update_kept) .rfl) audit_kept))
      update_kept)

/-! ## The ledger read -/

theorem checkAll_kept {k : Fin 4} {is : List Nat} : Kept s (checkAll k is s) :=
  .foldl _ (fun _ _ => checkRecord_kept) _ _

theorem bodyLedgerInterval_yields : Yields s (bodyLedgerInterval _rq args s) := by
  unfold bodyLedgerInterval
  split
  · exact .bind fun _ => .bind fun _ => .bind fun _ => .bind fun _ => .bind fun _ => .ok checkAll_kept
  · exact .error

theorem bodyLedgerClose_yields : Yields s (bodyLedgerClose _rq args s) := by
  unfold bodyLedgerClose
  split
  · exact .bind fun _ => .bind fun _ => .bind fun _ => .bind fun _ => .ok checkAll_kept
  · exact .error

theorem smallReadout_yields {k : Fin 4} {line : State → Nat → String} : Yields s (smallReadout k line args s) := by
  unfold smallReadout
  split
  · exact .bind fun _ => .bind fun _ => .bind fun _ => .bind fun _ => .ok checkAll_kept
  · exact .error

theorem bodyLedgerHead_yields : Yields s (bodyLedgerHead _rq args s) :=
  .bind fun _ => .bind fun _ => .ok .rfl

theorem bodyLedgerRaw_yields : Yields s (bodyLedgerRaw rq args s) := by
  unfold bodyLedgerRaw
  split
  · refine .bind fun _ => .bind fun _ => .bind fun _ => .bind fun _ => .bind fun _ => .bind fun _ => .ok ?_
    split
    · exact checkAll_kept
    · exact .rfl
  · exact .error

theorem verifyRange_kept {k : Fin 4} {is : List Nat} : Kept s (verifyRange k is s).1 := by
  refine foldl_fst_kept fun q i => ?_
  simp only [apply_ite Prod.fst]
  exact .ite checkRecord_kept .rfl

theorem bodyLedgerVerify_yields : Yields s (bodyLedgerVerify rq args s) := by
  unfold bodyLedgerVerify
  split
  · exact .bind fun _ => .bind fun _ => .bind fun _ => .bind fun _ => .bind fun _ => .ok verifyRange_kept
  · exact .error

/-! ## SHOW -/

theorem bodyShow_yields : Yields s (bodyShow rq args s) :=
  .bind fun _ => .bind fun _ => .bind fun _ => .bind fun _ => .ok .rfl

end Sys2Proof.Machine
end

section
/-! PROOFS. Every step keeps the memories' form (R203, R224, R227). -/

namespace Sys2Proof.Machine

variable {s u : State}

/-- Where a command answers a next state, the memories' form is kept. -/
def Keeps (s : State) (o : Host.Outcome State Fault Refusal) : Prop := ∀ t, o = .next t → Kept s t

theorem Keeps.next (h : Kept s u) : Keeps s (.next u) := by
  rintro _ ⟨⟩
  exact h

theorem Keeps.done (h : Kept s u) : Keeps s (done u) := .next ((flushNotes_talked u).kept.after h)

/-- Above 32.0 V the supply gives no next state (R361). -/
theorem Keeps.limited {c : Prop} [Decidable c] {fault : Fault} (h : Kept s u) :
    Keeps s (if c then .fault fault else Machine.done u) := by
  split
  · exact fun _ h => by cases h
  · exact .done h

/-- Every command keeps the memories' form. -/
theorem exec_keeps : ∀ i : Instr, Keeps s (exec i s)
  | .get _ _ => .done (runLine_kept bodyGet_yields)
  | .set _ _ => .done (runLine_kept bodySet_yields)
  | .stage _ _ => .done (runLine_kept bodyStage_yields)
  | .commit _ _ => .done (runLine_kept bodyCommit_yields)
  | .discard _ _ => .done (runLine_kept bodyDiscard_yields)
  | .discardPending _ _ => .done (runLine_kept bodyDiscardPending_yields)
  | .show _ _ => .done (runLine_kept bodyShow_yields)
  | .watch _ _ => .done (runLine_kept bodyWatch_yields)
  | .quiet _ _ => .done (runLine_kept bodyQuiet_yields)
  | .help _ _ => .done (runLine_kept bodyHelp_yields)
  | .role _ _ => .done (runLine_kept bodyRole_yields)
  | .roleCodeChange _ _ => .done (runLine_kept bodyRoleCode_yields)
  | .time _ _ => .done (runLine_kept bodyTime_yields)
  | .timeSet _ _ => .done (runLine_kept bodyTimeSet_yields)
  | .start _ _ => .done (runLine_kept bodyStart_yields)
  | .stop _ _ => .done (runLine_kept bodyStop_yields)
  | .drop _ _ => .done (runLine_kept bodyDrop_yields)
  | .pair _ _ => .done (runLine_kept bodyPair_yields)
  | .test _ _ => .done (runLine_kept bodyTest_yields)
  | .testComplete _ => .done testComplete_kept
  | .ledgerInterval _ _ => .done (runLine_kept bodyLedgerInterval_yields)
  | .ledgerClose _ _ => .done (runLine_kept bodyLedgerClose_yields)
  | .ledgerEvents _ _ => .done (runLine_kept smallReadout_yields)
  | .ledgerAudit _ _ => .done (runLine_kept smallReadout_yields)
  | .ledgerHead _ _ => .done (runLine_kept bodyLedgerHead_yields)
  | .ledgerRaw _ _ => .done (runLine_kept bodyLedgerRaw_yields)
  | .ledgerVerify _ _ => .done (runLine_kept bodyLedgerVerify_yields)
  | .gatherShow _ _ => .done (runLine_kept bodyGatherShow_yields)
  | .gatherRing _ _ => .done (runLine_kept bodyGatherRing_yields)
  | .gatherRead _ _ => .done (runLine_kept bodyGatherRead_yields)
  | .gatherWord _ _ => .done (runLine_kept bodyGatherWord_yields)
  | .gatherStart _ _ => .done (runLine_kept bodyGatherStart_yields)
  | .gatherStop _ _ => .done (runLine_kept bodyGatherStop_yields)
  | .gatherResume _ _ => .done (runLine_kept (haltedRequest_yields fun _ => update_kept))
  | .gatherSkip _ _ => .done (runLine_kept (haltedRequest_yields fun _ => skipChan_kept))
  | .gatherReset _ _ => .done (runLine_kept (haltedRequest_yields fun _ => resetChan_kept))
  | .doFePoint _ _ => .done (runLine_kept bodyFePoint_yields)
  | .doFeLeadcal _ _ => .done (runLine_kept bodyFeLeadcal_yields)
  | .doKPoint _ _ => .done (runLine_kept bodyKPoint_yields)
  | .doQPoint _ _ => .done (runLine_kept bodyQPoint_yields)
  | .doMatrixVibfit _ _ => .done (runLine_kept bodyVibfit_yields)
  | .vibfitDone _ _ => .done vibfitDone_kept
  | .doPilotRef _ _ => .done (runLine_kept bodyPilotRef_yields)
  | .pilotRefDone _ => .done pilotRefDone_kept
  | .doBeep _ _ => .done (runLine_kept bodyBeep_yields)
  | .doBeepStop _ _ => .done (runLine_kept bodyBeepStop_yields)
  | .beepPatternEnd => .next beepPatternEnd_kept
  | .doTurnRef _ _ => .done (runLine_kept bodyTurnRef_yields)
  | .doSmWord _ _ => .done (runLine_kept bodySmWord_yields)
  | .doSmAct _ _ => .done (runLine_kept bodySmAct_yields)
  | .doSmFactory _ _ => .done (runLine_kept bodySmFactory_yields)
  | .doSmReset _ _ => .done (runLine_kept bodySmReset_yields)
  | .doCoForce _ _ => .done (runLine_kept bodyCoForce_yields)
  | .doCoForceEnd _ _ => .done (runLine_kept bodyCoForceEnd_yields)
  | .forceExpiry _ => .done forceExpiry_kept
  | .doSafetyReset _ _ => .done (runLine_kept bodySafetyReset_yields)
  | .doSafetyConfirm _ _ => .done (runLine_kept bodySafetyConfirm_yields)
  | .safetyConfirmTimeout => .done confirmTimeout_kept
  | .doRepairCell _ _ => .done (runLine_kept bodyRepairCell_yields)
  | .doRepairRow _ _ => .done (runLine_kept bodyRepairRow_yields)
  | .doRepairClear _ _ => .done (runLine_kept bodyRepairClear_yields)
  | .doRepairBurn _ _ => .done (runLine_kept bodyRepairBurn_yields)
  | .doAgeBackupFitted _ _ => .done (runLine_kept bodyAgeBackup_yields)
  | .lineEndReceived _ _ => .done lineEndReceived_kept
  | .characterReceived _ _ => .next characterReceived_kept
  | .linePassEnd => .next linePassEnd_kept
  | .roleIdleTimeout _ => .done roleIdleTimeout_kept
  | .roleWarnDue _ => .done roleWarnDue_kept
  | .roleLockoutEnd _ => .next roleLockoutEnd_kept
  | .watchPeriodDue _ _ => .done watchPeriodDue_kept
  | .commitApply => .done commitApply_kept
  | .supplyApplied _ => .limited supplyApplied_kept
  | .backupCellFitted _ => .done cellFit_kept
  | .supplyLoss => .done supplyLoss_kept
  | .supplyReturn _ => .limited supplyReturn_kept
  | .backupCellTest _ => .done cellTest_kept
  | .nrstAsserted => .done nrstAsserted_kept
  | .nrstReleased _ => .done nrstReleased_kept
  | .startSequenceComplete _ _ => .done startComplete_kept
  | .stopSequenceComplete _ => .done stopComplete_kept
  | .sealLoopChange _ => .done sealLoopChange_kept
  | .diChange _ _ => .done diChange_kept
  | .valveDiscrepancy _ => .done (.ite valveCheck_kept .rfl)
  | .tallyCrossing _ _ _ => .next tallyCrossing_kept
  | .blockBoundary => .done blockTick_kept
  | .intervalBoundary => .done intervalBoundary_kept
  | .dailyClose => .done dailyClose_kept
  | .keepBacklogWrite => .done keepBacklogWrite_kept
  | .clockTrim _ => .next clockTrim_kept
  | .thermalAccumulate _ => .next thermalAccumulate_kept
  | .clockStep => .done clockStep_kept
  | .slewComplete => .next slewComplete_kept
  | .burstWake _ => .done burstWake_kept
  | .burstEnd _ => .done burstEnd_kept
  | .feRestartDone _ => .done feRestartDone_kept
  | .pilotResult _ _ _ => .done pilotResult_kept
  | .eventTick => .done eventTick_kept
  | .smTimerExpiry _ _ => .next smTimerExpiry_kept
  | .knock _ => .next knockAction_kept
  | .hammer _ _ _ => .next hammerAction_kept
  | .cadence _ _ => .next cadenceAction_kept
  | .releaseFall _ _ => .next releaseFall_kept
  | .release _ _ _ => .next releaseAction_kept
  | .turnRot _ => .next turnRot_kept
  | .turnTilt _ => .next turnTilt_kept
  | .safetyJudgement _ => .done safetyJudgement_kept
  | .weldedContact _ => .done weldedContact_kept
  | .evaluatorRestart _ => .done evaluatorRestart_kept
  | .limiterUpdate _ _ => .done limiterUpdate_kept
  | .coReadback _ _ => .next coReadback_kept
  | .pulseIssue _ => .done pulseIssue_kept
  | .reservationGrant => .next reservationGrant_kept
  | .shedWaitTimeout _ => .done shedWaitTimeout_kept
  | .shedSpellEnd => .next shedSpellEnd_kept
  | .reservationTimeout => .next reservationTimeout_kept
  | .queueReset _ => .done queueReset_kept
  | .lingerExpiry => .done lingerExpiry_kept
  | .drainPassEnd => .next drainPassEnd_kept
  | .move _ _ => .done moveStep_kept
  | .loop _ => .next loopStep_kept
  | .wait _ => .next waitStep_kept
  | .waitSatisfied _ => .next waitSatisfied_kept
  | .waitTimeout _ => .next waitTimeout_kept
  | .signal _ => .next signalStep_kept
  | .mark _ => .next markStep_kept
  | .endProg _ => .next endStep_kept
  | .opcodeFault _ => .next opcodeFault_kept
  | .portStallEnd _ => .next portStallEnd_kept
  | .paceResume _ => .next paceResume_kept
  | .channelStopped _ => .done channelStopped_kept
  | .ringPostTimeout _ => .next ringPostTimeout_kept
  | .ledgerScrub _ _ => .done ledgerScrub_kept
  | .hello _ _ => .done helloIn_kept
  | .prove _ _ => .done proveIn_kept
  | .refuse _ _ => .done refuseIn_kept
  | .ack _ => .done ackIn_kept
  | .nak _ _ _ => .done nakIn_kept
  | .bye _ => .done byeIn_kept
  | .ivl _ _ => .done ivlIn_kept
  | .close _ _ => .done closeIn_kept
  | .csig _ _ _ _ => .done csigIn_kept
  | .cosig _ _ _ => .done cosigIn_kept
  | .decline _ _ _ => .done declineIn_kept
  | .damage _ _ _ _ => .done damageIn_kept
  | .tq _ _ => .done tqIn_kept
  | .tr _ _ _ _ => .done trIn_kept
  | .frameCheckFail _ _ => .done frameCheckFail_kept
  | .protocolError _ => .done protocolError_kept
  | .helloRetry => .done helloRetry_kept
  | .openingTimeout => .done openingTimeout_kept
  | .rtoExpiry => .done rtoExpiry_kept
  | .ackDelay => .done ackDelay_kept
  | .keepaliveDue => .done keepaliveDue_kept
  | .sessionSilence => .done sessionSilence_kept
  | .turnRetake => .done turnRetake_kept
  | .silentTimeout => .done silentTimeout_kept
  | .tqDue => .done tqDue_kept
  | .feLeadcalDone _ _ => .done feLeadcalDone_kept
  | .knockDoubleMaxRunOut => .next knockRunOut_kept

/-- Settles O5: every command keeps the form of the memories, and so does a millisecond with no command. -/
theorem memoryFormKept : Obligations.MemoryFormKept := by
  unfold Obligations.MemoryFormKept
  intro s t formed stepped
  unfold step at stepped
  split at stepped
  next c rest _ => exact exec_keeps (s := { s with pending := rest }) c t stepped formed
  next => exact Keeps.next idleTick_kept t stepped formed

end Sys2Proof.Machine
end

section
/-! PROOFS. Stalls, pauses, stops and records without a slot (R204, R213, R214, R217): each row by whether it is due, and
the stop as the parts that the channel gives up. -/

namespace Sys2Proof.Machine

/-! ## A stall and a pause -/

section Runs

variable {g : Channel} {s : State}

theorem portStallEnd_due (on : engineOn s = true) (stalls : s.ga.chans[g].st = .stall) (stands : standsAt s g 1 = true)
    (moves : canMove s g = true) : portStallEnd g s = s.modChan g fun c => { c with st := .run } :=
  if_pos ⟨on, stalls, stands, moves⟩

theorem portStallEnd_early
    (h : engineOn s = false ∨ s.ga.chans[g].st ≠ .stall ∨ standsAt s g 1 = false ∨ canMove s g = false) :
    portStallEnd g s = s := by
  refine if_neg fun c => ?_
  obtain ⟨on, stalls, stands, moves⟩ := c
  simp_all

/-- The level of a channel's pace, where it has one, is at its high mark (R213). -/
def PaceFilled (s : State) (g : Channel) : Prop := ∀ l, paceLevel s g = some l → pnat s (chanBase g + 3) ≤ l

theorem paceResume_due (on : engineOn s = true) (paused : s.ga.chans[g].st = .paused) (filled : PaceFilled s g) :
    paceResume g s = s.modChan g fun c => { c with st := .run } := by
  refine if_pos ⟨on, paused, ?_⟩
  split
  next l level => exact decide_eq_true (filled l level)
  next => rfl

theorem paceResume_early
    (h : engineOn s = false ∨ s.ga.chans[g].st ≠ .paused ∨ ∃ l, paceLevel s g = some l ∧ l < pnat s (chanBase g + 3)) :
    paceResume g s = s := by
  refine if_neg fun c => ?_
  obtain ⟨on, paused, ready⟩ := c
  rcases h with h | h | ⟨l, level, low⟩
  · simp [h] at on
  · exact h paused
  · rw [level] at ready
    exact absurd (of_decide_eq_true ready) low.not_ge

end Runs

/-! ## A requested stop -/

/-- A stop that a channel is asked for can take effect: at a descriptor boundary or in a stall, with no record that waits
for a slot (R214). -/
def Chan.canStop (c : Chan) : Prop :=
  c.stopReq = true ∧ c.st ≠ .idle ∧ c.st ≠ .halt ∧ c.ringWait = none ∧ (c.moved = 0 ∨ c.st = .stall)

/-- A channel that has stopped (R214). -/
def Chan.stopped (c : Chan) : Chan :=
  { c with
    st := .idle, stopReq := false, moved := 0, burst := 0, shedMove := false, waitUntil := none
    loops := Vector.replicate 4 none, crc := 0xFFFFFFFF }

/-- What a channel that stops gives up: its record is posted, its reservation abandoned, the port released. -/
def State.letGo (g : Channel) (s : State) : State := releasePort g (abandonMark g (post g 6 0 s.ga.chans[g].moved 0 s))

theorem letGo_gathered (g : Channel) (s : State) : Gathered s (s.letGo g) :=
  ((post_gathered g _ _ _ _ s).trans (abandonMark_gathered g _)).trans (releasePort_queued g _).gathered

theorem letGo_othersStand (g : Channel) (s : State) : OthersStand g s (s.letGo g) :=
  ((post_standsBeside g _ _ _ _ s).trans (abandonMark_standsBeside g _)).others.trans
    (.of_eq (congrArg Gather.chans (releasePort_queued g _).ga))

theorem abandonMark_reserved (g : Channel) (s : State) : (abandonMark g s).ga.chans[g].reserved = false := by
  rw [abandonMark, State.modChan_chan]

theorem letGo_reserved (g : Channel) (s : State) : (s.letGo g).ga.chans[g].reserved = false := by
  rw [State.letGo, (releasePort_queued g _).ga, abandonMark_reserved]

theorem channelStopped_due {g : Channel} {s : State} (h : s.ga.chans[g].canStop) :
    Talked ((s.letGo g).modChan g Chan.stopped) (channelStopped g s) := by
  obtain ⟨asked, busy, runs, room, boundary⟩ := h
  rw [channelStopped, if_pos ⟨asked, busy, runs, by rw [room]; rfl, boundary⟩]
  exact noteAll_talked _ _

theorem channelStopped_early {g : Channel} {s : State} (h : ¬ s.ga.chans[g].canStop) : channelStopped g s = s := by
  refine if_neg fun c => h ?_
  obtain ⟨asked, busy, runs, room, boundary⟩ := c
  exact ⟨asked, busy, runs, Option.isNone_iff_eq_none.mp room, boundary⟩

/-! ## A record without a slot -/

/-- The held record of a channel dropped and counted (R217). -/
def State.recordDropped (s : State) (g : Channel) : State :=
  { s with ga := { (s.modChan g fun c => { c with ringWait := none }).ga with ringLost := s.ga.ringLost + 1 } }

theorem recordDropped_chan (s : State) (g : Channel) :
    (s.recordDropped g).ga.chans[g] = { s.ga.chans[g] with ringWait := none } :=
  State.modChan_chan s g fun c => { c with ringWait := none }

section Record

variable {g : Channel} {s : State} {r : List Word} {t0 : Nat} (h : s.ga.chans[g].ringWait = some (r, t0))

include h

theorem ringPostTimeout_due (due : t0 + 10 ≤ s.ck.mono) : ringPostTimeout g s = s.recordDropped g := by
  simp only [ringPostTimeout, h, due, if_true]
  rfl

theorem ringPostTimeout_early (early : s.ck.mono < t0 + 10) : ringPostTimeout g s = s := by
  simp only [ringPostTimeout, h, Nat.not_le.mpr early, if_false]

end Record

theorem ringPostTimeout_none {g : Channel} {s : State} (h : s.ga.chans[g].ringWait = none) : ringPostTimeout g s = s := by
  rw [ringPostTimeout, h]

/-- Settles O54: each row is due or leaves the state; a stop is what the channel lets go, with its state reset behind it. -/
theorem channelsStallPauseAndStop : Obligations.ChannelsStallPauseAndStop := by
  unfold Obligations.ChannelsStallPauseAndStop
  refine fun g s => ⟨fun on stalls stands moves => congrArg Host.Outcome.next (portStallEnd_due on stalls stands moves),
    fun early => congrArg Host.Outcome.next (portStallEnd_early early),
    fun on paused filled => congrArg Host.Outcome.next (paceResume_due on paused filled),
    fun early => congrArg Host.Outcome.next (paceResume_early early), fun asked busy runs room boundary => ?_,
    fun early => gives_of_done (congrArg done (channelStopped_early fun stops => ?_)),
    fun r t0 waits => ⟨fun due => ?_, fun early => congrArg Host.Outcome.next (ringPostTimeout_early waits early)⟩,
    fun none => congrArg Host.Outcome.next (ringPostTimeout_none none)⟩
  · have talked := (channelStopped_due (g := g) ⟨asked, busy, runs, room, boundary⟩).trans (flushNotes_talked _)
    have chan : (flushNotes (channelStopped g s)).ga.chans[g] = Chan.stopped (s.letGo g).ga.chans[g] := by
      rw [talked.ga, State.modChan_chan]
    have others := (letGo_othersStand g s).trans (modChan_othersStand _ g Chan.stopped)
    have gathered := (letGo_gathered g s).trans (modChan_gathered _ g Chan.stopped)
    refine ⟨_, rfl, ?_, ?_, ?_, ?_, ?_, ?_, others.trans (.of_eq (congrArg Gather.chans talked.ga)),
      gathered.trans talked.gathered⟩
    case refine_6 => rw [chan, Chan.stopped, letGo_reserved]
    all_goals rw [chan, Chan.stopped]
  · obtain ⟨asked, busy, runs, room, boundary⟩ := stops
    simp_all
  · exact ⟨_, congrArg Host.Outcome.next (ringPostTimeout_due waits due), recordDropped_chan s g, rfl,
      modChan_othersStand s g fun c => { c with ringWait := none }, rfl⟩

end Sys2Proof.Machine
end

section
/-! PROOFS. What the instructions of a gather program share (R205, R211, R213): the step to the next word, a pace that
may pause the channel behind it, and the end of a program. -/

namespace Sys2Proof.Machine

/-! ## Changes of one channel -/

theorem modChan_self {s : State} {g : Channel} {f : Chan → Chan} (h : f s.ga.chans[g] = s.ga.chans[g]) :
    s.modChan g f = s := by
  have same : s.ga.chans.set g.val s.ga.chans[g] g.isLt = s.ga.chans := by simp
  rw [State.modChan, h, same]

/-- What the change of a channel leaves in it stands in every channel. -/
theorem modChan_field {α : Type} (p : Chan → α) {s : State} {g : Channel} {f : Chan → Chan}
    (h : p (f s.ga.chans[g]) = p s.ga.chans[g]) (k : Channel) :
    p (s.modChan g f).ga.chans[k] = p s.ga.chans[k] := by
  by_cases e : k = g
  · rw [e, State.modChan_chan, h]
  · rw [State.modChan_other s g k f e]

theorem wordAt_modChan_pc {s : State} {g : Channel} {f : Chan → Chan} (h : (f s.ga.chans[g]).pc = s.ga.chans[g].pc)
    (k : Channel) : wordAt (s.modChan g f) k = wordAt s k := by
  rw [wordAt, modChan_field Chan.pc h]
  rfl

/-- The state of a channel whose pace has been looked at: a running one may pause (R213). -/
def Paced (old new : ChanState) : Prop := new = old ∨ (old = .run ∧ new = .paused)

theorem Paced.of_ne_run {old new : ChanState} (h : Paced old new) (stands : old ≠ .run) : new = old :=
  h.resolve_right fun paused => stands paused.1

theorem Paced.not_wait {new : ChanState} (h : Paced .run new) : new ≠ .wait := by
  obtain h | ⟨-, h⟩ := h
  all_goals
    rw [h]
    decide

theorem settlePace_paced (g : Channel) (s : State) :
    ∃ x, Paced s.ga.chans[g].st x ∧ settlePace g s = s.modChan g fun c => { c with st := x } := by
  unfold settlePace
  split
  case isTrue pause => exact ⟨.paused, .inr ⟨pause.1, rfl⟩, rfl⟩
  case isFalse => exact ⟨_, .inl rfl, (modChan_self (f := fun c => { c with st := s.ga.chans[g].st }) rfl).symm⟩

theorem settlePace_modChan (g : Channel) (f : Chan → Chan) (s : State) :
    ∃ x, Paced (f s.ga.chans[g]).st x ∧ settlePace g (s.modChan g f) = s.modChan g fun c => { f c with st := x } := by
  obtain ⟨x, paced, h⟩ := settlePace_paced g (s.modChan g f)
  rw [State.modChan_chan] at paced
  exact ⟨x, paced, h.trans (modChan_modChan s g f _)⟩

/-- A channel at its next word. -/
def Chan.next (x : ChanState) (c : Chan) : Chan := { c with pc := c.pc + 1, st := x }

theorem nextInstr_modChan (g : Channel) (f : Chan → Chan) (s : State) :
    ∃ x, Paced (f s.ga.chans[g]).st x ∧ nextInstr g (s.modChan g f) = s.modChan g fun c => Chan.next x (f c) := by
  rw [nextInstr, modChan_modChan]
  exact settlePace_modChan g (fun c => { f c with pc := (f c).pc + 1 }) s

theorem nextInstr_paced (g : Channel) (s : State) :
    ∃ x, Paced s.ga.chans[g].st x ∧ nextInstr g s = s.modChan g (Chan.next x) := by
  have h := nextInstr_modChan g id s
  rwa [modChan_self (f := id) rfl] at h

theorem nextInstr_othersStand (g : Channel) (s : State) : OthersStand g s (nextInstr g s) := by
  obtain ⟨x, -, h⟩ := nextInstr_paced g s
  rw [h]
  exact modChan_othersStand s g _

theorem nextInstr_gathered (g : Channel) (s : State) : Gathered s (nextInstr g s) :=
  (modChan_gathered s g _).trans (settlePace_gathered g _)

/-! ## The end of a program -/

/-- The CRC of the program that ends (R211). -/
def finalCrc (s : State) (g : Channel) : Word := s.ga.chans[g].crc ^^^ 0xFFFFFFFF

/-- The reservation given up, the CRC behind the program and its record posted (R205, R211). -/
def State.programReported (g : Channel) (status : Nat) (s : State) : State :=
  post g 3 status 0 (finalCrc s g) (setProg (s.ga.chans[g].pc + 1) (finalCrc s g) (abandonMark g s))

theorem programReported_gathered (g : Channel) (status : Nat) (s : State) : Gathered s (s.programReported g status) :=
  ((abandonMark_gathered g s).trans (setProg_gathered _ _ _)).trans (post_gathered _ _ _ _ _ _)

theorem programReported_othersStand (g : Channel) (status : Nat) (s : State) :
    OthersStand g s (s.programReported g status) :=
  ((abandonMark_standsBeside g s).others.trans (.of_eq (setProg_chans _ _ _))).trans (post_othersStand g _ _ _ _ _)

/-- A channel whose program is over (R211). -/
def Chan.programOver (crc : Word) (c : Chan) : Chan :=
  { c with
    crcOut := some crc, crc := 0xFFFFFFFF, loops := Vector.replicate 4 none, discard := 0, moved := 0, burst := 0
    shedMove := false, st := .idle }

/-- What the end of a program leaves, where it restarts and where it does not. -/
structure ProgramEnded (g : Channel) (restart : Bool) (s t : State) : Prop where
  others : OthersStand g s t
  crcOut : t.ga.chans[g].crcOut = some (finalCrc s g)
  crc : t.ga.chans[g].crc = 0xFFFFFFFF
  loops : t.ga.chans[g].loops = Vector.replicate 4 none
  idle : restart = false → t.ga.chans[g].st = .idle
  entry : restart = true → t.ga.chans[g].pc = pnat s (chanBase g)
  gathered : Gathered s t

theorem Gathered.cm {s t : State} (h : Gathered s t) : t.cm = s.cm := by rw [h.1]

theorem endProgram_ended (g : Channel) (status : Nat) (restart : Bool) (s : State) :
    ProgramEnded g restart s (endProgram g status restart s) := by
  have gathered := (programReported_gathered g status s).trans (modChan_gathered _ g (Chan.programOver (finalCrc s g)))
  have others := (programReported_othersStand g status s).trans
    (modChan_othersStand _ g (Chan.programOver (finalCrc s g)))
  have chan := State.modChan_chan (s.programReported g status) g (Chan.programOver (finalCrc s g))
  have ended : endProgram g status restart s =
      if restart then startChan g ((s.programReported g status).modChan g (Chan.programOver (finalCrc s g)))
      else (s.programReported g status).modChan g (Chan.programOver (finalCrc s g)) := rfl
  rw [ended]
  cases restart with
  | false =>
    rw [if_neg Bool.false_ne_true]
    refine ⟨others, ?_, ?_, ?_, fun _ => ?_, nofun, gathered⟩
    all_goals
      rw [chan]
      rfl
  | true =>
    rw [if_pos rfl, startChan]
    refine ⟨others.trans (modChan_othersStand _ g _), ?_, ?_, ?_, nofun, fun _ => ?_,
      gathered.trans (modChan_gathered _ g _)⟩
    case refine_4 =>
      rw [State.modChan_chan]
      exact congrFun (pnat_congr gathered.cm) _
    case refine_1 =>
      rw [State.modChan_chan, chan]
      rfl
    all_goals rw [State.modChan_chan]

/-- A pace that is looked at behind the end of a program changes none of it: only a running channel pauses. -/
theorem ProgramEnded.settled {g : Channel} {restart : Bool} {s t : State} (h : ProgramEnded g restart s t) :
    ProgramEnded g restart s (settlePace g t) := by
  obtain ⟨x, paced, settled⟩ := settlePace_paced g t
  rw [settled]
  refine ⟨h.others.trans (modChan_othersStand t g _), ?_, ?_, ?_, fun stops => ?_, fun starts => ?_,
    h.gathered.trans (modChan_gathered t g _)⟩
  all_goals rw [State.modChan_chan]
  · exact h.crcOut
  · exact h.crc
  · exact h.loops
  · have idle := h.idle stops
    rw [idle] at paced
    exact paced.of_ne_run (by decide)
  · exact h.entry starts

theorem ProgramEnded.of_talked {g : Channel} {restart : Bool} {s t u : State} (h : ProgramEnded g restart s t)
    (talked : Talked t u) : ProgramEnded g restart s u := by
  refine ⟨h.others.trans (.of_eq (congrArg Gather.chans talked.ga)), ?_, ?_, ?_, fun stops => ?_, fun starts => ?_,
    h.gathered.trans talked.gathered⟩
  all_goals rw [talked.ga]
  · exact h.crcOut
  · exact h.crc
  · exact h.loops
  · exact h.idle stops
  · exact h.entry starts

end Sys2Proof.Machine
end

section
/-! PROOFS. The instructions of a gather program (R207 ... R211, R214): a channel that may not execute, then each
instruction by its cases. -/

namespace Sys2Proof.Machine

variable {g : Channel} {s : State}

/-! ## A channel that may not execute -/

section Still

variable (still : chanReady s g = false)

include still

theorem not_stands (op : Nat) : ¬ (chanReady s g = true ∧ standsAt s g op = true) := fun c => by simp [still] at c

theorem loopStep_still : loopStep g s = s := if_neg (not_stands still 2)
theorem waitStep_still : waitStep g s = s := if_neg (not_stands still 3)
theorem signalStep_still : signalStep g s = s := if_neg (not_stands still 4)
theorem markStep_still : markStep g s = s := if_neg (not_stands still 5)
theorem endStep_still : endStep g s = s := if_neg (not_stands still 6)
theorem opcodeFault_still : opcodeFault g s = s := if_neg fun c => by simp [still] at c

end Still

/-! ## LOOP -/

/-- Repeats that a LOOP has left behind this one (R207). -/
def loopsLeft (c : Chan) (w : Word) (k : Fin 4) : Nat := c.loops[k].getD (max 1 (bits w 16 12)) - 1

/-- A channel behind its LOOP: back at its address, or at the next word with the counter idle (R207). -/
def Chan.looped (w : Word) (k : Fin 4) (x : ChanState) (c : Chan) : Chan :=
  { c with
    st := x, pc := if 0 < loopsLeft c w k then min (bits w 0 12) c.pc else c.pc + 1
    loops := c.loops.set k.val (if 0 < loopsLeft c w k then some (loopsLeft c w k) else none) k.isLt }

theorem loopStep_loops {k : Fin 4} (ready : chanReady s g = true) (stands : standsAt s g 2 = true)
    (counter : bits (wordAt s g) 14 2 = k.val) :
    ∃ x, loopStep g s = s.modChan g (Chan.looped (wordAt s g) k x) := by
  obtain ⟨k, hk⟩ := k
  obtain rfl : bits (wordAt s g) 14 2 = k := counter
  rw [loopStep, if_pos ⟨ready, stands⟩]
  dsimp only
  split
  case isTrue left =>
    obtain ⟨x, -, h⟩ := settlePace_modChan g (fun d => { d with
      loops := d.loops.set (bits (wordAt s g) 14 2) (some (loopsLeft s.ga.chans[g] (wordAt s g) ⟨_, hk⟩)) hk
      pc := min (bits (wordAt s g) 0 12) d.pc }) s
    refine ⟨x, h.trans (modChan_congr ?_)⟩
    rw [Chan.looped, loopsLeft, if_pos left, if_pos left]
  case isFalse last =>
    obtain ⟨x, -, h⟩ := nextInstr_modChan g (fun d => { d with loops := d.loops.set (bits (wordAt s g) 14 2) none hk }) s
    refine ⟨x, h.trans (modChan_congr ?_)⟩
    rw [Chan.looped, loopsLeft, if_neg last, if_neg last]
    rfl

/-! ## WAIT -/

/-- A channel that has begun a WAIT (R208). -/
def Chan.waiting (until_ : Nat) (c : Chan) : Chan := { c with st := .wait, waitUntil := some until_ }

theorem waitsOn_none {h : Channel} (plain : waitCond (wordAt s g) ≠ 1 ∧ waitCond (wordAt s g) ≠ 2) :
    waitsOn s g h = false := by
  simp [waitsOn, plain]

theorem breakRing_none {h : Channel} (plain : waitCond (wordAt s g) ≠ 1 ∧ waitCond (wordAt s g) ≠ 2) :
    breakRing g h s = s := by
  refine if_neg fun c => ?_
  rw [waitsOn_none plain] at c
  exact absurd c.2.1 Bool.false_ne_true

/-- A WAIT on no condition or on a packet only begins: it requests nothing and can close no ring. -/
theorem waitStep_plain (ready : chanReady s g = true) (stands : standsAt s g 3 = true)
    (plain : waitCond (wordAt s g) = 0 ∨ waitCond (wordAt s g) = 3) :
    waitStep g s = s.modChan g (Chan.waiting (1000 * s.ck.mono + waitMicros (wordAt s g))) := by
  have stays : waitCond (wordAt (s.modChan g (Chan.waiting (1000 * s.ck.mono + waitMicros (wordAt s g)))) g) ≠ 1
      ∧ waitCond (wordAt (s.modChan g (Chan.waiting (1000 * s.ck.mono + waitMicros (wordAt s g)))) g) ≠ 2 := by
    rw [wordAt_modChan_pc rfl]
    omega
  have requests : ¬ (waitCond (wordAt s g) = 4 ∧ bits (progWord s (s.ga.chans[g].pc + 1)) 28 4 = 5) := by omega
  rw [waitStep, if_pos ⟨ready, stands⟩]
  dsimp only
  rw [if_neg requests]
  exact List.foldl_fixed' (fun h => breakRing_none stays) _

/-- A channel whose request for a region has been made. -/
def Chan.asked (reserved : Bool) (c : Chan) : Chan := { c with reserved := reserved, discard := 0 }

/-- A MARK asks for a region of its length, and is granted where no request of the channel is left (R194, R210). -/
theorem requestMark_asks (g : Channel) (pc : Nat) (s : State) : ∃ (w : Waiter) (b : Bool),
    w.origin = chanOrigin g ∧ w.len = bits (progWord s pc) 10 8 + 1
    ∧ (requestMark g pc s).1 = (ask s w).modChan g (Chan.asked b)
    ∧ (requestMark g pc s).2 = !((ask s w).qu.waiters.any fun v => v.origin = chanOrigin g) :=
  ⟨_, _, rfl, rfl, rfl, rfl⟩

theorem requestMark_gathered (g : Channel) (pc : Nat) (s : State) : Gathered s (requestMark g pc s).1 := by
  obtain ⟨w, b, -, -, h, -⟩ := requestMark_asks g pc s
  rw [h]
  exact (ask_queued s w).gathered.trans (modChan_gathered _ g _)

/-- What a WAIT that times out leaves (R208). -/
structure WaitExpired (g : Channel) (s t : State) : Prop where
  others : OthersStand g s t
  ended : t.ga.chans[g].waitUntil = none
  goes : t.ga.chans[g].st ≠ .wait
  pc : bits (wordAt s g) 27 1 = 0 → t.ga.chans[g].pc = s.ga.chans[g].pc + 1
  gathered : Gathered s t

theorem expireWait_expired (g : Channel) (status : Nat) (s : State) : WaitExpired g s (expireWait g status s) := by
  have posted := post_gathered g 4 status 0 0 s
  have others := post_othersStand g 4 status 0 0 s
  have pc := post_pc g 4 status 0 0 s
  unfold expireWait
  dsimp only
  generalize post g 4 status 0 0 s = u at posted others pc
  split
  case isTrue jumps =>
    have left : Gathered s (if waitCond (wordAt s g) = 4 then abandonMark g u else u) :=
      .ite (posted.trans (abandonMark_gathered g u)) posted
    have beside : OthersStand g s (if waitCond (wordAt s g) = 4 then abandonMark g u else u) := by
      split
      · exact others.trans (abandonMark_standsBeside g u).others
      · exact others
    generalize (if waitCond (wordAt s g) = 4 then abandonMark g u else u) = v at left beside
    obtain ⟨x, paced, h⟩ := settlePace_modChan g (fun c => { c with
      st := .run, waitUntil := none, pc := nextEnd s 4096 (s.ga.chans[g].pc + 1) }) v
    rw [h]
    refine ⟨beside.trans (modChan_othersStand v g _), ?_, ?_, fun stays => ?_, left.trans (modChan_gathered v g _)⟩
    · rw [State.modChan_chan]
    · rw [State.modChan_chan]
      exact paced.not_wait
    · omega
  case isFalse =>
    obtain ⟨x, paced, h⟩ := nextInstr_modChan g (fun c => { c with st := .run, waitUntil := none }) u
    rw [h]
    refine ⟨others.trans (modChan_othersStand u g _), ?_, ?_, fun _ => ?_, posted.trans (modChan_gathered u g _)⟩
    all_goals rw [State.modChan_chan, Chan.next]
    · exact paced.not_wait
    · exact congrArg (· + 1) pc

theorem breakRing_gathered (h : Channel) : Gathered s (breakRing g h s) := by
  refine .ite (.ite (.refl s) ?_) (.refl s)
  have counted : Gathered s { s with ga := { s.ga with ringBreaks := s.ga.ringBreaks + 1 } } := ⟨rfl, rfl, rfl, rfl⟩
  exact counted.trans (expireWait_expired _ 5 _).gathered

theorem Gathered.foldl {α : Type} (f : State → α → State) (hf : ∀ s a, Gathered s (f s a)) :
    ∀ (xs : List α) (s : State), Gathered s (xs.foldl f s)
  | [], s => .refl s
  | x :: xs, s => (hf s x).trans (Gathered.foldl f hf xs (f s x))

theorem waitStep_gathered : Gathered s (waitStep g s) := by
  refine .ite (Gathered.trans (.ite ?_ (modChan_gathered s g _)) (Gathered.foldl _ (fun _ h => breakRing_gathered h) _ _))
    (.refl s)
  exact (((modChan_gathered s g _).trans (abandonMark_gathered g _)).trans (requestMark_gathered g _ _)).trans
    (modChan_gathered _ g _)

/-! ## WAIT_SATISFIED and WAIT_TIMEOUT -/

/-- The flags that a satisfied WAIT consumes are gone (Table 10.2). -/
def State.flagsTaken (s : State) (w : Word) : State :=
  if waitCond w = 1 ∨ waitCond w = 2 then
    s.modChan (waitBank w) fun c => { c with flags := c.flags &&& ~~~ waitMask w }
  else s

theorem flagsTaken_pc (w : Word) (k : Channel) : (s.flagsTaken w).ga.chans[k].pc = s.ga.chans[k].pc := by
  unfold State.flagsTaken
  split
  · exact modChan_field Chan.pc rfl k
  · rfl

theorem flagsTaken_flags {w : Word} (takes : waitCond w = 1 ∨ waitCond w = 2) :
    (s.flagsTaken w).ga.chans[waitBank w].flags = s.ga.chans[waitBank w].flags &&& ~~~ waitMask w := by
  rw [State.flagsTaken, if_pos takes, State.modChan_chan]

theorem flagsTaken_others (w : Word) : OthersStand (waitBank w) s (s.flagsTaken w) := by
  unfold State.flagsTaken
  split
  · exact modChan_othersStand s _ _
  · exact .of_eq rfl

theorem flagsTaken_chans (w : Word) :
    s.flagsTaken w = { s with ga := { s.ga with chans := (s.flagsTaken w).ga.chans } } := by
  unfold State.flagsTaken
  split
  all_goals rfl

theorem passWait_eq (g : Channel) (s : State) : ∃ x, passWait g s =
    (s.flagsTaken (wordAt s g)).modChan g fun c => Chan.next x { c with st := .run, waitUntil := none } := by
  obtain ⟨x, -, h⟩ := nextInstr_modChan g (fun c => { c with st := .run, waitUntil := none }) (s.flagsTaken (wordAt s g))
  exact ⟨x, h⟩

theorem waitSatisfied_holds (on : engineOn s = true) (waits : s.ga.chans[g].st = .wait)
    (goes : s.ga.chans[g].stopReq = false) (holds : waitHolds s g = true) : waitSatisfied g s = passWait g s :=
  if_pos ⟨on, by rw [atWait, waits, goes]; rfl, holds⟩

theorem waitSatisfied_still
    (h : engineOn s = false ∨ s.ga.chans[g].st ≠ .wait ∨ s.ga.chans[g].stopReq = true ∨ waitHolds s g = false) :
    waitSatisfied g s = s := by
  refine if_neg fun c => ?_
  obtain ⟨on, waits, holds⟩ := c
  simp only [atWait, Bool.and_eq_true, decide_eq_true_eq, Bool.not_eq_true'] at waits
  simp_all

theorem waitTimeout_due {e : Nat} (ends : s.ga.chans[g].waitUntil = some e) (waits : s.ga.chans[g].st = .wait)
    (goes : s.ga.chans[g].stopReq = false) (due : e ≤ 1000 * s.ck.mono)
    (unmet : engineOn s = false ∨ waitHolds s g = false) : waitTimeout g s = expireWait g 0 s := by
  have expires : ¬ (engineOn s = true ∧ waitHolds s g = true) := by
    rintro ⟨on, holds⟩
    simp_all
  simp only [waitTimeout, ends]
  rw [if_pos ⟨by rw [atWait, waits, goes]; rfl, due⟩, if_neg expires]

theorem waitTimeout_still (h : s.ga.chans[g].st ≠ .wait ∨ s.ga.chans[g].stopReq = true
    ∨ ∀ e, s.ga.chans[g].waitUntil = some e → 1000 * s.ck.mono < e) : waitTimeout g s = s := by
  unfold waitTimeout
  split
  case h_1 e ends =>
    refine if_neg fun c => ?_
    obtain ⟨waits, due⟩ := c
    simp only [atWait, Bool.and_eq_true, decide_eq_true_eq, Bool.not_eq_true'] at waits
    obtain ⟨waits, goes⟩ := waits
    rcases h with h | h | h
    · exact h waits
    · rw [goes] at h
      exact Bool.false_ne_true h
    · exact (h e ends).not_ge due
  case h_2 => rfl

/-! ## SIGNAL -/

theorem signalStep_flag {h : Channel} (ready : chanReady s g = true) (stands : standsAt s g 4 = true)
    (flag : bits (wordAt s g) 27 1 = 0) (bank : bits (wordAt s g) 24 3 = h.val) :
    signalStep g s = nextInstr g (setFlag h (bits (wordAt s g) 16 5) s) := by
  rw [signalStep, if_pos ⟨ready, stands⟩]
  dsimp only
  rw [if_pos flag]
  exact congrArg (fun k => nextInstr g (setFlag k _ s)) (Fin.ext bank)

theorem signalStep_record (ready : chanReady s g = true) (stands : standsAt s g 4 = true)
    (record : bits (wordAt s g) 27 1 = 1) :
    signalStep g s = nextInstr g (post g 2 0 (bits (wordAt s g) 0 16) 0 s) := by
  rw [signalStep, if_pos ⟨ready, stands⟩]
  dsimp only
  rw [if_neg (by omega)]

/-! ## MARK -/

/-- A request for a region that is longer than the longest packet is not granted (R193, log 98). -/
theorem requestMark_refused {pc : Nat} (long : longest s (chanOrigin g) < bits (progWord s pc) 10 8 + 1) :
    (requestMark g pc s).2 = false := by
  obtain ⟨w, b, origin, len, -, h⟩ := requestMark_asks g pc s
  have refused : canGrant s w = false := by
    rw [canGrant, origin, len, decide_eq_false long.not_ge, Bool.and_false]
  rw [h, ask, refused]
  simp [origin]

theorem requestMark_standsBeside (g : Channel) (pc : Nat) (s : State) : StandsBeside g s (requestMark g pc s).1 := by
  obtain ⟨w, b, -, -, h, -⟩ := requestMark_asks g pc s
  rw [h]
  exact ((ask_queued s w).standsBeside g).trans (modChan_standsBeside _ g rfl)

theorem requestMark_mem (g : Channel) (pc : Nat) (s : State) : (requestMark g pc s).1.mem = s.mem := by
  obtain ⟨w, b, -, -, h, -⟩ := requestMark_asks g pc s
  rw [h]
  exact (ask_queued s w).mem

theorem abandonMark_mem (g : Channel) (s : State) : (abandonMark g s).mem = s.mem :=
  (spoil_queued (openRegion (chanOrigin g)) s).mem

theorem spoil_chuteSelftest (bad : Region → Bool) : (spoil bad s).qu.chuteSelftest = s.qu.chuteSelftest := by
  unfold spoil
  dsimp only
  split
  all_goals rfl

theorem abandonMark_longest (origin : Nat) : longest (abandonMark g s) origin = longest s origin := by
  have chute : chute (abandonMark g s) = chute s := by
    have ident : (abandonMark g s).ident = s.ident := by rw [(abandonMark_gathered g s).1]
    rw [Machine.chute, Machine.chute, ident]
    exact congrArg (_ || ·) (spoil_chuteSelftest _)
  rw [longest, chute, longest]

theorem abandonMark_progWord (a : Nat) : progWord (abandonMark g s) a = progWord s a := by
  obtain ⟨-, copy, -⟩ := abandonMark_gathered g s
  have ident : (abandonMark g s).ident = s.ident := by rw [(abandonMark_gathered g s).1]
  have spoilt := congrArg Gather.prog (spoil_queued (openRegion (chanOrigin g)) s).ga
  have prog : (abandonMark g s).ga.prog = s.ga.prog := spoilt
  rw [progWord, prog, progWord, loadedWord, copy, ident, loadedWord]

theorem markStep_granted (ready : chanReady s g = true) (stands : standsAt s g 5 = true)
    (granted : s.ga.chans[g].markReady = true) :
    markStep g s = nextInstr g (s.modChan g fun c => { c with markReady := false }) := by
  rw [markStep, if_pos ⟨ready, stands⟩, if_pos granted]

/-- A channel that stalls for its reservation. -/
def Chan.stalled (c : Chan) : Chan := { c with st := .stall }

/-- A MARK without a grant waits for its request, or makes it. -/
theorem markStep_asks (ready : chanReady s g = true) (stands : standsAt s g 5 = true)
    (open_ : s.ga.chans[g].markReady = false) : markStep g s = s.modChan g Chan.stalled
    ∨ markStep g s = if (requestMark g s.ga.chans[g].pc (abandonMark g s)).2 then
        nextInstr g (requestMark g s.ga.chans[g].pc (abandonMark g s)).1
      else (requestMark g s.ga.chans[g].pc (abandonMark g s)).1.modChan g Chan.stalled := by
  rw [markStep, if_pos ⟨ready, stands⟩, if_neg (by rw [open_]; decide)]
  split
  · exact .inl rfl
  · exact .inr rfl

/-- The request of a MARK that gives up what the channel had asked for. -/
theorem remark_standsBeside (pc : Nat) : StandsBeside g s (requestMark g pc (abandonMark g s)).1 :=
  (abandonMark_standsBeside g s).trans (requestMark_standsBeside g pc _)

theorem remark_gathered (pc : Nat) : Gathered s (requestMark g pc (abandonMark g s)).1 :=
  (abandonMark_gathered g s).trans (requestMark_gathered g pc _)

theorem markStep_stands (ready : chanReady s g = true) (stands : standsAt s g 5 = true) :
    OthersStand g s (markStep g s) ∧ Gathered s (markStep g s) := by
  cases granted : s.ga.chans[g].markReady with
  | true =>
    rw [markStep_granted ready stands granted]
    exact ⟨(modChan_othersStand s g _).trans (nextInstr_othersStand g _), (modChan_gathered s g _).trans
      (nextInstr_gathered g _)⟩
  | false =>
    have beside := (remark_standsBeside (g := g) (s := s) s.ga.chans[g].pc).others
    have gathered := remark_gathered (g := g) (s := s) s.ga.chans[g].pc
    obtain h | h := markStep_asks ready stands granted
    · rw [h]
      exact ⟨modChan_othersStand s g _, modChan_gathered s g _⟩
    · rw [h]
      split
      · exact ⟨beside.trans (nextInstr_othersStand g _), gathered.trans (nextInstr_gathered g _)⟩
      · exact ⟨beside.trans (modChan_othersStand _ g _), gathered.trans (modChan_gathered _ g _)⟩

/-- A MARK of a packet longer than the longest stalls where it stands (R210, log 98). -/
theorem markStep_stalls (ready : chanReady s g = true) (stands : standsAt s g 5 = true)
    (open_ : s.ga.chans[g].markReady = false) (long : longest s (chanOrigin g) < bits (wordAt s g) 10 8 + 1) :
    (markStep g s).ga.chans[g].st = .stall ∧ (markStep g s).ga.chans[g].pc = s.ga.chans[g].pc
    ∧ (markStep g s).mem = s.mem := by
  obtain h | h := markStep_asks ready stands open_
  · rw [h, State.modChan_chan]
    exact ⟨rfl, rfl, rfl⟩
  · have refused : (requestMark g s.ga.chans[g].pc (abandonMark g s)).2 = false := by
      refine requestMark_refused ?_
      rw [abandonMark_longest, abandonMark_progWord]
      exact long
    rw [h, refused, if_neg Bool.false_ne_true, State.modChan_chan]
    exact ⟨rfl, (remark_standsBeside _).pc, (requestMark_mem g _ _).trans (abandonMark_mem g s)⟩

/-! ## Ends -/

theorem endStep_ended (ready : chanReady s g = true) (stands : standsAt s g 6 = true) :
    ProgramEnded g (bits (wordAt s g) 27 1 = 1) s (endStep g s) := by
  rw [endStep, if_pos ⟨ready, stands⟩]
  exact (endProgram_ended g 0 _ s).settled

theorem opcodeFault_ended (ready : chanReady s g = true)
    (undefined : 4096 ≤ s.ga.chans[g].pc ∨ bits (wordAt s g) 28 4 = 0 ∨ 7 ≤ bits (wordAt s g) 28 4) :
    ProgramEnded g false s (opcodeFault g s) := by
  rw [opcodeFault, if_pos ⟨ready, undefined⟩]
  exact endProgram_ended g 4 false s

theorem moveStep_free (ready : chanReady s g = true) (stands : standsAt s g 1 = true)
    (free : bits (wordAt s g) 27 1 = 0) (start : s.ga.chans[g].moved = 0) : ProgramEnded g false s (moveStep g none s) := by
  rw [moveStep, if_pos ⟨ready, stands⟩]
  dsimp only
  rw [if_pos ⟨free, start⟩]
  exact endProgram_ended g 3 false s

/-! ## The obligation -/

/-- Settles O53: each instruction is its equation on the channel that stands at it, or its part of the engine's business. -/
theorem programsStepThroughTheirWords : Obligations.ProgramsStepThroughTheirWords := by
  unfold Obligations.ProgramsStepThroughTheirWords
  refine fun g s => ⟨fun still => ?still, fun ready => ⟨fun k stands counter => ?loop,
      fun stands plain => congrArg Host.Outcome.next (waitStep_plain ready stands plain),
      fun _ => ⟨_, rfl, waitStep_gathered⟩, fun h stands flag bank => ?flag, fun stands record => ?record,
      fun stands granted => ?granted, fun stands open_ long => ?long,
      fun stands => ⟨_, rfl, markStep_stands ready stands⟩, fun stands => ?ends, fun undefined => ?undefined,
      fun stands free start => ?free⟩,
    fun on waits goes holds => ?holds, fun still => congrArg Host.Outcome.next (waitSatisfied_still still),
    fun e ends waits goes due unmet => ?expires, fun still => congrArg Host.Outcome.next (waitTimeout_still still)⟩
  case still =>
    exact ⟨congrArg Host.Outcome.next (loopStep_still still), congrArg Host.Outcome.next (waitStep_still still),
      congrArg Host.Outcome.next (signalStep_still still), congrArg Host.Outcome.next (markStep_still still),
      congrArg Host.Outcome.next (endStep_still still), congrArg Host.Outcome.next (opcodeFault_still still)⟩
  case loop =>
    obtain ⟨x, h⟩ := loopStep_loops ready stands counter
    refine ⟨_, congrArg Host.Outcome.next h, modChan_othersStand s g _, ?_, ?_, rfl⟩
    all_goals
      rw [State.modChan_chan]
      rfl
  case flag =>
    obtain ⟨x, -, next⟩ := nextInstr_paced g (setFlag h (bits (wordAt s g) 16 5) s)
    have step := (signalStep_flag ready stands flag bank).trans next
    refine ⟨_, congrArg Host.Outcome.next step, ?_, ?_, fun k own other => ?_, rfl⟩
    · rw [State.modChan_chan]
      exact congrArg (· + 1) (modChan_field Chan.pc rfl g)
    · rw [modChan_field Chan.flags rfl, setFlag, State.modChan_chan]
    · rw [State.modChan_other _ _ _ _ own]
      exact State.modChan_other s h k _ other
  case record =>
    obtain ⟨x, -, next⟩ := nextInstr_paced g (post g 2 0 (bits (wordAt s g) 0 16) 0 s)
    have step := (signalStep_record ready stands record).trans next
    refine ⟨_, congrArg Host.Outcome.next step, ?_, (post_othersStand g _ _ _ _ s).trans (modChan_othersStand _ g _),
      post_qu g _ _ _ _ s, (post_gathered g _ _ _ _ s).trans (modChan_gathered _ g _)⟩
    rw [State.modChan_chan]
    exact congrArg (· + 1) (post_pc g _ _ _ _ s)
  case granted =>
    obtain ⟨x, -, next⟩ := nextInstr_modChan g (fun c => { c with markReady := false }) s
    refine ⟨_, congrArg Host.Outcome.next ((markStep_granted ready stands granted).trans next), ?_, ?_,
      modChan_othersStand s g _, rfl⟩
    all_goals
      rw [State.modChan_chan]
      rfl
  case long =>
    obtain ⟨stalls, pc, mem⟩ := markStep_stalls ready stands open_ long
    obtain ⟨others, gathered⟩ := markStep_stands ready stands
    exact ⟨_, rfl, stalls, pc, others, mem, gathered⟩
  case ends =>
    have ended := endStep_ended ready stands
    exact ⟨_, rfl, ended.others, ended.crcOut, ended.crc, ended.loops, fun stops => ended.idle (by simp [stops]),
      fun starts => ended.entry (by simp [starts]), ended.gathered⟩
  case undefined =>
    have ended := opcodeFault_ended ready undefined
    exact ⟨_, rfl, ended.others, ended.crcOut, ended.idle rfl, ended.gathered⟩
  case free =>
    have ended := (moveStep_free ready stands free start).of_talked (flushNotes_talked _)
    exact ⟨_, rfl, ended.others, ended.crcOut, ended.idle rfl, ended.gathered⟩
  case holds =>
    obtain ⟨x, h⟩ := passWait_eq g s
    refine ⟨_, congrArg Host.Outcome.next ((waitSatisfied_holds on waits goes holds).trans h), ?_, ?_, fun takes => ?_,
      fun k own bank => ?_, ?_⟩
    · rw [State.modChan_chan]
      exact congrArg (· + 1) (flagsTaken_pc _ g)
    · rw [State.modChan_chan]
      rfl
    · rw [modChan_field Chan.flags rfl, flagsTaken_flags takes]
    · rw [State.modChan_other _ _ _ _ own, flagsTaken_others _ k bank]
    · rw [flagsTaken_chans]
      rfl
  case expires =>
    have expired := expireWait_expired g 0 s
    exact ⟨_, congrArg Host.Outcome.next (waitTimeout_due ends waits goes due unmet), expired.ended, expired.goes,
      expired.pc, expired.others, expired.gathered⟩

end Sys2Proof.Machine
end

section
/-! PROOFS. The GATHER requests (R214, R217, R218, R220, R222): the body of each where it answers and where it refuses, and
what a start, a skip and a reset leave of the channel. -/

namespace Sys2Proof.Machine

/-! ## What the requests do to their channel -/

/-- What a request that starts or ends a program leaves: the channel's new state, and the rest as it was. -/
structure ChanRestarted (g : Channel) (st : ChanState) (s t : State) : Prop where
  st : t.ga.chans[g].st = st
  moved : t.ga.chans[g].moved = 0
  others : OthersStand g s t
  body : t = { s with ga := { s.ga with chans := t.ga.chans } }

theorem ChanRestarted.line {g : Channel} {st : ChanState} {s t : State} (h : ChanRestarted g st s t) (l : Line) :
    t.line l = s.line l := by
  rw [h.body]
  cases l
  all_goals rfl

theorem startChan_restarted (g : Channel) (s : State) : ChanRestarted g .run s (startChan g s) where
  st := by rw [startChan, State.modChan_chan]
  moved := by rw [startChan, State.modChan_chan]
  others := modChan_othersStand s g _
  body := rfl

/-- A channel whose program was reset (R218). -/
def Chan.programReset (c : Chan) : Chan :=
  { c with
    st := .idle, fault := none, moved := 0, burst := 0, shedMove := false, crc := 0xFFFFFFFF
    loops := Vector.replicate 4 none }

theorem resetChan_eq (g : Channel) (s : State) :
    resetChan g s = if g.val < 5 then startChan g (s.modChan g Chan.programReset) else s.modChan g Chan.programReset := rfl

theorem resetChan_restarted (g : Channel) (s : State) :
    ChanRestarted g (if g.val < 5 then .run else .idle) s (resetChan g s) := by
  rw [resetChan_eq]
  split
  · have started := startChan_restarted g (s.modChan g Chan.programReset)
    exact ⟨started.st, started.moved, (modChan_othersStand s g _).trans started.others, rfl⟩
  · refine ⟨?_, ?_, modChan_othersStand s g _, rfl⟩
    all_goals
      rw [State.modChan_chan]
      rfl

theorem resetChan_fault (g : Channel) (s : State) : (resetChan g s).ga.chans[g].fault = none := by
  rw [resetChan_eq]
  split
  · rw [startChan, State.modChan_chan, State.modChan_chan, Chan.programReset]
  · rw [State.modChan_chan, Chan.programReset]

theorem finishMove_st (g : Channel) (status : Nat) (bad : Bool) (s : State) :
    (finishMove g status bad s).ga.chans[g].st = .run := by
  rw [finishMove_eq, State.modChan_chan]
  rfl

theorem setProg_fault (a : Nat) (w : Word) (s : State) (k : Channel) :
    (setProg a w s).ga.chans[k].fault = s.ga.chans[k].fault := by rw [setProg_chans]

theorem post_fault (g : Channel) (kind status low : Nat) (w3 : Word) (s : State) :
    (post g kind status low w3 s).ga.chans[g].fault = s.ga.chans[g].fault := by
  obtain ⟨ws, h⟩ | ⟨q, h⟩ := post_cases g kind status low w3 s
  · rw [h, pushRing_chans]
  · rw [h, State.modChan_chan]

theorem finishMove_fault (g : Channel) (status : Nat) (bad : Bool) (s : State) :
    (finishMove g status bad s).ga.chans[g].fault = s.ga.chans[g].fault := by
  rw [finishMove_eq, State.modChan_chan]
  change (s.moveReported g status bad).ga.chans[g].fault = _
  obtain ⟨a, b, v, w, h⟩ | ⟨st, h⟩ | h := moveReported_cases g status bad s
  · rw [h, setProg_fault, setProg_fault]
  · rw [h, post_fault]
  · rw [h]

/-- A channel that was halted and skips its descriptor (R218). -/
structure Skipped (g : Channel) (s t : State) : Prop where
  st : t.ga.chans[g].st = .run
  fault : s.ga.chans[g].fault.isSome = true →
    t.ga.chans[g].pc = s.ga.chans[g].pc + 4 ∧ t.ga.chans[g].fault = none ∧ t.ga.chans[g].moved = 0
  others : OthersStand g s t
  gathered : Gathered s t
  line : ∀ l, t.line l = s.line l

theorem skipChan_skipped (g : Channel) (s : State) : Skipped g s (skipChan g s) := by
  unfold skipChan
  split
  case h_1 f _ =>
    have others := modChan_othersStand s g fun c => { c with fault := none }
    have gathered := modChan_gathered s g fun c => { c with fault := none }
    refine ⟨finishMove_st g _ _ _, fun _ => ⟨?_, ?_, finishMove_moved g _ _ _⟩, others.trans (finishMove_othersStand g _ _ _),
      gathered.trans (finishMove_gathered g _ _ _), fun l => ?_⟩
    · rw [finishMove_pc, State.modChan_chan]
    · rw [finishMove_fault, State.modChan_chan]
    · rw [finishMove_line, modChan_line]
  case h_2 clear =>
    refine ⟨?_, fun latched => ?_, modChan_othersStand s g _, modChan_gathered s g _, modChan_line s g _⟩
    · rw [State.modChan_chan]
    · rw [clear] at latched
      exact absurd latched (by decide)

/-! ## The words that a write stores -/

/-- One word is stored at its address, in the form that its place gives it (R203, log 26). -/
theorem storedWords_one {s : State} {a : Nat} (inside : a < 4096) (x : Word) : ∃ w, storedWords s a [x] = [(a, w)] := by
  have written : ([x].zipIdx.filterMap fun q => if a + q.2 < 4096 then some (a + q.2, q.1) else none) = [(a, x)] := by
    simp [inside]
  unfold storedWords
  dsimp only
  rw [written, List.map_singleton]
  split
  · exact ⟨_, rfl⟩
  · split
    all_goals exact ⟨_, rfl⟩

theorem setProg_inside {a : Nat} (inside : a < 4096) (w : Word) (s : State) :
    setProg a w s = { s with ga := { s.ga with prog := (a, w) :: s.ga.prog.filter fun q => q.1 ≠ a } } := if_pos inside

theorem clampInt_inside {lo hi : Int} {a : Nat} (low : lo ≤ a) (high : (a : Int) ≤ hi) : (clampInt lo hi a).toNat = a := by
  rw [clampInt, if_neg (by omega), if_neg (by omega)]
  exact Int.toNat_natCast a

/-! ## The bodies -/

/-- A refused request is answered with its reason alone. -/
theorem answers_of_refusal {rq : Req} {i : Instr} {verb text : String} {body : Body} {s : State} {r : Reason}
    (hi : exec i s = done (runLine rq verb body s)) (hs : linesUp s = true) (hb : body s = .error r)
    (ht : refusal verb s r = text) : Answers rq i s [text] s := by
  obtain ⟨t, ran, replied, talked⟩ := runLine_error (rq := rq) (verb := verb) hs hb
  rw [ht] at replied
  exact ⟨t, hi.trans ran, replied, talked⟩

section Bodies

variable {rq : Req} {s : State} (role : 1 ≤ roleCode (s.line rq.line).role)

include role

section Serving

variable (hv : s.serving = true)

include hv

theorem bodyGatherShow_all : bodyGatherShow rq [] s
    = .ok (s, (List.finRange 8).map (fun g => "part " ++ chanLine s g) ++ ["ok gather show"]) := by
  simp [bodyGatherShow, served_serving hv, needRole_operate role]

theorem bodyGatherShow_one {ct : String} {g : Channel} (hc : chanField ct = .ok g) :
    bodyGatherShow rq [ct] s = .ok (s, ["part " ++ chanLine s g, "ok gather show"]) := by
  simp [bodyGatherShow, hc, served_serving hv, needRole_operate role]

theorem bodyGatherRing_ok {nt : String} {n : Nat} (hn : countField 1 256 nt = .ok n) :
    bodyGatherRing rq [nt] s = .ok (s, (s.ga.ring.drop (s.ga.ring.length - n)).map
        (fun r => "part " ++ spaced (r.map fun w => hexText 8 w.toNat))
      ++ ["ok gather ring " ++ natText (s.ga.ring.drop (s.ga.ring.length - n)).length]) := by
  simp only [bodyGatherRing, List.length_singleton, le_refl, decide_true, need_true, ok_bind, hn, served_serving hv,
    needRole_operate role]

theorem bodyGatherRead_ok {at_ ct : String} {a n : Nat} (ha : hexField at_ = .ok a) (hn : countField 1 64 ct = .ok n) :
    bodyGatherRead rq [at_, ct] s = .ok (s, ((List.range n).map fun i => "part " ++ spaced [hexText 8 (a / 4 * 4 + 4 * i),
        match memWord s (a / 4 * 4 + 4 * i) with | some w => hexText 8 w.toNat | none => "-"]) ++ ["ok gather read"]) := by
  simp only [bodyGatherRead, ok_bind, ha, hn, served_serving hv, needRole_operate role] <;> rfl

end Serving

section Measuring

variable (runs : measuring s = true)

include runs

omit role in
theorem gatherState_ok : gatherState s = .ok () := by
  rw [gatherState, show (decide (s.pw.ms = .run) || decide (s.pw.ms = .safe)) = true from runs, need_true]

/-- A word and its ferroelectric copy (R220). -/
def State.wordKept (s : State) (a : Nat) (w : Word) : State :=
  { s with ga := { s.ga with prog := (a, w) :: s.ga.prog.filter fun q => q.1 ≠ a
                             hostCopy := store 0 s.ga.hostCopy a w } }

theorem bodyGatherWord_one {at_ wt : String} {a v : Nat} {w : Word} (ha : hexField at_ = .ok a) (hw : hexField wt = .ok v)
    (fits : v < 2 ^ 32) (low : 0xC00 ≤ a) (high : a ≤ 0xFFF)
    (free : ([5, 6, 7].all fun (k : Channel) => s.ga.chans[k].st = .idle || s.ga.chans[k].st = .halt) = true)
    (stored : storedWords s a [BitVec.ofNat 32 v] = [(a, w)]) :
    bodyGatherWord rq [at_, wt] s = .ok (auditLine rq.line 0x0D 0 a 0 1 (s.wordKept a w),
      [spaced ["ok gather word", hexText 4 a, hexText 8 w.toNat]]) := by
  have at_a : (clampInt 0xC00 0xFFF (a : Int)).toNat = a := clampInt_inside (by omega) (by omega)
  have values : [wt].mapM hexField = .ok [v] := by
    rw [List.mapM_cons, hw, List.mapM_nil]
    rfl
  have small : ([v].all fun v => decide (v < 2 ^ 32)) = true := by
    rw [List.all_cons, decide_eq_true fits]
    rfl
  simp only [bodyGatherWord, List.length_singleton, Nat.one_le_ofNat, le_refl, decide_true, Bool.and_true, need_true,
    ok_bind, ha, values, small, gatherState_ok runs, free, needRole_operate role, at_a, List.map_singleton, stored,
    List.foldl_cons, List.foldl_nil, setProg_inside (show a < 4096 by omega)]
  rfl

theorem bodyGatherStart_ok {ct : String} {g : Channel} (hc : chanField ct = .ok g) (host : 5 ≤ g.val)
    (idle : s.ga.chans[g].st = .idle) :
    bodyGatherStart rq [ct] s = .ok (startChan g s, ["ok gather start " ++ chanText g]) := by
  simp only [bodyGatherStart, oneChannel, hc, ok_bind, gatherState_ok runs, idle, host, decide_true, Bool.or_true,
    need_true, needRole_operate role]

theorem bodyGatherStop_ok {ct : String} {g : Channel} (hc : chanField ct = .ok g) (host : 5 ≤ g.val) :
    bodyGatherStop rq [ct] s = .ok (s.modChan g fun c => { c with stopReq := decide (c.st ≠ .idle) },
      ["ok gather stop " ++ chanText g]) := by
  simp only [bodyGatherStop, oneChannel, hc, ok_bind, gatherState_ok runs, host, decide_true, need_true,
    needRole_operate role]

theorem haltedRequest_ok {ct word : String} {act : Channel → State → State} {g : Channel} (hc : chanField ct = .ok g)
    (halted : s.ga.chans[g].st = .halt) :
    haltedRequest rq [ct] word act s = .ok (act g s, [spaced ["ok gather", word, chanText g]]) := by
  simp only [haltedRequest, oneChannel, hc, ok_bind, gatherState_ok runs, halted, decide_true, need_true,
    needRole_operate role]

omit role

theorem bodyGatherStart_own {ct : String} {g : Channel} (hc : chanField ct = .ok g) (own : g.val < 5) :
    bodyGatherStart rq [ct] s = .error .noRole := by
  simp only [bodyGatherStart, oneChannel, hc, ok_bind, gatherState_ok runs, own, own.not_ge, decide_true, decide_false,
    Bool.true_or, need_true, need_false, error_bind]

theorem bodyGatherStop_own {ct : String} {g : Channel} (hc : chanField ct = .ok g) (own : g.val < 5) :
    bodyGatherStop rq [ct] s = .error .noRole := by
  simp only [bodyGatherStop, oneChannel, hc, ok_bind, gatherState_ok runs, own.not_ge, decide_false, need_false, error_bind]

theorem haltedRequest_goes {ct word : String} {act : Channel → State → State} {g : Channel} (hc : chanField ct = .ok g)
    (goes : s.ga.chans[g].st ≠ .halt) : haltedRequest rq [ct] word act s = .error .badState := by
  simp only [haltedRequest, oneChannel, hc, ok_bind, gatherState_ok runs, decide_eq_false goes, need_false, error_bind]

end Measuring

end Bodies

/-- Settles O51: each request is its body, and a start, a skip and a reset what they leave of their channel. -/
theorem gatherRequestsAreAnswered : Obligations.GatherRequestsAreAnswered := by
  unfold Obligations.GatherRequestsAreAnswered
  refine fun rq s hs role => ⟨fun hv => ⟨answers_of_body rfl hs (bodyGatherShow_all role hv) rfl,
      fun ct g hc => answers_of_body rfl hs (bodyGatherShow_one role hv hc) rfl,
      fun nt n hn => answers_of_body rfl hs (bodyGatherRing_ok role hv hn) rfl,
      fun at_ ct a n ha hn => answers_of_body rfl hs (bodyGatherRead_ok role hv ha hn) rfl⟩,
    fun runs => ⟨fun at_ wt a v ha hw fits low high free => ?word, fun ct g hc => ⟨fun host idle => ?start,
      fun own => ⟨answers_of_refusal rfl hs (bodyGatherStart_own runs hc own) rfl,
        answers_of_refusal rfl hs (bodyGatherStop_own runs hc own) rfl⟩,
      fun host => answers_of_body rfl hs (bodyGatherStop_ok role runs hc host) (congrArg _ (modChan_line s g _ _)),
      fun goes => ⟨answers_of_refusal rfl hs (haltedRequest_goes runs hc goes) rfl,
        answers_of_refusal rfl hs (haltedRequest_goes runs hc goes) rfl,
        answers_of_refusal rfl hs (haltedRequest_goes runs hc goes) rfl⟩,
      fun halted => ⟨answers_of_body rfl hs (haltedRequest_ok role runs hc halted) (congrArg _ (modChan_line s g _ _)),
        ?skip, ?reset⟩⟩⟩⟩
  case word =>
    obtain ⟨w, stored⟩ := storedWords_one (s := s) (show a < 4096 by omega) (BitVec.ofNat 32 v)
    refine ⟨w, stored, booked_of_body rfl hs (bodyGatherWord_one role runs ha hw fits low high free stored) ?_
      (auditLine_booked _ _ _ _ _ _ _)⟩
    rw [auditLine_line]
    cases rq.line
    all_goals rfl
  case start =>
    have started := startChan_restarted g s
    obtain ⟨t, ran, talked, more, sent⟩ := runLine_ok (rq := rq) (verb := "gather") hs
      (bodyGatherStart_ok role runs hc host idle)
    rw [started.line] at sent
    have chans := congrArg Gather.chans talked.ga
    have chan : t.ga.chans[g] = (startChan g s).ga.chans[g] := by rw [chans]
    refine ⟨t, ran, ⟨more, sent⟩, chan ▸ started.st, ?_, chan ▸ started.moved, ?_, ?_,
      started.others.trans (.of_eq chans), ?_⟩
    case refine_4 =>
      rw [chans, ← started.body]
      exact talked
    all_goals rw [chan, startChan, State.modChan_chan]
  case skip =>
    have skipped := skipChan_skipped g s
    obtain ⟨t, ran, talked, more, sent⟩ := runLine_ok (rq := rq) (verb := "gather") hs
      (haltedRequest_ok (word := "skip") (act := skipChan) role runs hc halted)
    rw [skipped.line] at sent
    have chans := congrArg Gather.chans talked.ga
    refine ⟨t, ran, ⟨more, sent⟩, ?_, fun latched => ?_, skipped.others.trans (.of_eq chans),
      skipped.gathered.trans talked.gathered⟩
    · rw [chans, skipped.st]
    · rw [chans]
      exact skipped.fault latched
  case reset =>
    have reset := resetChan_restarted g s
    obtain ⟨t, ran, talked, more, sent⟩ := runLine_ok (rq := rq) (verb := "gather") hs
      (haltedRequest_ok (word := "reset") (act := resetChan) role runs hc halted)
    rw [reset.line] at sent
    have chans := congrArg Gather.chans talked.ga
    refine ⟨t, ran, ⟨more, sent⟩, ?_, ?_, ?_, reset.others.trans (.of_eq chans), ?_⟩
    · rw [chans, reset.st]
    · rw [chans, resetChan_fault]
    · rw [chans, reset.moved]
    · rw [chans, ← reset.body]
      exact talked

end Sys2Proof.Machine
end
